-- ==== Sys2Proof/Word.lean ====
section
/-! DEFINITION. The word types of the LS-7320 and their plainest arithmetic. -/

namespace Sys2Proof

/-- One byte on any port of the part. -/
abbrev Byte := BitVec 8

/-- A 16-bit field: break numbers, revisions, directive sequence counts. -/
abbrev Word16 := BitVec 16

/-- A 32-bit field: slot numbers, site seconds, clip ids, fingerprints. -/
abbrev Word32 := BitVec 32

/-- The difference `a - b` modulo 2^32, read as a signed number (00_scope.md, Slot numbers; R82). -/
def sdiff (a b : Word32) : Int := (a - b).toInt

/-- `n` limited to `lo..hi`. -/
def clampInt (lo hi n : Int) : Int := max lo (min hi n)

end Sys2Proof
end

