-- ==== Sys2Proof/Syntax.lean ====
section
/-! DEFINITION. The commands of the LS-7320: one constructor of `Instr` for each row of spec/opcode_table.json. The table
gives its rows no operand fields, so each constructor carries the operands its rule needs. -/

namespace Sys2Proof

/-- The two management identities (00_scope.md, Terms). -/
inductive Role where
  | insertion
  | site
deriving DecidableEq, Repr

/-- The four write-once settings, in the order of R192. -/
inductive WriteOnceSetting where
  | siteNumber
  | areaCode
  | siteOffset
  | ringSize
deriving DecidableEq, Repr

/-- The operating settings written through the settings object, in the order of R193. -/
inductive OperatingSetting where
  | lockWindow
  | stepThreshold
  | emissionTolerance
  | holdoverRate
  | acquireGp
  | acquireGi
  | trackGp
  | trackGi
  | steeringCentre
  | markTolerance
  | feedGapLimit
  | feedMuteDelay
  | armLead
  | loadIdleLimit
  | checkModeInsertion
  | checkModeSite
  | timeMessageBaud
deriving DecidableEq, Repr

/-- The commands. Bytes 2 to 188 of a packet come with the command that ends the packet, because the table has no row for
a byte in the middle of a packet (log 4). -/
inductive Instr where
  /-- POWER_ON (R197). -/
  | powerOn
  /-- RESET_PIN (R197): RESETN is asserted. -/
  | resetPin
  /-- RESET_ENDS (R197): no reset is held and the load is complete; the strap levels are sampled. -/
  | resetEnds (a1 a2 : Bool)
  /-- SITE_SECOND_BOUNDARY (R1). -/
  | siteSecondBoundary
  /-- PPS_EDGE (R3). -/
  | ppsEdge
  /-- MISSING_PULSE (R8). -/
  | missingPulse
  /-- REFOK_FALL (R4). -/
  | refokFall
  /-- REFOK_RISE (R4). -/
  | refokRise
  /-- TIME_MESSAGE (R5): the eighth byte, and whether its stop bit was high. -/
  | timeMessage (b : Byte) (stopHigh : Bool)
  /-- TIME_MESSAGE_INTERBYTE_TIMEOUT (R5). -/
  | timeMessageInterbyteTimeout
  /-- STEERING_WORD_SENT (R20). -/
  | steeringWordSent
  /-- PACKET_COMPLETE (R26): bytes 2 to 188 of the open packet, and whether FERR was seen on any of them. -/
  | packetComplete (rest : List Byte) (ferr : Bool)
  /-- SHORT_PACKET (R27): the byte with FSTART that ends the open packet and opens the next, with its FERR. -/
  | shortPacket (first : Byte) (ferr : Bool)
  /-- LONG_PACKET (R28). -/
  | longPacket
  /-- GAP_EXPIRY (R30). -/
  | gapExpiry
  /-- FEED_OUT_TIMER_EXPIRY (R58). -/
  | feedOutTimerExpiry
  /-- FEED_WRITE (R40). -/
  | feedWrite
  /-- TAKE_CONTROL_PACKET (R66). -/
  | takeControlPacket
  /-- EMISSION_MARK (R73): the directive at the parse position. -/
  | emissionMark
  /-- BREAK_NOTICE (R74): the directive at the parse position. -/
  | breakNotice
  /-- BREAK_CANCEL (R91): the directive at the parse position. -/
  | breakCancel
  /-- RETURN_NOW (R92): the directive at the parse position. -/
  | returnNow
  /-- SITE_MUTE (R78): the directive at the parse position. -/
  | siteMute
  /-- UNKNOWN_DIRECTIVE (R69): the directive at the parse position. -/
  | unknownDirective
  /-- DIRECTIVE_OVERRUN (R69): the directive at the parse position. -/
  | directiveOverrun
  /-- FETCH_REQUEST (R51). -/
  | fetchRequest
  /-- RING_READ_TAKEN (R51). -/
  | ringReadTaken
  /-- RING_READ_COMPLETE (R52). -/
  | ringReadComplete
  /-- SLOT_EMISSION (R54). -/
  | slotEmission
  /-- FILL_EMISSION (R55). -/
  | fillEmission
  /-- DRIVEN_PACKET_END (R56). -/
  | drivenPacketEnd
  /-- ARM_TIME_REACHED (R104), on the entry with this break number. -/
  | armTimeReached (number : Word16)
  /-- END_REACHED (R105), on the entry with this break number. -/
  | endReached (number : Word16)
  /-- RESERVE (R96). -/
  | reserve (role : Role) (number : Word16)
  /-- CONFIRM (R97). -/
  | confirm (role : Role)
  /-- DISCARD (R100). -/
  | discard (role : Role)
  /-- FIND_BREAK (R101). -/
  | findBreak (role : Role) (number : Word16)
  /-- CLEAR_BOOKING (R102). -/
  | clearBooking (role : Role) (number : Word16)
  /-- OPEN_LOAD (R118). -/
  | openLoad (role : Role) (clip : Word32) (service : Byte) (count fingerprint : Word32)
  /-- ABORT_LOAD (R127). -/
  | abortLoad (role : Role) (clip : Word32)
  /-- RETIRE_CLIP (R128). -/
  | retireClip (role : Role) (clip : Word32)
  /-- FORCE_SLATE (R168). -/
  | forceSlate (role : Role) (service : Byte) (clip : Word32)
  /-- RELEASE_SLATE (R170). -/
  | releaseSlate (role : Role) (service : Byte)
  /-- FORCE_MUTE (R59). -/
  | forceMute (role : Role)
  /-- RELEASE_MUTE (R59). -/
  | releaseMute (role : Role)
  /-- SAVE_SETTINGS (R195). -/
  | saveSettings (role : Role)
  /-- SAVE_COMPLETE (R195). -/
  | saveComplete
  /-- STREAM_RESTART (R199). -/
  | streamRestart (role : Role)
  /-- CLEAR_COUNTERS (R185). -/
  | clearCounters (role : Role)
  /-- STAGING_WRITE (R95): the first-field code and the bytes after it (R205). -/
  | stagingWrite (role : Role) (first : Byte) (data : List Byte)
  /-- STREAM_MAP_ADD (R36): stream id, class code, service and clock flag of the edit record. -/
  | streamMapAdd (role : Role) (stream : Word16) (cls service clock : Byte)
  /-- STREAM_MAP_CHANGE (R36). -/
  | streamMapChange (role : Role) (stream : Word16) (cls service clock : Byte)
  /-- STREAM_MAP_REMOVE (R36). -/
  | streamMapRemove (role : Role) (stream : Word16) (cls service clock : Byte)
  /-- WRITE_ONCE_SETTING_WRITE (R192): the value as the signed 32-bit number of the settings object. -/
  | writeOnceSettingWrite (role : Role) (setting : WriteOnceSetting) (value : Word32)
  /-- OPERATING_SETTING_WRITE (R193): the value or code as the signed 32-bit number of the settings object. -/
  | operatingSettingWrite (role : Role) (setting : OperatingSetting) (value : Word32)
  /-- WRITE_PHASE (R177): the target address, the bytes after the address byte, and whether a STOP ended the phase. -/
  | writePhase (address : BitVec 7) (bytes : List Byte) (byStop : Bool)
  /-- NOTICE_HEAD_READ (R180): the role, and how many bytes the master was sent. -/
  | noticeHeadRead (role : Role) (sent : Nat)
  /-- RESET_CAUSE_READ (R198). -/
  | resetCauseRead (role : Role)
  /-- PACKET_ADMITTED (R120): the byte taken with ISTART. -/
  | packetAdmitted (first : Byte)
  /-- INSERTION_PACKET_REFUSED (R120). -/
  | insertionPacketRefused
  /-- INSERTION_SHORT_PACKET (R120): the byte with ISTART that ends the admitted packet and opens the next. -/
  | insertionShortPacket (first : Byte)
  /-- INSERTION_LONG_PACKET (R120). -/
  | insertionLongPacket
  /-- INSERTION_PACKET_COMPLETE (R122): bytes 2 to 188 of the admitted packet. -/
  | insertionPacketComplete (rest : List Byte)
  /-- LOAD_WRITE (R124). -/
  | loadWrite
  /-- LOAD_IDLE_TIMEOUT (R126). -/
  | loadIdleTimeout
  /-- CLIP_READ_TAKEN (R130). -/
  | clipReadTaken
  /-- CLIP_READ_COMPLETE (R158). -/
  | clipReadComplete
  /-- TIME_MESSAGE_BYTE (R5): a byte other than the eighth, and whether its stop bit was high. -/
  | timeMessageByte (b : Byte) (stopHigh : Bool)
  /-- FEED_PACKET_OPENS (R25): the byte taken with FSTART, with its FERR. -/
  | feedPacketOpens (first : Byte) (ferr : Bool)
deriving DecidableEq, Repr

end Sys2Proof
end

