-- ==== Sys2Proof/WellFormed.lean ====
section
/-! DEFINITION. Which terms of `Instr` are commands of the part. -/

namespace Sys2Proof

/-- A completion carries exactly bytes 2 to 188 of its packet (R26, R122). -/
def restWellFormed (rest : List Byte) : Bool := rest.length == 187

/-- The commands of the part. Only the two completions carry operands that could be of a wrong shape: every other operand
has the width its field has on the wire, and a write phase or staging write may carry any bytes (R175, R95). -/
def Instr.wellFormed : Instr → Bool
  | .packetComplete rest _ => restWellFormed rest
  | .insertionPacketComplete rest => restWellFormed rest
  | .powerOn | .resetPin | .resetEnds _ _ | .siteSecondBoundary | .ppsEdge | .missingPulse | .refokFall
  | .refokRise | .timeMessage _ _ | .timeMessageInterbyteTimeout | .steeringWordSent | .shortPacket _ _
  | .longPacket | .gapExpiry | .feedOutTimerExpiry | .feedWrite | .takeControlPacket | .emissionMark
  | .breakNotice | .breakCancel | .returnNow | .siteMute | .unknownDirective | .directiveOverrun
  | .fetchRequest | .ringReadTaken | .ringReadComplete | .slotEmission | .fillEmission | .drivenPacketEnd
  | .armTimeReached _ | .endReached _ | .reserve _ _ | .confirm _ | .discard _ | .findBreak _ _
  | .clearBooking _ _ | .openLoad _ _ _ _ _ | .abortLoad _ _ | .retireClip _ _ | .forceSlate _ _ _
  | .releaseSlate _ _ | .forceMute _ | .releaseMute _ | .saveSettings _ | .saveComplete | .streamRestart _
  | .clearCounters _ | .stagingWrite _ _ _ | .streamMapAdd _ _ _ _ _ | .streamMapChange _ _ _ _ _
  | .streamMapRemove _ _ _ _ _ | .writeOnceSettingWrite _ _ _ | .operatingSettingWrite _ _ _
  | .writePhase _ _ _ | .noticeHeadRead _ _ | .resetCauseRead _ | .packetAdmitted _
  | .insertionPacketRefused | .insertionShortPacket _ | .insertionLongPacket | .loadWrite
  | .loadIdleTimeout | .clipReadTaken | .clipReadComplete | .timeMessageByte _ _ | .feedPacketOpens _ _ => true

end Sys2Proof
end

