-- ==== Sys2Proof/Decode.lean ====
section
/-! DEFINITION. The command that a word of the opcode table spells. spec/opcode_table.json gives none of its rows any bits, so
no word spells a command (log 24). -/

namespace Sys2Proof

/-- The command of a word with the table's bits: none, because no row of the table has bits (log 24). -/
def decodeTableWord (_nbits _w : Nat) : Option Instr := none

end Sys2Proof
end

