-- ==== Sys2Proof/Config.lean ====
section
/-! DEFINITION. What the LS-7320 fixes (limits and sizes of the manual), and the free values: constants with no body
for what the manual leaves open. -/

namespace Sys2Proof
namespace Config

/-- Ticks in one site second (00_scope.md, Site time). -/
def ticksPerSecond : Nat := 27000000

/-- Ticks in one millisecond (00_scope.md, Site time). -/
def ticksPerMs : Nat := 27000

/-- Units of 2^-24 tick in one tick (R44). -/
def unitsPerTick : Nat := 16777216

/-- The largest value of a counter, at which it saturates (00_scope.md, Counters). -/
def counterMax : Nat := 4294967295

/-- The modulus M of clock stamp arithmetic (00_scope.md, Packets). -/
def stampModulus : Nat := 2576980377600

/-- The modulus of unit stamps (00_scope.md, Packets). -/
def unitStampModulus : Nat := 8589934592

/-- Largest phase error of an in-window pulse, and the tick at which an unserved boundary is missing (R7, R8). -/
def windowTicks : Nat := 2700000

/-- Slots of packet memory (06, section 6.1). -/
def memorySlots : Nat := 524288

/-- Blocks of packet memory (06, section 6.1). -/
def memoryBlocks : Nat := 8192

/-- Slots of one block (06, section 6.1). -/
def slotsPerBlock : Nat := 64

/-- Bytes of one slot: 188 packet bytes and four bytes of slot info (R113). -/
def slotBytes : Nat := 192

/-- Bytes of one packet (00_scope.md, Packets). -/
def packetBytes : Nat := 188

/-- Capacity of the feed write buffer (R39) and of the load buffer (R121). -/
def bufferPlaces : Nat := 16

/-- Capacity of the control hand-off queue (R34). -/
def handoffPlaces : Nat := 4

/-- Capacity of the anchor queue (R46). -/
def anchorPlaces : Nat := 32

/-- Capacity of one notice queue (R186). -/
def noticePlaces : Nat := 32

/-- Capacity of the stream map (R35) and of the continuity table (R161). -/
def mapPlaces : Nat := 32

/-- Capacity of the break table (R82). -/
def breakPlaces : Nat := 16

/-- Positions of the clip directory (R115). -/
def clipPlaces : Nat := 64

/-- Least distance in ticks between the instants of two packets (R50). -/
def packetTicks : Nat := 188

/-- The longest a save lasts, 40 ms (R195). -/
def saveTicks : Nat := 1080000

/-- Bits of a steering word (R20). -/
def steeringBits : Nat := 16

/-- The format number of the images that this part writes (R194). DESIGN CHOICE (log 8): the manual gives no value. -/
def imageFormat : Byte := 0x01#8

/-- The format number that stands in an image never written, or marked invalid as a save begins. DESIGN CHOICE (log 8). -/
def imageErased : Byte := 0xFF#8

/-- What a byte of packet memory that nothing has written reads as. DESIGN CHOICE, unsafe (log 6): the manual leaves the
contents of the DRAM after power-on open (R113). -/
def dramByte : Byte := 0#8

/-- A free value (log 21): the ticks of one STCLK cycle, less one. R20 gives each bit of a steering word one STCLK cycle and
states no rate. -/
opaque stclkTicks : Nat

/-- A free value (log 3): which of the internal steps that have no stated moment comes next on an idle cycle, or none of
them. Its argument is the number of free choices taken so far. -/
opaque idleChoice : Nat → Nat

/-- A free value (log 14): whether the clock flag byte of a stream map edit counts as set when it is neither 0 nor 1.
R35 gives the flag the values set and clear; R204 gives it one byte and no codes. -/
opaque clockFlagOther : Byte → Bool

end Config
end Sys2Proof
end

