-- ==== Sys2Proof/Machine/State.lean ====
section
/-! DEFINITION. Everything the LS-7320 holds, as plain data, and the part as power-on reset ends. -/

namespace Sys2Proof
namespace Machine

/-! ## Time -/

/-- Site time S:T, and every time of that form (00_scope.md, Site time). -/
structure SiteTime where
  sec : Word32 := 0
  tick : Nat := 0
deriving DecidableEq, Repr

/-- A time with a fraction in units of 2^-24 tick (R49). -/
structure ExactTime where
  time : SiteTime := {}
  frac : Nat := 0
deriving DecidableEq, Repr

/-! ## Services and roles -/

/-- The four programme services. -/
inductive Service where
  | s1
  | s2
  | s3
  | s4
deriving DecidableEq, Repr

/-- One value for each service. -/
structure PerService (α : Type) where
  s1 : α
  s2 : α
  s3 : α
  s4 : α
deriving DecidableEq, Repr

/-- One value for each role. -/
structure PerRole (α : Type) where
  insertion : α
  site : α
deriving DecidableEq, Repr

/-! ## Settings Store (10_settings_and_restart.md) -/

/-- The class of a stream map entry; a SERVICE entry has a service and a clock flag (R35). -/
inductive StreamClass where
  | carry
  | service (v : Service) (clock : Bool)
  | drop
deriving DecidableEq, Repr

/-- One entry of the stream map (R35). -/
structure MapEntry where
  stream : Nat
  cls : StreamClass
deriving DecidableEq, Repr

/-- The live settings (R191 to R193). A write-once setting is locked exactly when it is set (R192, R197). -/
structure Settings where
  siteNumber : Option Nat := none
  areaCode : Option Nat := none
  siteOffset : Option Int := none
  ringSize : Option Nat := none
  lockWindow : Nat := 27
  stepThreshold : Nat := 2700
  emissionTolerance : Nat := 27
  holdoverRate : Nat := 16
  acquireGp : Nat := 10
  acquireGi : Nat := 6
  trackGp : Nat := 8
  trackGi : Nat := 3
  steeringCentre : Int := 0
  markTolerance : Nat := 27
  feedGapLimit : Nat := 20
  feedMuteDelay : Nat := 500
  armLead : Nat := 2000
  loadIdleLimit : Nat := 5000
  checkModeInsertion : Bool := false
  checkModeSite : Bool := false
  baud : Nat := 0
  map : List MapEntry := []
deriving DecidableEq, Repr

/-- The stored image (R194): the settings it holds, its format number and its CRC-32. One that was never written holds the format
number of erased memory (log 8). -/
structure StoredImage where
  content : Settings := {}
  format : Byte := Config.imageErased
  crc : Word32 := 0xFFFFFFFF#32
deriving DecidableEq, Repr

/-- The image state of the settings object (R194). -/
inductive ImageState where
  | invalid
  | valid
deriving DecidableEq, Repr

/-- A save in progress: the copy taken at SAVE SETTINGS and the ticks since (R195). -/
structure Save where
  copy : Settings
  elapsed : Nat
deriving DecidableEq, Repr

/-- The reset cause (R198). -/
inductive ResetCause where
  | none
  | powerOn
  | resetPin
  | streamRestart
deriving DecidableEq, Repr

/-- The Settings Store. -/
structure Sst where
  live : Settings := {}
  image : StoredImage := {}
  imageState : ImageState := .invalid
  unsaved : Bool := false
  save : Option Save := .none
  cause : ResetCause := .powerOn
  storeInvalid : Bool := true
deriving DecidableEq, Repr

/-! ## Time Base Unit (01_site_time_and_reference_discipline.md) -/

/-- The discipline states, in the order of section 1.4. -/
inductive DisciplineState where
  | unset
  | acquiring
  | locked
  | holdover
  | expired
deriving DecidableEq, Repr

/-- The causes of a holdover, in the order of R13. -/
inductive HoldoverCause where
  | refLost
  | refJump
  | pulseMissing
  | timeMismatch
deriving DecidableEq, Repr

/-- A good time message that no pulse has consumed (R5). -/
structure HeldMessage where
  seconds : Word32
  tracking : Bool
deriving DecidableEq, Repr

/-- An open assembly of TMSG bytes, with the ticks since its last byte (R5). -/
structure Assembly where
  bytes : List Byte
  idle : Nat
deriving DecidableEq, Repr

/-- The counters of R22. -/
structure TbuCounters where
  timeSteps : Nat := 0
  ignoredPulses : Nat := 0
  extraPulses : Nat := 0
  missingPulses : Nat := 0
  referenceOutliers : Nat := 0
  messageMismatches : Nat := 0
  badTimeMessages : Nat := 0
deriving DecidableEq, Repr

/-- The Time Base Unit. `lastMissing` is the model's own: the boundary last declared missing since site time was last stepped, so
that R8 declares it once (log 1). `shifting` and `waiting` are the steering words of R20, `shiftTicks` the ticks since the word
being shifted began, `loaded` the word the oscillator last took. -/
structure Tbu where
  time : SiteTime := {}
  state : DisciplineState := .unset
  cause : Option HoldoverCause := .none
  integrator : Int := 0
  steer : Int := 0
  integratorSat : Bool := false
  steerSat : Bool := false
  lastLoopError : Int := 0
  eLast : Int := 0
  n : Nat := 0
  h : Nat := 0
  held : Option HeldMessage := .none
  assembly : Option Assembly := .none
  lastServed : Option Word32 := .none
  lastMissing : Option Word32 := .none
  lockCount : Nat := 0
  outlierCount : Nat := 0
  missingCount : Nat := 0
  mismatchCount : Nat := 0
  relockCount : Nat := 0
  runCount : Nat := 0
  runLast : SiteTime := {}
  steerLimitRun : Nat := 0
  shifting : Option Word16 := some 0x8000#16
  waiting : Option Word16 := .none
  shiftTicks : Nat := 0
  loaded : Option Word16 := .none
  counters : TbuCounters := {}
deriving DecidableEq, Repr

/-! ## Feed Intake (02_feed_intake_and_the_stream_map.md) -/

/-- The framing record (R25 to R28): the bytes of the open packet with FERR seen on any of them, or whether a packet has
been completed since the last FSTART and whether an excess byte of it has been counted. -/
inductive FeedFraming where
  | noPacket
  | opened (bytes : List Byte) (ferr : Bool)
  | completed
  | excess
deriving DecidableEq, Repr

/-- The feed states, in the order of R206. -/
inductive FeedState where
  | absent
  | syncing
  | on
  | lost
deriving DecidableEq, Repr

/-- The slot info that is written behind a packet (R113). -/
structure SlotInfo where
  tag : Nat
  void : Bool
  service : Nat
  clockBearing : Bool
  check : Byte
deriving DecidableEq, Repr

/-- An entry of the feed write buffer (R33, R39). -/
structure FeedEntry where
  slot : Word32
  packet : List Byte
  info : SlotInfo
deriving DecidableEq, Repr

/-- A control packet with its slot number (R34). -/
structure ControlPacket where
  packet : List Byte
  slot : Word32
deriving DecidableEq, Repr

/-- The counters of R42. -/
structure FiuCounters where
  shortPackets : Nat := 0
  longPackets : Nat := 0
  badPackets : Nat := 0
  erroredPackets : Nat := 0
  droppedPackets : Nat := 0
  handoffLosses : Nat := 0
  intakeOverruns : Nat := 0
  latePackets : Nat := 0
  ringOverruns : Nat := 0
  feedLosses : Nat := 0
deriving DecidableEq, Repr

/-- The Feed Intake. The gap timer runs to the limit that stood at its last restart (R30). -/
structure Fiu where
  framing : FeedFraming := .noPacket
  state : FeedState := .absent
  goodRun : Nat := 0
  badRun : Nat := 0
  gapTimer : Option Nat := some 0
  gapLimit : Nat := 540000
  slotCounter : Word32 := 0
  writeBuffer : List FeedEntry := []
  handoff : List ControlPacket := []
  ringSize : Nat := 16384
  counters : FiuCounters := {}
deriving DecidableEq, Repr

/-! ## Emission Scheduler (03_emission_schedule_and_carrier_control.md) -/

/-- An anchor record (R45). `period` is the packet period in units of 2^-24 tick: Pi and Pf together (R44). -/
structure Anchor where
  ref : Word32
  time : SiteTime
  period : Nat
  seq : BitVec 8
deriving DecidableEq, Repr

/-- The accepted next slot n with its times (R49, R50) and the period of its current anchor. -/
structure NextSlot where
  slot : Word32
  exact : ExactTime
  instant : SiteTime
  fetchTime : SiteTime
  period : Nat
deriving DecidableEq, Repr

/-- A requested slot whose instant has not yet come (R51). `done` says that its read has completed and the Splice Engine
has answered it; its content then stands in the pending list. -/
structure Requested where
  slot : Word32
  exact : ExactTime
  instant : SiteTime
  period : Nat
  done : Bool
deriving DecidableEq, Repr

/-- Fill instants not yet come (R55): the instants ceil(base + k * period) for `next <= k <= last` (log 13). -/
structure FillRun where
  base : SiteTime
  period : Nat
  next : Nat
  last : Nat
deriving DecidableEq, Repr

/-- The mute reasons (R57 to R59). -/
structure MuteReasons where
  timing : Bool := true
  feed : Bool := false
  network : Bool := false
  site : Bool := false
  schedule : Bool := true
deriving DecidableEq, Repr

/-- The state of the carrier inhibit line (R60), in the order of R206. -/
inductive Carinh where
  | released
  | pending
  | asserted
deriving DecidableEq, Repr

/-- A packet being driven on the emission port, with the bytes sent (R56). -/
structure Driven where
  packet : List Byte
  sent : Nat
deriving DecidableEq, Repr

/-- The counters of R62. -/
structure EscCounters where
  marksRefused : Nat := 0
  anchorOverflows : Nat := 0
  scheduleSteps : Nat := 0
  markCountMismatches : Nat := 0
  markSequenceGaps : Nat := 0
  skippedSlots : Nat := 0
  absentSlots : Nat := 0
  emissionMemoryFaults : Nat := 0
  fetchLate : Nat := 0
  fillPackets : Nat := 0
  carrierCutoffs : Nat := 0
deriving DecidableEq, Repr

/-- The Emission Scheduler. Anchors and requested slots stand oldest first. -/
structure Esc where
  running : Bool := false
  anchors : List Anchor := []
  next : Option NextSlot := .none
  fetchPos : Option Word32 := .none
  requested : List Requested := []
  fills : List FillRun := []
  lastEmission : Option SiteTime := .none
  lastDriven : Option SiteTime := .none
  mute : MuteReasons := {}
  feedOutTimer : Option Nat := some 0
  carinh : Carinh := .asserted
  port : Option Driven := .none
  counters : EscCounters := {}
deriving DecidableEq, Repr

/-! ## Directive Decoder (04_network_directives.md) -/

/-- The packet in hand with the parse position (a payload byte number) and the directives still to be read (R66, R69). -/
structure InHand where
  packet : List Byte
  slot : Word32
  pos : Nat
  left : Nat
deriving DecidableEq, Repr

/-- The counters of R80. -/
structure DdcCounters where
  accepted : Nat := 0
  errored : Nat := 0
  formatRefused : Nat := 0
  checkFailures : Nat := 0
  missed : Nat := 0
  overruns : Nat := 0
  unknown : Nat := 0
  malformed : Nat := 0
  otherAreas : Nat := 0
  otherSites : Nat := 0
  marksWithoutFeed : Nat := 0
  incompleteNotices : Nat := 0
deriving DecidableEq, Repr

/-- The Directive Decoder. -/
structure Ddc where
  inHand : Option InHand := .none
  lastSeq : Option Word16 := .none
  counters : DdcCounters := {}
deriving DecidableEq, Repr

/-! ## Break Plan Unit (05_the_break_plan.md) -/

/-- The states of a break entry, in the order of R84. -/
inductive BreakState where
  | announced
  | booked
  | armed
  | fallback
  | active
  | ended
  | cancelled
deriving DecidableEq, Repr

/-- The fallback policies (R148, R149). -/
inductive Policy where
  | carry
  | blank
deriving DecidableEq, Repr

/-- The fallback reasons, in the order of R139, and LATE (R86). -/
inductive FallbackReason where
  | noBooking
  | clipNotReady
  | planMismatch
  | streamMismatch
  | noClock
  | notRunning
  | timing
  | late
deriving DecidableEq, Repr

/-- A pending closure (R93). -/
inductive Closure where
  | shortened
  | cancelled
deriving DecidableEq, Repr

/-- The outcomes of a finished entry, in the order of R83. -/
inductive BreakOutcome where
  | played
  | shortened
  | fallbackCarry
  | fallbackBlank
  | missed
  | restart
  | cancelled
deriving DecidableEq, Repr

/-- A booking (R83). -/
structure Booking where
  clips : List Word32
  reference : Word32
  by_ : Role
  combined : Word32
deriving DecidableEq, Repr

/-- An entry of the break table (R83). -/
structure BreakEntry where
  number : Word16
  service : Service
  area : Byte
  start : SiteTime
  finish : SiteTime
  arm : SiteTime
  plan : Option Word32
  policy : Policy
  state : BreakState
  revision : Word16 := 0
  booking : Option Booking := none
  reason : Option FallbackReason := none
  windowOpen : Bool := false
  closure : Option Closure := none
  outcome : Option BreakOutcome := none
  started : Nat := 0
  underrun : Nat := 0
  overrun : Nat := 0
deriving DecidableEq, Repr

/-- A role's reservation (R94). -/
inductive Reservation where
  | none
  | held (number revision : Word16)
  | orphaned (number : Word16)
deriving DecidableEq, Repr

/-- A staged field with its mark (R94). -/
structure Staged (α : Type) where
  value : α
  mark : Bool
deriving DecidableEq, Repr

/-- A role's staging record (R94): positions 1 to 8 stand in order. -/
structure Staging where
  reservation : Reservation := .none
  reference : Staged Word32 := ⟨0, false⟩
  length : Staged Byte := ⟨0, false⟩
  positions : List (Staged Word32) := List.replicate 8 ⟨0, false⟩
deriving DecidableEq, Repr

/-- The counters of R109. -/
structure BpuCounters where
  noticesRefused : Nat := 0
  lateRevisions : Nat := 0
  unknownCancels : Nat := 0
  returnsIgnored : Nat := 0
  bookingsConfirmed : Nat := 0
  confirmsRefused : Nat := 0
  missedBreaks : Nat := 0
deriving DecidableEq, Repr

/-- The Break Plan Unit. The table stands in the order of R82. -/
structure Bpu where
  table : List BreakEntry := []
  staging : PerRole Staging := ⟨{}, {}⟩
  counters : BpuCounters := {}
deriving DecidableEq, Repr

/-! ## Clip Store Controller (06_clip_store_and_packet_memory.md) -/

/-- The states of a non-EMPTY directory position (R115). -/
inductive ClipState where
  | loading
  | ready
  | fault
deriving DecidableEq, Repr

/-- The fault causes of a clip (R115). -/
inductive FaultCause where
  | fingerprint
  | foreign
  | timeout
  | noClock
  | memory
deriving DecidableEq, Repr

/-- A clip of the directory (R115). -/
structure Clip where
  id : Word32
  service : Service
  state : ClipState
  cause : Option FaultCause := none
  firstBlock : Nat
  blockCount : Nat
  expected : Nat
  stored : Nat := 0
  expectedFp : Word32
  computedFp : Word32 := 0xFFFFFFFF#32
  streams : List Nat := []
  firstStamp : Option Nat := none
  lastStamp : Option Nat := none
  pins : Nat := 0
  completed : Option SiteTime := none
deriving DecidableEq, Repr

/-- A run of free blocks (R117). -/
structure FreeRun where
  first : Nat
  count : Nat
deriving DecidableEq, Repr

/-- An accepted packet that waits for its write, with its memory slot (R123). -/
structure LoadEntry where
  slot : Nat
  packet : List Byte
  info : SlotInfo
deriving DecidableEq, Repr

/-- The load context (R119, R126). `idle` is none once the idle timer has stopped. -/
structure LoadContext where
  position : Nat
  accepted : Nat := 0
  buffer : List LoadEntry := []
  idle : Option Nat := some 0
  idleLimit : Nat
deriving DecidableEq, Repr

/-- The insertion framing record (R120). -/
inductive InsertionFraming where
  | noPacket
  | admitted (bytes : List Byte)
  | refused
  | completed
  | excess
deriving DecidableEq, Repr

/-- A fetch read that waits at the arbiter (R131): the ring read of a slot, or the read of packet k of a clip for a slot, with the
memory slot addressed when it was asked for (R130). `live` is cleared by a stream restart, after which the read's result is
discarded (R65, R135). -/
inductive FetchRead where
  | ring (slot : Word32) (live : Bool)
  | clip (slot : Word32) (live : Bool) (position : Nat) (id : Word32) (k address : Nat)
deriving DecidableEq, Repr

/-- What a judged clip read returns (R130). -/
inductive ClipReadResult where
  | good (packet : List Byte) (info : SlotInfo)
  | faulty
deriving DecidableEq, Repr

/-- The fetch read that has been taken and has not completed (R131). A ring read holds the written mark and the 192 bytes
of its slot (R114). -/
inductive TakenRead where
  | ring (slot : Word32) (live : Bool) (mark : Bool) (bytes : List Byte)
  | clip (slot : Word32) (live : Bool) (result : ClipReadResult)
deriving DecidableEq, Repr

/-- The alternation marker (R131). -/
inductive WriteKind where
  | feed
  | load
deriving DecidableEq, Repr

/-- The counters of R133. -/
structure CscCounters where
  packetsRefused : Nat := 0
  shortPackets : Nat := 0
  longPackets : Nat := 0
  badPackets : Nat := 0
  clipsReady : Nat := 0
  clipsFaulted : Nat := 0
  clipMemoryFaults : Nat := 0
deriving DecidableEq, Repr

/-- The Clip Store Controller. `memory` lists the bytes that differ from `Config.dramByte`, by rising address; `written`
lists the marked ring slots, rising; `directory` lists the non-EMPTY positions, rising. -/
structure Csc where
  memory : List Host.Cell := []
  written : List Nat := []
  directory : List (Nat × Clip) := []
  freeRuns : List FreeRun := [⟨256, 7936⟩]
  load : Option LoadContext := none
  framing : InsertionFraming := .noPacket
  reads : List FetchRead := []
  taken : Option TakenRead := none
  marker : WriteKind := .load
  counters : CscCounters := {}
deriving DecidableEq, Repr

/-! ## Splice Engine (08_splicing.md) -/

/-- The window a service is in (R151), with the break number of its entry. -/
inductive Window where
  | none
  | clip (number : Word16)
  | blank (number : Word16)
deriving DecidableEq, Repr

/-- A service's source (R151), in the order of R206. -/
inductive Source where
  | programme
  | clip
  | blank
  | slate
deriving DecidableEq, Repr

/-- A clock tracker's stamp L and instant T_L (R164). -/
structure Tracker where
  stamp : Nat
  instant : SiteTime
deriving DecidableEq, Repr

/-- What the Splice Engine holds for one service (R151, R157, R164, R165, R169). `listPos` counts from 1. `resumeDue` says
that the next break packet begins a new pass although it is not packet 0 (R170). The two offsets are those of the break's
and of the slate's latest pass. At reset and after a restart, when there is no pass, they are 0 and `resumeDue` is clear, which is
the model's choice (log 36). -/
structure ServiceState where
  window : Window := .none
  slate : Option Word32 := none
  listPos : Nat := 1
  packetPos : Nat := 0
  resumeDue : Bool := false
  slatePos : Nat := 0
  breakOffset : Nat := 0
  slateOffset : Nat := 0
  resumeStamp : Option Nat := none
  tracker : Option Tracker := none
deriving DecidableEq, Repr

/-- An entry of the continuity table (R161). -/
structure Continuity where
  stream : Nat
  count : Nat
  returning : Bool
deriving DecidableEq, Repr

/-- How far the read of a pending clip packet has come (R158). -/
inductive ClipRead where
  | waiting
  | done (result : ClipReadResult)
deriving DecidableEq, Repr

/-- A clip packet chosen for a slot (R160): its service, clip, packet number, whether it is a slate packet, whether it takes
packet 0, whether a pass begins at it and the clip's first clock stamp (R165), and its read. -/
structure ClipContent where
  service : Service
  clip : Word32
  packet : Nat
  slate : Bool
  passStart : Bool
  firstStamp : Option Nat
  read : ClipRead
deriving DecidableEq, Repr

/-- The content chosen for a slot at its hand-off (R160). -/
inductive Content where
  | stored (packet : List Byte) (info : SlotInfo)
  | null
  | clip (c : ClipContent)
deriving DecidableEq, Repr

/-- An entry of the pending list (R160). -/
structure Pending where
  slot : Word32
  instant : SiteTime
  content : Content
deriving DecidableEq, Repr

/-- The counters of R172. -/
structure SpeCounters where
  requestsRefused : Nat := 0
  clipReadsLate : Nat := 0
  unrebasedPasses : Nat := 0
  scrambledUnitStamps : Nat := 0
  discontinuityMarksSet : Nat := 0
  continuityBreaks : Nat := 0
deriving DecidableEq, Repr

/-- The Splice Engine. The continuity table stands by rising stream id, the pending list in slot order. -/
structure Spe where
  services : PerService ServiceState := ⟨{}, {}, {}, {}⟩
  continuity : List Continuity := []
  pendingSlots : List Pending := []
  fetchInstant : Option ExactTime := none
  counters : SpeCounters := {}
deriving DecidableEq, Repr

/-! ## Management Port (09_management_port.md) -/

/-- The notice kinds, in the order of R187. -/
inductive NoticeKind where
  | restarted
  | timeState
  | steerLimit
  | feedState
  | markStep
  | carrierState
  | noticeRefused
  | breakAnnounced
  | breakRevised
  | bookingConfirmed
  | reservationBroken
  | bookingCleared
  | breakArmed
  | breakFallback
  | breakStarted
  | breakEnded
  | clipReady
  | clipFault
  | localDeviation
deriving DecidableEq, Repr

/-- A notice's subject (R186). -/
inductive Subject where
  | none
  | breakNumber (n : Word16)
  | clipId (id : Word32)
deriving DecidableEq, Repr

/-- Why a break notice is refused (R75, R86, R88), in the order of R201. -/
inductive NoticeRefusal where
  | incomplete
  | planFull
  | overlap
  | late
  | invalid
deriving DecidableEq, Repr

/-- A notice's detail (R186, R201). -/
inductive Detail where
  | none
  | restart (cause : ResetCause) (storeInvalid : Bool)
  | time (state : DisciplineState) (cause : Option HoldoverCause)
  | steer (upper : Bool)
  | feed (state : FeedState)
  | mark (seq : BitVec 8)
  | mute (reasons : MuteReasons)
  | refusal (why : NoticeRefusal)
  | revision (r : Word16)
  | booking (reference : Word32) (r : Word16)
  | reason (r : FallbackReason)
  | startedClip
  | startedBlank
  | ended (o : BreakOutcome)
  | fault (c : FaultCause)
  | forced (v : Service)
  | released (v : Service)
deriving DecidableEq, Repr

/-- A notice (R186). -/
structure Notice where
  kind : NoticeKind
  subject : Subject
  detail : Detail
  time : SiteTime
deriving DecidableEq, Repr

/-- The result codes, in the order of R183. -/
inductive ResultCode where
  | done
  | clamped
  | inProgress
  | busy
  | rights
  | stale
  | closed
  | state
  | invalid
  | noSpace
  | notFound
  | duplicate
  | full
  | pinned
  | locked
  | none
  | check
deriving DecidableEq, Repr

/-- A role's result object (R183). The return value is laid out from its first byte (R204). -/
structure ResultObject where
  echo : Option Word16 := Option.none
  code : ResultCode := .none
  seq : BitVec 8 := 0
  value : List Byte := []
deriving DecidableEq, Repr

/-- The counters of R189. -/
structure MgpCounters where
  malformedWrites : Nat := 0
  checkFailures : Nat := 0
  overlongWrites : Nat := 0
  rightsRefusals : Nat := 0
  refusedDuringSave : Nat := 0
  noticesLost : Nat := 0
deriving DecidableEq, Repr

/-- What the Management Port holds for one role. The command object holds the code and arguments as written (R204). -/
structure RolePort where
  command : Option (List Byte) := none
  result : ResultObject := {}
  hold : Bool := false
  notices : List Notice := []
  counters : MgpCounters := {}
deriving DecidableEq, Repr

/-- The direction of a phase (R174). -/
inductive Direction where
  | write
  | read
deriving DecidableEq, Repr

/-- The transaction record (R174, R175): the phase in progress and its bytes, the object named by the phase before, and the
copy of the object last read (R179). The model takes a phase whole, so between steps none is in progress (log 5). -/
structure Transaction where
  phase : Option (Role × Direction) := none
  received : List Byte := []
  named : Option (Role × Word16) := none
  copy : List Byte := []
deriving DecidableEq, Repr

/-- The Management Port. -/
structure Mgp where
  insertionAddress : BitVec 7 := 0x30#7
  siteAddress : BitVec 7 := 0x31#7
  transaction : Transaction := {}
  ports : PerRole RolePort := ⟨{}, {}⟩
deriving DecidableEq, Repr

/-! ## The part -/

/-- What holds the part in reset (R197). -/
inductive ResetSource where
  | powerOn
  | resetPin
deriving DecidableEq, Repr

/-- Everything the part holds. `inReset` is the source of the reset in progress, none while the part runs. `refok` is the
level of the REFOK pin. `pending` is the queue of commands that wait, first in first out. `choices` is the model's own: how
many free choices (`Config.idleChoice`) have been taken (log 3). -/
structure State where
  inReset : Option ResetSource := none
  refok : Bool := false
  tbu : Tbu := {}
  fiu : Fiu := {}
  esc : Esc := {}
  ddc : Ddc := {}
  bpu : Bpu := {}
  csc : Csc := {}
  spe : Spe := {}
  mgp : Mgp := {}
  sst : Sst := {}
  pending : List Instr := []
  choices : Nat := 0
deriving DecidableEq, Repr

/-- Why the machine stops with a fault: never. The manual describes no stop of the part, every command answers a next state, and
so there is no constructor. -/
inductive Fault where
deriving DecidableEq, Repr

/-- Why a command is refused. -/
inductive Refusal where
  /-- The command has no meaning in the model. No arm of `exec` answers it. Safe. -/
  | notModelled (mnemonic : String)
deriving DecidableEq, Repr

/-- The RESTARTED notice that each queue holds as power-on reset ends with an image never written (R190, R198). -/
def restartedAtPowerOn : Notice :=
  { kind := .restarted, subject := .none, detail := .restart .powerOn true, time := {} }

/-- The part as power-on reset ends, with a stored image never written, straps A2 = A1 = 0 and REFOK low (log 7). Every
other field is at the value of R24, R43, R64, R81, R110, R135, R173, R190 and R197, which the fields' defaults are. -/
def State.reset : State :=
  { mgp := { ports := ⟨{ notices := [restartedAtPowerOn] }, { notices := [restartedAtPowerOn] }⟩ } }

/-! ## Block updates -/

def State.setTbu (s : State) (x : Tbu) : State := { s with tbu := x }
def State.setFiu (s : State) (x : Fiu) : State := { s with fiu := x }
def State.setEsc (s : State) (x : Esc) : State := { s with esc := x }
def State.setDdc (s : State) (x : Ddc) : State := { s with ddc := x }
def State.setBpu (s : State) (x : Bpu) : State := { s with bpu := x }
def State.setCsc (s : State) (x : Csc) : State := { s with csc := x }
def State.setSpe (s : State) (x : Spe) : State := { s with spe := x }
def State.setMgp (s : State) (x : Mgp) : State := { s with mgp := x }
def State.setSst (s : State) (x : Sst) : State := { s with sst := x }
def State.setRefok (s : State) (x : Bool) : State := { s with refok := x }
def State.setPending (s : State) (x : List Instr) : State := { s with pending := x }
def State.setChoices (s : State) (x : Nat) : State := { s with choices := x }

end Machine
end Sys2Proof
end

