-- ==== Sys2Proof/Machine/Bytes.lean ====
section
/-! DEFINITION. Byte order, check codes, and the services and roles by number. -/

namespace Sys2Proof
namespace Machine

/-- `v` as `n` bytes, most significant byte first (00_scope.md, Numbers). -/
def toBytes : Nat → Nat → List Byte
  | 0, _ => []
  | n + 1, v => BitVec.ofNat 8 (v / 256 ^ n) :: toBytes n (v % 256 ^ n)

/-- The number that bytes spell, most significant byte first. -/
def ofBytes (bytes : List Byte) : Nat := bytes.foldl (fun acc b => acc * 256 + b.toNat) 0

/-- A signed number as four bytes (R204). -/
def toBytesSigned (v : Int) : List Byte := toBytes 4 (BitVec.ofInt 32 v).toNat

/-- `l` cut to `n` bytes and filled up with zeros. -/
def padTo (n : Nat) (l : List Byte) : List Byte := l.take n ++ List.replicate (n - l.length) 0#8

/-- Byte `n` of `p`, counting from 1 (12_formats.md). -/
def byteAt (p : List Byte) (n : Nat) : Byte := p.getD (n - 1) 0#8

/-- `p` with byte `n`, counting from 1, replaced. -/
def setByte (p : List Byte) (n : Nat) (b : Byte) : List Byte := p.set (n - 1) b

/-- `p` with the bytes from byte `n` on replaced by `bytes`. -/
def setBytes (p : List Byte) : Nat → List Byte → List Byte
  | _, [] => p
  | n, b :: bs => setBytes (setByte p n b) (n + 1) bs

/-- One bit of CRC-8, polynomial 0x07 (00_scope.md, Check codes). -/
def crc8Bit (c : Nat) : Nat := if 128 ≤ c then (c * 2 % 256) ^^^ 0x07 else c * 2

/-- CRC-8 advanced over one byte, most significant bit first. -/
def crc8Byte (c : Nat) (b : Byte) : Nat :=
  crc8Bit (crc8Bit (crc8Bit (crc8Bit (crc8Bit (crc8Bit (crc8Bit (crc8Bit (c ^^^ b.toNat))))))))

/-- A check code advanced over bytes, one after another. The match computes each value before the next byte is taken; without
it Lean's kernel would hold a whole packet's steps open at once. -/
def foldBytes (f : Nat → Byte → Nat) : Nat → List Byte → Nat
  | c, [] => c
  | c, b :: bs =>
    match f c b with
    | 0 => foldBytes f 0 bs
    | n + 1 => foldBytes f (n + 1) bs

/-- CRC-8 with initial value 0 (00_scope.md, Check codes). -/
def crc8 (bytes : List Byte) : Byte := BitVec.ofNat 8 (foldBytes crc8Byte 0 bytes)

/-- One bit of CRC-32, polynomial 0x04C11DB7, without reflection (00_scope.md, Check codes). -/
def crc32Bit (c : Nat) : Nat :=
  if 2147483648 ≤ c then (c * 2 % 4294967296) ^^^ 0x04C11DB7 else c * 2

/-- CRC-32 advanced over one byte, most significant bit first. -/
def crc32Byte (c : Nat) (b : Byte) : Nat :=
  crc32Bit (crc32Bit (crc32Bit (crc32Bit (crc32Bit (crc32Bit (crc32Bit (crc32Bit (c ^^^ (b.toNat * 16777216)))))))))

/-- CRC-32 advanced from `c` over `bytes`. -/
def crc32Update (c : Word32) (bytes : List Byte) : Word32 := BitVec.ofNat 32 (foldBytes crc32Byte c.toNat bytes)

/-- The initial value of CRC-32, all ones. -/
def crc32Initial : Word32 := 0xFFFFFFFF#32

/-- CRC-32 with no final inversion (00_scope.md, Check codes). -/
def crc32 (bytes : List Byte) : Word32 := crc32Update crc32Initial bytes

/-- The service of a number, 1 to 4. -/
def Service.ofNat? : Nat → Option Service
  | 1 => some .s1
  | 2 => some .s2
  | 3 => some .s3
  | 4 => some .s4
  | _ => none

/-- The number of a service. -/
def Service.num : Service → Nat
  | .s1 => 1
  | .s2 => 2
  | .s3 => 3
  | .s4 => 4

/-- The four services in order. -/
def Service.all : List Service := [.s1, .s2, .s3, .s4]

/-- The value held for a service. -/
def PerService.get {α : Type} (p : PerService α) : Service → α
  | .s1 => p.s1
  | .s2 => p.s2
  | .s3 => p.s3
  | .s4 => p.s4

/-- The values with the one for a service replaced. -/
def PerService.set {α : Type} (p : PerService α) (v : Service) (x : α) : PerService α :=
  match v with
  | .s1 => { p with s1 := x }
  | .s2 => { p with s2 := x }
  | .s3 => { p with s3 := x }
  | .s4 => { p with s4 := x }

/-- The value held for a role. -/
def PerRole.get {α : Type} (p : PerRole α) : Role → α
  | .insertion => p.insertion
  | .site => p.site

/-- The values with the one for a role replaced. -/
def PerRole.set {α : Type} (p : PerRole α) (r : Role) (x : α) : PerRole α :=
  match r with
  | .insertion => { p with insertion := x }
  | .site => { p with site := x }

/-- The other role. -/
def otherRole : Role → Role
  | .insertion => .site
  | .site => .insertion

end Machine
end Sys2Proof
end

