-- ==== Sys2Proof/Machine/Memory.lean ====
section
/-! DEFINITION. The packet memory: a canonical list of (byte address, byte), and the ring written map. -/

namespace Sys2Proof
namespace Machine

/-- The bytes of packet memory that differ from `Config.dramByte`, by rising address. -/
abbrev Memory := List Host.Cell

/-- The addresses rise strictly. -/
def Memory.rising : Memory → Bool
  | [] => true
  | [_] => true
  | a :: b :: rest => decide (a.1 < b.1) && Memory.rising (b :: rest)

/-- The canonical form: addresses strictly rising, and no cell equal to what an unlisted address reads as. -/
def Memory.wf (m : Memory) : Bool := Memory.rising m && m.all (fun c => c.2 != Config.dramByte)

/-- The byte at an address. -/
def Memory.read (m : Memory) (a : Nat) : Byte :=
  match m.find? (fun c => c.1 == a) with
  | some c => c.2
  | none => Config.dramByte

/-- The cells that a run of bytes puts at addresses from `a` on. -/
def Memory.cells : Nat → List Byte → Memory
  | _, [] => []
  | a, b :: bs => if b = Config.dramByte then Memory.cells (a + 1) bs else (a, b) :: Memory.cells (a + 1) bs

/-- A run of bytes written from address `a` on: the cells below it, the run, the cells above it. -/
def Memory.write (m : Memory) (a : Nat) (bytes : List Byte) : Memory :=
  m.filter (fun c => decide (c.1 < a)) ++ Memory.cells a bytes ++ m.filter (fun c => decide (a + bytes.length ≤ c.1))

/-- The byte address of a memory slot. A slot is addressed by the 19 bits that number the 524,288 slots of R112, so no access
leaves the memory (log 28). -/
def Memory.address (slot : Nat) : Nat := slot % Config.memorySlots * Config.slotBytes

/-- The 192 bytes of a memory slot (R113). -/
def Memory.readSlot (m : Memory) (slot : Nat) : List Byte :=
  (List.range Config.slotBytes).map (fun j => m.read (Memory.address slot + j))

/-- The memory with the 192 bytes of a slot replaced (R113). -/
def Memory.writeSlot (m : Memory) (slot : Nat) (bytes : List Byte) : Memory :=
  m.write (Memory.address slot) (padTo Config.slotBytes bytes)

/-- A rising list of ring slots with one more mark (R114). -/
def markSlot (i : Nat) : List Nat → List Nat
  | [] => [i]
  | j :: rest => if i < j then i :: j :: rest else if i = j then j :: rest else j :: markSlot i rest

end Machine
end Sys2Proof
end

