-- ==== Sys2Proof/Machine/Packet.lean ====
section
/-! DEFINITION. The fields of a transport packet and their rewriting (12_formats.md, R202). -/

namespace Sys2Proof
namespace Machine

/-- The null packet (00_scope.md, Packets). -/
def nullPacket : List Byte := [0x47#8, 0x1F#8, 0xFF#8, 0x10#8] ++ List.replicate 184 0xFF#8

/-- The error mark: bit 7 of byte 2. -/
def errorMark (p : List Byte) : Bool := (byteAt p 2).getLsbD 7

/-- The packet with the error mark set (R26). -/
def setErrorMark (p : List Byte) : List Byte := setByte p 2 (byteAt p 2 ||| 0x80#8)

/-- The unit-start mark: bit 6 of byte 2. -/
def unitStart (p : List Byte) : Bool := (byteAt p 2).getLsbD 6

/-- The 13-bit stream id: from bit 4 of byte 2. -/
def streamId (p : List Byte) : Nat := (byteAt p 2).toNat % 32 * 256 + (byteAt p 3).toNat

/-- The scrambling code: bits 7 and 6 of byte 4. -/
def scrambling (p : List Byte) : Nat := (byteAt p 4).toNat / 64

/-- The adaptation control: bits 5 and 4 of byte 4. -/
def adaptation (p : List Byte) : Nat := (byteAt p 4).toNat / 16 % 4

/-- The continuity count: bits 3 to 0 of byte 4. -/
def continuityCount (p : List Byte) : Nat := (byteAt p 4).toNat % 16

/-- The packet with its continuity count replaced (R202). -/
def setContinuityCount (p : List Byte) (c : Nat) : List Byte :=
  setByte p 4 (BitVec.ofNat 8 ((byteAt p 4).toNat / 16 * 16 + c % 16))

/-- A packet carries payload when its adaptation control is 01 or 11 (R162). -/
def hasPayload (p : List Byte) : Bool := adaptation p == 1 || adaptation p == 3

/-- The length of the adaptation area, where there is one and its length fits the packet (R202). -/
def adaptationLength? (p : List Byte) : Option Nat :=
  let len := (byteAt p 5).toNat
  if adaptation p = 2 then (if len ≤ 183 then some len else none)
  else if adaptation p = 3 then (if len ≤ 182 then some len else none)
  else none

/-- The packet claims an adaptation area whose length does not fit the packet (R202). -/
def unsoundAdaptation (p : List Byte) : Bool := decide (2 ≤ adaptation p) && (adaptationLength? p).isNone

/-- The packet carries a clock stamp (R33, R202). -/
def carriesStamp (p : List Byte) : Bool :=
  match adaptationLength? p with
  | some len => decide (7 ≤ len) && (byteAt p 6).getLsbD 4
  | none => false

/-- The six bytes of the clock stamp as one number: 33-bit base, 6 reserved bits, 9-bit extension. -/
def stampBits (p : List Byte) : Nat := ofBytes ((p.drop 6).take 6)

/-- The clock stamp's value in ticks: base times 300 plus extension (00_scope.md, Packets). -/
def stampValue (p : List Byte) : Nat := stampBits p / 32768 * 300 + stampBits p % 512

/-- The packet with the base and extension of its clock stamp replaced and the reserved bits kept (R166, R202). -/
def setStamp (p : List Byte) (value : Nat) : List Byte :=
  setBytes p 7 (toBytes 6 (value / 300 * 32768 + stampBits p / 512 % 64 * 512 + value % 300))

/-- The first payload byte's number: 5 without an adaptation area, otherwise 6 plus its length (12.1). -/
def payloadStart (p : List Byte) : Nat :=
  match adaptationLength? p with
  | some len => 6 + len
  | none => 5

/-- The unit stamps of a packet: the byte number of the present-stamp, and whether a decode-stamp follows it, where the
packet has unit start set, scrambling code 0, and a payload that begins a unit header whose stamps fit (R202). -/
def unitStamps? (p : List Byte) : Option (Nat × Bool) :=
  let q := payloadStart p
  let flags := (byteAt p (q + 7)).toNat / 64
  if unitStart p && scrambling p == 0 && hasPayload p && decide (q + 8 ≤ 188)
      && byteAt p q == 0x00#8 && byteAt p (q + 1) == 0x00#8 && byteAt p (q + 2) == 0x01#8 then
    if flags = 2 ∧ q + 13 ≤ 188 then some (q + 9, false)
    else if flags = 3 ∧ q + 18 ≤ 188 then some (q + 9, true)
    else none
  else none

/-- The 33 value bits of the unit stamp whose first byte is byte `n` (12.1). -/
def unitStampValue (p : List Byte) (n : Nat) : Nat :=
  let v := ofBytes ((p.drop (n - 1)).take 5)
  v / 8589934592 % 8 * 1073741824 + v / 131072 % 32768 * 32768 + v / 2 % 32768

/-- The packet with the 33 value bits of the unit stamp at byte `n` replaced; its prefix and marker bits stay (R202). -/
def setUnitStamp (p : List Byte) (n value : Nat) : List Byte :=
  let v := ofBytes ((p.drop (n - 1)).take 5)
  let kept := v / 68719476736 * 68719476736 + v / 4294967296 % 2 * 4294967296 + v / 65536 % 2 * 65536 + v % 2
  setBytes p n (toBytes 5 (kept + value / 1073741824 % 8 * 8589934592 + value / 32768 % 32768 * 131072 + value % 32768 * 2))

/-- The packet with its discontinuity mark set: bit 7 of byte 6 (R202). -/
def setDiscontinuity (p : List Byte) : List Byte := setByte p 6 (byteAt p 6 ||| 0x80#8)

/-- The slot info of a stored packet: its flags as one byte (R113). -/
def SlotInfo.flags (i : SlotInfo) : Byte :=
  BitVec.ofNat 8 (128 + (if i.void then 64 else 0) + i.service % 8 * 8 + (if i.clockBearing then 4 else 0))

/-- The 192 bytes of a slot (R113). -/
def slotImage (packet : List Byte) (i : SlotInfo) : List Byte :=
  padTo Config.packetBytes packet ++ toBytes 2 i.tag ++ [i.flags, i.check]

/-- The packet bytes of a slot's 192 bytes. -/
def slotPacket (bytes : List Byte) : List Byte := bytes.take Config.packetBytes

/-- The slot info that a slot's bytes 189 to 192 spell (R113). -/
def slotInfo (bytes : List Byte) : SlotInfo :=
  { tag := (byteAt bytes 189).toNat * 256 + (byteAt bytes 190).toNat
    void := (byteAt bytes 191).getLsbD 6
    service := (byteAt bytes 191).toNat / 8 % 8
    clockBearing := (byteAt bytes 191).getLsbD 2
    check := byteAt bytes 192 }

/-- The valid flag of a slot's bytes (R113). -/
def slotValid (bytes : List Byte) : Bool := (byteAt bytes 191).getLsbD 7

end Machine
end Sys2Proof
end

