-- ==== Sys2Proof/Machine/Time.lean ====
section
/-! DEFINITION. Arithmetic of site times and of exact slot times. -/

namespace Sys2Proof
namespace Machine

/-- `t` plus a signed number of ticks, carrying into and borrowing from the seconds, which wrap modulo 2^32
(00_scope.md, Site time; R2). -/
def SiteTime.add (t : SiteTime) (ticks : Int) : SiteTime :=
  let total : Int := (t.tick : Int) + ticks
  { sec := t.sec + BitVec.ofInt 32 (total / (Config.ticksPerSecond : Int))
    tick := (total % (Config.ticksPerSecond : Int)).toNat }

/-- The signed number of ticks from `b` to `a`, the second counts compared as slot numbers are (R82, R165). -/
def SiteTime.since (a b : SiteTime) : Int :=
  sdiff a.sec b.sec * (Config.ticksPerSecond : Int) + ((a.tick : Int) - (b.tick : Int))

/-- `a` comes before `b`: by the signed difference of the seconds, which reads positive from `a` to `b` as that of slot
numbers does (R82; 00_scope.md, Slot numbers), and by the ticks when the seconds are equal. For break times R82 states it.
That slot instants, fetch times, fill instants and arm times across the wrap of the second count compare in the same way is
the model's choice (log 34). -/
def SiteTime.before (a b : SiteTime) : Bool :=
  if a.sec = b.sec then decide (a.tick < b.tick) else decide (0 < sdiff b.sec a.sec)

/-- `now` has reached `t`: it is at `t` or after it. -/
def SiteTime.reached (now t : SiteTime) : Bool := !now.before t

/-- The later of two times. -/
def SiteTime.later (a b : SiteTime) : SiteTime := if a.before b then b else a

/-- Ceiling of `units` of 2^-24 tick in whole ticks. -/
def ceilUnits (units : Nat) : Nat := (units + (Config.unitsPerTick - 1)) / Config.unitsPerTick

/-- `t` plus a number of units of 2^-24 tick, as an exact time (R49). -/
def exactAfter (t : SiteTime) (units : Nat) : ExactTime :=
  { time := t.add ((units / Config.unitsPerTick : Nat) : Int), frac := units % Config.unitsPerTick }

/-- The first whole tick not earlier than an exact time (R49). -/
def ExactTime.ceil (e : ExactTime) : SiteTime := if e.frac = 0 then e.time else e.time.add 1

/-- The signed number of units of 2^-24 tick from a whole-tick time to an exact time. -/
def ExactTime.unitsSince (e : ExactTime) (t : SiteTime) : Int :=
  e.time.since t * (Config.unitsPerTick : Int) + (e.frac : Int)

/-- An exact time is at or after a whole-tick time (R153, R154). -/
def ExactTime.reached (e : ExactTime) (t : SiteTime) : Bool := e.time.reached t

/-- The nearest site second of a timestamp (R7). -/
def nearestSecond (t : SiteTime) : Word32 := if t.tick < 13500000 then t.sec else t.sec + 1

/-- The phase error of a timestamp in ticks (R7). -/
def phaseError (t : SiteTime) : Int :=
  if t.tick < 13500000 then (t.tick : Int) else (t.tick : Int) - (Config.ticksPerSecond : Int)

/-- `n / d` rounded to the nearest integer, an exact half to the even integer (00_scope.md, Numbers). -/
def convergent (n : Int) (d : Nat) : Int :=
  let q := n / (d : Int)
  let r := n % (d : Int)
  if 2 * r < (d : Int) then q
  else if (d : Int) < 2 * r then q + 1
  else if q % 2 = 0 then q
  else q + 1

/-- One more event on a counter, which saturates (00_scope.md, Counters). -/
def bump (n : Nat) : Nat := min (n + 1) Config.counterMax

/-- `k` more events on a counter. -/
def bumpBy (n k : Nat) : Nat := min (n + k) Config.counterMax

end Machine
end Sys2Proof
end

