-- ==== Sys2Proof/Machine/Ops.lean ====
section
/-! DEFINITION. The operations that several blocks share: running and reset, notices, mute reasons and the carrier, the feed
state's readers, the clip directory and its pins, the break table by number, the stream map. -/

namespace Sys2Proof
namespace Machine

/-- What a meaning answers. -/
abbrev Answer := Host.Outcome State Fault Refusal

/-- A command while the part runs: its effect. While the part is in reset it takes no input (R200), so nothing changes. -/
def ifRunning (s : State) (f : State → State) : Answer :=
  match s.inReset with
  | none => .next (f s)
  | some _ => .next s

/-! ## Notices (R186, R187) -/

/-- A notice joins the tail of a role's queue, or is lost and counted when the queue holds 32 (R186). -/
def RolePort.push (p : RolePort) (n : Notice) : RolePort :=
  if p.notices.length < Config.noticePlaces then { p with notices := p.notices ++ [n] }
  else { p with counters := { p.counters with noticesLost := bump p.counters.noticesLost } }

/-- A role's port replaced. -/
def State.setPort (s : State) (r : Role) (p : RolePort) : State :=
  s.setMgp { s.mgp with ports := s.mgp.ports.set r p }

/-- A notice raised to one role, with the site time as it stands (R186). -/
def State.raiseTo (s : State) (r : Role) (kind : NoticeKind) (subject : Subject) (detail : Detail) : State :=
  s.setPort r ((s.mgp.ports.get r).push { kind := kind, subject := subject, detail := detail, time := s.tbu.time })

/-- A notice raised to the site role. -/
def State.raiseSite (s : State) (kind : NoticeKind) (subject : Subject) (detail : Detail) : State :=
  s.raiseTo .site kind subject detail

/-- A notice raised to both roles. -/
def State.raiseBoth (s : State) (kind : NoticeKind) (subject : Subject) (detail : Detail) : State :=
  (s.raiseTo .insertion kind subject detail).raiseTo .site kind subject detail

/-- A role's alert line is asserted exactly while the part runs and the role's queue is not empty (R188). -/
def State.alert (s : State) (r : Role) : Bool :=
  s.inReset.isNone && !(s.mgp.ports.get r).notices.isEmpty

/-! ## Mute reasons and the carrier (R57 to R60) -/

/-- The five mute reasons. -/
inductive MuteReason where
  | timing
  | feed
  | network
  | site
  | schedule
deriving DecidableEq, Repr

/-- Whether a reason is present. -/
def MuteReasons.has (m : MuteReasons) : MuteReason → Bool
  | .timing => m.timing
  | .feed => m.feed
  | .network => m.network
  | .site => m.site
  | .schedule => m.schedule

/-- The set with one reason set or cleared. -/
def MuteReasons.put (m : MuteReasons) (r : MuteReason) (b : Bool) : MuteReasons :=
  match r with
  | .timing => { m with timing := b }
  | .feed => { m with feed := b }
  | .network => { m with network := b }
  | .site => { m with site := b }
  | .schedule => { m with schedule := b }

/-- At least one reason is present. -/
def MuteReasons.any (m : MuteReasons) : Bool := m.timing || m.feed || m.network || m.site || m.schedule

/-- The empty set of reasons, the detail of a release (R60). -/
def MuteReasons.empty : MuteReasons :=
  { timing := false, feed := false, network := false, site := false, schedule := false }

/-- A packet is being driven: it has begun and its 188th byte has not been sent (R56). -/
def Esc.driving (e : Esc) : Bool :=
  match e.port with
  | some d => decide (d.sent < Config.packetBytes)
  | none => false

/-- EVALID: high from the first byte of a driven packet to its last (R56). -/
def Esc.evalid (e : Esc) : Bool := e.driving

/-- ESTART: high with the first byte only (R56). -/
def Esc.estart (e : Esc) : Bool :=
  match e.port with
  | some d => decide (d.sent = 0)
  | none => false

/-- ED0 to ED7: the byte of the driven packet that this cycle presents, low between packets, after a cut-off and in reset
(R56). -/
def Esc.ed (e : Esc) : Byte :=
  match e.port with
  | some d => if e.driving then byteAt d.packet (d.sent + 1) else 0
  | none => 0

/-- CARINH asserted: the packet being driven is cut off and counted (R56, R60). -/
def Esc.cutOff (e : Esc) : Esc :=
  { e with
    carinh := .asserted
    port := none
    counters := { e.counters with
      carrierCutoffs := if e.driving then bump e.counters.carrierCutoffs else e.counters.carrierCutoffs } }

/-- A mute reason set or cleared, with its effect on CARINH (R57, R60). -/
def State.setMute (s : State) (r : MuteReason) (b : Bool) : State :=
  if s.esc.mute.has r = b then s
  else
    let mute := s.esc.mute.put r b
    let esc := { s.esc with mute := mute }
    if mute.any then
      match s.esc.carinh with
      | .released => (s.setEsc esc.cutOff).raiseSite .carrierState .none (.mute mute)
      | .pending => s.setEsc { esc with carinh := .asserted }
      | .asserted => s.setEsc esc
    else
      match s.esc.carinh with
      | .asserted => s.setEsc { esc with carinh := .pending }
      | .pending => s.setEsc esc
      | .released => s.setEsc esc

/-- A slot instant or fill instant: a pending release takes place, and CARRIER-STATE is raised (R60). -/
def State.carrierInstant (s : State) : State :=
  match s.esc.carinh with
  | .pending => (s.setEsc { s.esc with carinh := .released }).raiseSite .carrierState .none (.mute .empty)
  | .released => s
  | .asserted => s

/-- A packet driven on the port from its instant on, where CARINH is released (R54, R56, R65). -/
def State.drive (s : State) (instant : SiteTime) (packet : List Byte) : State :=
  match s.esc.carinh with
  | .released => s.setEsc { s.esc with port := some ⟨packet, 0⟩, lastDriven := some instant }
  | .pending => s
  | .asserted => s

/-! ## Emission-fit (R9) -/

/-- The emission-fit signal: true in LOCKED and HOLDOVER (R9). -/
def DisciplineState.fit : DisciplineState → Bool
  | .locked => true
  | .holdover => true
  | .unset => false
  | .acquiring => false
  | .expired => false

/-- The holdover cause that TIME-STATE carries: with HOLDOVER, and with EXPIRED when the entry to HOLDOVER passed straight
to it (R21). -/
def Tbu.noticeCause (t : Tbu) (old : DisciplineState) : Option HoldoverCause :=
  match t.state with
  | .holdover => t.cause
  | .expired => if old = .holdover then none else t.cause
  | .unset => none
  | .acquiring => none
  | .locked => none

/-- After an event of the TBU: at a change of its state the TIME-STATE notice (R21) and then the TIMING reason (R57). `old`
is the state before the event. -/
def State.afterTbu (s : State) (old : DisciplineState) : State :=
  if s.tbu.state = old then s
  else (s.raiseSite .timeState .none (.time s.tbu.state (s.tbu.noticeCause old))).setMute .timing (!s.tbu.state.fit)

/-! ## The stream map (R35) -/

/-- The class of a stream id in the map, none where it is not listed. -/
def streamClass? (map : List MapEntry) (stream : Nat) : Option StreamClass :=
  (map.find? (fun e => e.stream == stream)).map (·.cls)

/-- The service whose SERVICE stream a stream id is. -/
def serviceOf? (map : List MapEntry) (stream : Nat) : Option Service :=
  match streamClass? map stream with
  | some (.service v _) => some v
  | some .carry => none
  | some .drop => none
  | none => none

/-- The stream id is the SERVICE stream of `v` that holds the clock flag. -/
def isClockStream (map : List MapEntry) (stream : Nat) (v : Service) : Bool :=
  streamClass? map stream == some (.service v true)

/-! ## The clip directory (R115) and pins (R129) -/

/-- The position and clip with an id: the clip is in the directory (R115). -/
def findClip? (dir : List (Nat × Clip)) (id : Word32) : Option (Nat × Clip) :=
  dir.find? (fun c => c.2.id == id)

/-- The clip at a position. -/
def clipAt? (dir : List (Nat × Clip)) (position : Nat) : Option Clip :=
  (dir.find? (fun c => c.1 == position)).map (·.2)

/-- The directory with the clip at a position changed. -/
def mapClipAt (dir : List (Nat × Clip)) (position : Nat) (f : Clip → Clip) : List (Nat × Clip) :=
  dir.map (fun c => if c.1 = position then (c.1, f c.2) else c)

/-- The directory with the clip of an id changed. -/
def mapClipId (dir : List (Nat × Clip)) (id : Word32) (f : Clip → Clip) : List (Nat × Clip) :=
  dir.map (fun c => if c.2.id = id then (c.1, f c.2) else c)

/-- One pin more on the clip with an id (R129). -/
def State.addPin (s : State) (id : Word32) : State :=
  s.setCsc { s.csc with directory := mapClipId s.csc.directory id (fun c => { c with pins := c.pins + 1 }) }

/-- One pin less on the clip with an id (R129). -/
def State.dropPin (s : State) (id : Word32) : State :=
  s.setCsc { s.csc with directory := mapClipId s.csc.directory id (fun c => { c with pins := c.pins - 1 }) }

/-- One pin more for each occurrence in a list (R103). -/
def State.addPins (s : State) (ids : List Word32) : State := ids.foldl State.addPin s

/-- One pin less for each occurrence in a list (R103). -/
def State.dropPins (s : State) (ids : List Word32) : State := ids.foldl State.dropPin s

/-! ## The break table (R82) -/

/-- A finished entry (R84). -/
def BreakState.finished : BreakState → Bool
  | .ended => true
  | .cancelled => true
  | .announced => false
  | .booked => false
  | .armed => false
  | .fallback => false
  | .active => false

/-- The entry with a break number. -/
def State.findBreak? (s : State) (n : Word16) : Option BreakEntry :=
  s.bpu.table.find? (fun e => e.number == n)

/-- The table with the entry of a break number changed in place. -/
def State.updateBreak (s : State) (n : Word16) (f : BreakEntry → BreakEntry) : State :=
  s.setBpu { s.bpu with table := s.bpu.table.map (fun e => if e.number = n then f e else e) }

/-- The BPU's counters changed. -/
def State.countBpu (s : State) (f : BpuCounters → BpuCounters) : State :=
  s.setBpu { s.bpu with counters := f s.bpu.counters }

/-- The clips of an entry's booking, none where it has no booking. -/
def BreakEntry.clips (e : BreakEntry) : List Word32 :=
  match e.booking with
  | some b => b.clips
  | none => []

/-- The clips whose pins the entry's booking holds: those of BOOKED, ARMED and ACTIVE (R103). -/
def BreakEntry.pinned (e : BreakEntry) : List Word32 :=
  match e.state with
  | .booked => e.clips
  | .armed => e.clips
  | .active => e.clips
  | .announced => []
  | .fallback => []
  | .ended => []
  | .cancelled => []

/-- An entry becomes finished with an outcome: its closure and window-open mark are cleared, the pins it holds are
released, and BREAK-ENDED is raised to both roles (R91, R105, R107, R111). -/
def State.finishBreak (s : State) (e : BreakEntry) (state : BreakState) (o : BreakOutcome) : State :=
  let s1 := s.updateBreak e.number (fun x =>
    { x with state := state, outcome := some o, closure := none, windowOpen := false })
  (s1.dropPins e.pinned).raiseBoth .breakEnded (.breakNumber e.number) (.ended o)

/-! ## The Splice Engine's services (R151) -/

/-- A service's part of the Splice Engine changed. -/
def State.updateService (s : State) (v : Service) (f : ServiceState → ServiceState) : State :=
  s.setSpe { s.spe with services := s.spe.services.set v (f (s.spe.services.get v)) }

/-- A service's source (R151). -/
def ServiceState.source (x : ServiceState) : Source :=
  match x.slate with
  | some _ => .slate
  | none =>
    match x.window with
    | .none => .programme
    | .clip _ => .clip
    | .blank _ => .blank

/-- The SPE's counters changed. -/
def State.countSpe (s : State) (f : SpeCounters → SpeCounters) : State :=
  s.setSpe { s.spe with counters := f s.spe.counters }

/-- The returning mark set on every continuity entry whose stream is a SERVICE stream of `v` in the map (R162). -/
def State.markReturning (s : State) (v : Service) : State :=
  s.setSpe { s.spe with
    continuity := s.spe.continuity.map (fun c =>
      if serviceOf? s.sst.live.map c.stream = some v then { c with returning := true } else c) }

/-! ## Counters of the other blocks -/

def State.countTbu (s : State) (f : TbuCounters → TbuCounters) : State :=
  s.setTbu { s.tbu with counters := f s.tbu.counters }

def State.countFiu (s : State) (f : FiuCounters → FiuCounters) : State :=
  s.setFiu { s.fiu with counters := f s.fiu.counters }

def State.countEsc (s : State) (f : EscCounters → EscCounters) : State :=
  s.setEsc { s.esc with counters := f s.esc.counters }

def State.countDdc (s : State) (f : DdcCounters → DdcCounters) : State :=
  s.setDdc { s.ddc with counters := f s.ddc.counters }

def State.countCsc (s : State) (f : CscCounters → CscCounters) : State :=
  s.setCsc { s.csc with counters := f s.csc.counters }

/-! ## The arbiter (R131) -/

/-- What the arbiter takes next. -/
inductive Grant where
  | ringRead
  | clipRead
  | feedWrite
  | loadWrite
deriving DecidableEq, Repr

/-- A load write waits (R131). -/
def Csc.loadWaiting (c : Csc) : Bool :=
  match c.load with
  | some l => !l.buffer.isEmpty
  | none => false

/-- The arbiter's choice while the memory is free, by the four rules of R131 in order. -/
def State.grant? (s : State) : Option Grant :=
  match s.csc.taken with
  | some _ => none
  | none =>
    match s.csc.reads with
    | .ring _ _ :: _ => some .ringRead
    | .clip _ _ _ _ _ _ :: _ => some .clipRead
    | [] =>
      if 8 ≤ s.fiu.writeBuffer.length then some .feedWrite
      else if s.fiu.writeBuffer ≠ [] ∧ s.csc.loadWaiting then
        (match s.csc.marker with
        | .feed => some .loadWrite
        | .load => some .feedWrite)
      else if s.fiu.writeBuffer ≠ [] then some .feedWrite
      else if s.csc.loadWaiting then some .loadWrite
      else none

end Machine
end Sys2Proof
end

