-- ==== Sys2Proof/Machine/Result.lean ====
section
/-! DEFINITION. How the Management Port takes a command or another write from a role and records its outcome
(R177, R182 to R184). -/

namespace Sys2Proof
namespace Machine

/-- What the owner of a command or object answers (R182): the state after, the result, the return value's first bytes. -/
structure Taken where
  state : State
  code : ResultCode
  value : List Byte := []

/-- The commands of R182's table, in its order. -/
inductive CommandKind where
  | reserve
  | confirm
  | discard
  | findBreak
  | openLoad
  | abortLoad
  | retireClip
  | clearBooking
  | forceSlate
  | releaseSlate
  | forceMute
  | releaseMute
  | saveSettings
  | streamRestart
  | clearCounters
deriving DecidableEq, Repr

/-- A command's code: its row in R182's table, counting from 1 (R201). -/
def CommandKind.code : CommandKind → Nat
  | .reserve => 1
  | .confirm => 2
  | .discard => 3
  | .findBreak => 4
  | .openLoad => 5
  | .abortLoad => 6
  | .retireClip => 7
  | .clearBooking => 8
  | .forceSlate => 9
  | .releaseSlate => 10
  | .forceMute => 11
  | .releaseMute => 12
  | .saveSettings => 13
  | .streamRestart => 14
  | .clearCounters => 15

/-- The command of a code. -/
def CommandKind.ofCode? : Nat → Option CommandKind
  | 1 => some .reserve
  | 2 => some .confirm
  | 3 => some .discard
  | 4 => some .findBreak
  | 5 => some .openLoad
  | 6 => some .abortLoad
  | 7 => some .retireClip
  | 8 => some .clearBooking
  | 9 => some .forceSlate
  | 10 => some .releaseSlate
  | 11 => some .forceMute
  | 12 => some .releaseMute
  | 13 => some .saveSettings
  | 14 => some .streamRestart
  | 15 => some .clearCounters
  | _ => none

/-- The table gives the command to the site role alone (R182). -/
def CommandKind.siteOnly : CommandKind → Bool
  | .reserve => false
  | .confirm => false
  | .discard => false
  | .findBreak => false
  | .openLoad => false
  | .abortLoad => false
  | .retireClip => false
  | .clearBooking => true
  | .forceSlate => true
  | .releaseSlate => true
  | .forceMute => true
  | .releaseMute => true
  | .saveSettings => true
  | .streamRestart => true
  | .clearCounters => true

/-- The bytes of the command's arguments (R182, R204). -/
def CommandKind.argBytes : CommandKind → Nat
  | .reserve => 2
  | .confirm => 0
  | .discard => 0
  | .findBreak => 2
  | .openLoad => 13
  | .abortLoad => 4
  | .retireClip => 4
  | .clearBooking => 2
  | .forceSlate => 5
  | .releaseSlate => 1
  | .forceMute => 0
  | .releaseMute => 0
  | .saveSettings => 0
  | .streamRestart => 0
  | .clearCounters => 0

/-- A role's port changed. -/
def State.updatePort (s : State) (r : Role) (f : RolePort → RolePort) : State := s.setPort r (f (s.mgp.ports.get r))

/-- A role's MGP counters changed. -/
def State.countPort (s : State) (r : Role) (f : MgpCounters → MgpCounters) : State :=
  s.updatePort r (fun p => { p with counters := f p.counters })

/-- An outcome recorded in a role's result object, with the next command sequence (R183). -/
def State.record (s : State) (r : Role) (echo : Nat) (code : ResultCode) (value : List Byte) : State :=
  s.updatePort r (fun p =>
    { p with result := { echo := some (BitVec.ofNat 16 echo), code := code, seq := p.result.seq + 1, value := padTo 8 value } })

/-- The role's save hold stands (R184). -/
def State.held (s : State) (r : Role) : Bool := (s.mgp.ports.get r).hold

/-- A write phase refused under the save hold: counted, not recorded (R184). -/
def State.refuseHeld (s : State) (r : Role) : State :=
  s.countPort r (fun c => { c with refusedDuringSave := bump c.refusedDuringSave })

/-- A write or command refused RIGHTS: counted and recorded (R177, R182). -/
def State.refuseRights (s : State) (r : Role) (echo : Nat) : State :=
  (s.countPort r (fun c => { c with rightsRefusals := bump c.rightsRefusals })).record r echo .rights []

/-- A command is handled (R182): the save hold first (R184), then the role's right, then the owner, whose result is
recorded. The command object holds a command that is taken. -/
def State.takeCommand (s : State) (r : Role) (kind : CommandKind) (args : List Byte) (owner : State → Taken) : State :=
  if s.held r then s.refuseHeld r
  else if kind.siteOnly ∧ r = .insertion then s.refuseRights r kind.code
  else
    let s1 := s.updatePort r (fun p => { p with command := some (BitVec.ofNat 8 kind.code :: args) })
    let t := owner s1
    t.state.record r kind.code t.code t.value

/-- A write of another object is taken (R177): the save hold, the role's right, the owner, whose result is recorded with the
object number as the echo. -/
def State.takeWrite (s : State) (r : Role) (object : Nat) (siteOnly : Bool) (owner : State → Taken) : State :=
  if s.held r then s.refuseHeld r
  else if siteOnly = true ∧ r = .insertion then s.refuseRights r object
  else
    let t := owner s
    t.state.record r object t.code t.value

end Machine
end Sys2Proof
end

