-- ==== Sys2Proof/Machine/BreakPlan.lean ====
section
/-! DEFINITION. The Break Plan Unit: the break table, notices and revisions, cancels and returns, the booking exchange, and
the eligibility evaluation (05_the_break_plan.md, 07_insertion_eligibility_and_area_agreement.md). -/

namespace Sys2Proof
namespace Machine

/-! ## The table -/

/-- The order of the table: by start, then by break number (R82). -/
def BreakEntry.comesBefore (a b : BreakEntry) : Bool :=
  a.start.before b.start || (a.start == b.start && decide (a.number.toNat < b.number.toNat))

/-- An entry placed in the table's order (R82). -/
def insertBreak (e : BreakEntry) : List BreakEntry → List BreakEntry
  | [] => [e]
  | x :: rest => if e.comesBefore x then e :: x :: rest else x :: insertBreak e rest

/-- The entry with the break number `n` taken out. -/
def removeBreak (table : List BreakEntry) (n : Word16) : List BreakEntry :=
  table.filter (fun e => e.number ≠ n)

/-- Two windows overlap when each begins before the other ends (R82). -/
def overlaps (aStart aFinish bStart bFinish : SiteTime) : Bool := aStart.before bFinish && bStart.before aFinish

/-- An unfinished entry of the service other than break `n` has a window that overlaps the given one (R86, R88). -/
def overlapsOther (table : List BreakEntry) (n : Word16) (v : Service) (start finish : SiteTime) : Bool :=
  table.any (fun e =>
    decide (e.number ≠ n) && !e.state.finished && decide (e.service = v) && overlaps start finish e.start e.finish)

/-- The arm time of a start: the arm lead earlier (R85). -/
def armTimeOf (x : Settings) (start : SiteTime) : SiteTime :=
  start.add (-((x.armLead * Config.ticksPerMs : Nat) : Int))

/-! ## The eligibility evaluation (R138 to R145) -/

/-- CLIP-NOT-READY: a clip of the booking is absent, not READY, or of another service (R140). -/
def clipNotReady (dir : List (Nat × Clip)) (v : Service) (ids : List Word32) : Bool :=
  ids.any (fun id =>
    match findClip? dir id with
    | some c => decide (c.2.state ≠ .ready) || decide (c.2.service ≠ v)
    | none => true)

/-- STREAM-MISMATCH: a stream of a booked clip is not a SERVICE stream of the service in the map (R142). -/
def streamMismatch (map : List MapEntry) (dir : List (Nat × Clip)) (v : Service) (ids : List Word32) : Bool :=
  ids.any (fun id =>
    match findClip? dir id with
    | some c => c.2.streams.any (fun sid => decide (serviceOf? map sid ≠ some v))
    | none => false)

/-- PLAN-MISMATCH: the entry has a plan fingerprint that differs from the booking's combined fingerprint (R141). -/
def planMismatch (e : BreakEntry) : Bool :=
  match e.plan, e.booking with
  | some p, some b => decide (p ≠ b.combined)
  | some _, none => false
  | none, some _ => false
  | none, none => false

/-- The reasons of R139 in order, each with whether its condition holds. -/
def fallbackTests (s : State) (e : BreakEntry) : List (FallbackReason × Bool) :=
  [(.noBooking, e.booking.isNone),
   (.clipNotReady, clipNotReady s.csc.directory e.service e.clips),
   (.planMismatch, planMismatch e),
   (.streamMismatch, streamMismatch s.sst.live.map s.csc.directory e.service e.clips),
   (.noClock, (s.spe.services.get e.service).tracker.isNone),
   (.notRunning, !s.esc.running),
   (.timing, !s.tbu.state.fit)]

/-- The first reason whose condition holds, none for an entry that passes (R139). -/
def fallbackReason? (s : State) (e : BreakEntry) : Option FallbackReason :=
  ((fallbackTests s e).find? (·.2)).map (·.1)

/-- An entry that fails: FALLBACK with its reason, its pins released, BREAK-FALLBACK to both roles (R145). -/
def State.fallBack (s : State) (e : BreakEntry) (why : FallbackReason) : State :=
  ((s.updateBreak e.number (fun x => { x with state := .fallback, reason := some why })).dropPins e.pinned).raiseBoth
    .breakFallback (.breakNumber e.number) (.reason why)

/-- An entry that passes: ARMED, its pins kept, BREAK-ARMED to both roles (R145). -/
def State.armBreak (s : State) (e : BreakEntry) : State :=
  (s.updateBreak e.number (fun x => { x with state := .armed })).raiseBoth .breakArmed (.breakNumber e.number) .none

/-- The evaluation of the entry with a break number (R138, R139). -/
def State.evaluate (s : State) (n : Word16) : State :=
  match s.findBreak? n with
  | some e =>
    match fallbackReason? s e with
    | some why => s.fallBack e why
    | none => s.armBreak e
  | none => s

/-! ## Arm times and ends (R104, R105) -/

/-- Reaching its arm time acts on an ANNOUNCED or BOOKED entry (R85). -/
def BreakState.awaitsArming : BreakState → Bool
  | .announced => true
  | .booked => true
  | .armed => false
  | .fallback => false
  | .active => false
  | .ended => false
  | .cancelled => false

/-- The arm time of the entry has been reached and is still to act (R85). An entry that a revision returned from ARMED to
BOOKED is judged by site time as it stands, also where a backward step has carried site time back before an arm time that it
once reached, which is the model's choice (log 35). -/
def State.armDue (s : State) (e : BreakEntry) : Bool := e.state.awaitsArming && s.tbu.time.reached e.arm

/-- Reaching its end acts on an ARMED entry and on a FALLBACK entry whose window is not open (R85, R105). -/
def BreakEntry.endActs (e : BreakEntry) : Bool :=
  decide (e.state = .armed) || (decide (e.state = .fallback) && !e.windowOpen)

/-- The end of the entry has been reached and is still to act (R85). -/
def State.endDue (s : State) (e : BreakEntry) : Bool := e.endActs && s.tbu.time.reached e.finish

/-- The outcome of a FALLBACK entry whose window did not open (R105). -/
def Policy.outcome : Policy → BreakOutcome
  | .carry => .fallbackCarry
  | .blank => .fallbackBlank

/-- The end of an entry acts on its state (R105). -/
def State.endBreak (s : State) (e : BreakEntry) : State :=
  if e.state = .armed then
    (s.countBpu (fun c => { c with missedBreaks := bump c.missedBreaks })).finishBreak e .ended .missed
  else s.finishBreak e .ended e.policy.outcome

/-- The end of the entry with a break number acts if it is due. -/
def State.reachEnd (s : State) (n : Word16) : State :=
  match s.findBreak? n with
  | some e => if s.endDue e then s.endBreak e else s
  | none => s

/-- The arm time of the entry with a break number acts if it is due. -/
def State.reachArm (s : State) (n : Word16) : State :=
  match s.findBreak? n with
  | some e => if s.armDue e then s.evaluate n else s
  | none => s

/-- ARM_TIME_REACHED (R104). -/
def execArmTimeReached (n : Word16) (s : State) : Answer := ifRunning s (·.reachArm n)

/-- END_REACHED (R105). -/
def execEndReached (n : Word16) (s : State) : Answer := ifRunning s (·.reachEnd n)

/-! ## Notices from the network (R86 to R90) -/

/-- A break notice as delivered (R74). -/
structure NoticeFields where
  number : Word16
  service : Service
  area : Byte
  start : Option SiteTime
  finish : Option SiteTime
  plan : Option Word32
  policy : Option Policy
deriving DecidableEq, Repr

/-- A notice refused by the BPU: counted, and NOTICE-REFUSED raised to the site role (R86, R88). -/
def State.refuseNotice (s : State) (n : Word16) (why : NoticeRefusal) : State :=
  (s.countBpu (fun c => { c with noticesRefused := bump c.noticesRefused })).raiseSite
    .noticeRefused (.breakNumber n) (.refusal why)

/-- Of two finished entries the one removed first: the earlier end, then the lower number (R87). -/
def earlierEnd (a b : BreakEntry) : BreakEntry :=
  if b.finish.before a.finish then b
  else if b.finish = a.finish ∧ b.number.toNat < a.number.toNat then b
  else a

/-- The finished entry that makes room (R87). -/
def victim? (table : List BreakEntry) : Option BreakEntry :=
  (table.filter (·.state.finished)).foldl (fun acc e => some (match acc with | some a => earlierEnd a e | none => e)) none

/-- A held reservation on a removed entry becomes orphaned (R87). -/
def Staging.orphan (st : Staging) (n : Word16) : Staging :=
  match st.reservation with
  | .held m _ => if m = n then { st with reservation := .orphaned n } else st
  | .none => st
  | .orphaned _ => st

/-- A finished entry is removed to make room (R87). -/
def State.reuseEntry (s : State) (n : Word16) : State :=
  s.setBpu { s.bpu with
    table := removeBreak s.bpu.table n
    staging := ⟨s.bpu.staging.insertion.orphan n, s.bpu.staging.site.orphan n⟩ }

/-- The entry a first notice makes, with the values of R83; FALLBACK with reason LATE when its arm time has been reached
(R86). -/
def newEntry (s : State) (f : NoticeFields) (start finish : SiteTime) (policy : Policy) : BreakEntry :=
  let arm := armTimeOf s.sst.live start
  let late := s.tbu.time.reached arm
  { number := f.number
    service := f.service
    area := f.area
    start := start
    finish := finish
    arm := arm
    plan := f.plan
    policy := policy
    state := if late then .fallback else .announced
    reason := if late then some .late else none }

/-- A new entry joins the table: BREAK-ANNOUNCED, and BREAK-FALLBACK for one made in FALLBACK (R86). -/
def State.placeNew (s : State) (e : BreakEntry) : State :=
  let s1 := (s.setBpu { s.bpu with table := insertBreak e s.bpu.table }).raiseBoth
    .breakAnnounced (.breakNumber e.number) .none
  if e.state = .fallback then s1.raiseBoth .breakFallback (.breakNumber e.number) (.reason .late) else s1

/-- A notice for a number not in the table, with the three checks of R86 in order. -/
def State.newBreak (s : State) (f : NoticeFields) (start finish : SiteTime) (policy : Policy) : State :=
  if s.tbu.time.reached start then s.refuseNotice f.number .late
  else if overlapsOther s.bpu.table f.number f.service start finish then s.refuseNotice f.number .overlap
  else if s.bpu.table.length < Config.breakPlaces then s.placeNew (newEntry s f start finish policy)
  else
    match victim? s.bpu.table with
    | some v => (s.reuseEntry v.number).placeNew (newEntry s f start finish policy)
    | none => s.refuseNotice f.number .planFull

/-- What the present fields of a notice make of an entry outside ACTIVE: they overlay it, a changed start moves the arm
time (R85, R89, R90), and an ARMED entry whose start or plan fingerprint changes returns to BOOKED with its arm time
computed anew (R89). -/
def BreakEntry.overlay (e : BreakEntry) (x : Settings) (f : NoticeFields) : BreakEntry :=
  let start := f.start.getD e.start
  let plan := match f.plan with | some p => some p | none => e.plan
  let rearmed := decide (e.state = .armed) && (decide (start ≠ e.start) || decide (plan ≠ e.plan))
  { e with
    start := start
    finish := f.finish.getD e.finish
    area := f.area
    plan := plan
    policy := f.policy.getD e.policy
    arm := if start ≠ e.start ∨ rearmed = true then armTimeOf x start else e.arm
    state := if rearmed then .booked else e.state }

/-- What a notice makes of an ACTIVE entry: only end and area are applied (R90). -/
def BreakEntry.overlayActive (e : BreakEntry) (f : NoticeFields) : BreakEntry :=
  { e with finish := f.finish.getD e.finish, area := f.area }

/-- A notice presents a start, plan fingerprint or policy that differs from an ACTIVE entry's (R90). -/
def BreakEntry.lateFields (e : BreakEntry) (f : NoticeFields) : Bool :=
  decide (f.start.getD e.start ≠ e.start) || decide (f.policy.getD e.policy ≠ e.policy)
    || (match f.plan with | some p => decide (some p ≠ e.plan) | none => false)

/-- Some field that counts as content differs (R84). -/
def contentDiffers (a b : BreakEntry) : Bool :=
  decide (a.start ≠ b.start) || decide (a.finish ≠ b.finish) || decide (a.plan ≠ b.plan)
    || decide (a.policy ≠ b.policy) || decide (a.area ≠ b.area)

/-- The pending closure SHORTENED, where none is pending (R93). -/
def BreakEntry.shorten (e : BreakEntry) : BreakEntry :=
  match e.closure with
  | none => { e with closure := some .shortened }
  | some _ => e

/-- The current fetch instant has reached a time (R90). -/
def State.fetchReached (s : State) (t : SiteTime) : Bool :=
  match s.spe.fetchInstant with
  | some i => i.reached t
  | none => false

/-- An entry with changed content takes its place, raising BREAK-REVISED with the new revision (R88). -/
def State.installRevision (s : State) (old new : BreakEntry) : State :=
  let e := { new with revision := old.revision + 1 }
  let table :=
    if e.start = old.start then s.bpu.table.map (fun x => if x.number = e.number then e else x)
    else insertBreak e (removeBreak s.bpu.table e.number)
  (s.setBpu { s.bpu with table := table }).raiseBoth .breakRevised (.breakNumber e.number) (.revision e.revision)

/-- What follows a revision: an arm time already reached is taken, then an end already reached, and an open window whose new
end lies at or before the current fetch instant is shortened (R85, R89, R90). `old` is the entry before. -/
def State.afterRevision (s : State) (old new : BreakEntry) : State :=
  if old.state = .active ∨ (old.state = .fallback ∧ old.windowOpen = true) then
    if new.finish ≠ old.finish ∧ s.fetchReached new.finish = true then s.updateBreak new.number BreakEntry.shorten else s
  else
    let moved := decide (new.arm ≠ old.arm) || decide (new.state ≠ old.state)
    let s1 := if moved then s.reachArm new.number else s
    if moved || decide (new.finish ≠ old.finish) then s1.reachEnd new.number else s1

/-- A notice for an entry of the table, judged in the order of R88 and applied as R89 and R90 state. -/
def State.revise (s : State) (e : BreakEntry) (f : NoticeFields) : State :=
  let start := f.start.getD e.start
  let finish := f.finish.getD e.finish
  let windowStart := if e.state = .active then e.start else start
  let early := decide (e.state = .announced) || decide (e.state = .booked) || decide (e.state = .armed)
  if e.state.finished then s
  else if f.service ≠ e.service then s.refuseNotice f.number .invalid
  else if start.before finish = false then s.refuseNotice f.number .invalid
  else if early && decide (start ≠ e.start) && s.tbu.time.reached start then s.refuseNotice f.number .late
  else if overlapsOther s.bpu.table e.number e.service windowStart finish then s.refuseNotice f.number .overlap
  else
    let new := if e.state = .active then e.overlayActive f else e.overlay s.sst.live f
    let s0 := if decide (e.state = .active) && e.lateFields f then
        s.countBpu (fun c => { c with lateRevisions := bump c.lateRevisions })
      else s
    if contentDiffers new e then (s0.installRevision e new).afterRevision e new else s0

/-- A break notice delivered by the DDC (R86, R88). A first notice carries start, end and policy (R75). -/
def State.takeNotice (s : State) (f : NoticeFields) : State :=
  match s.findBreak? f.number with
  | some e => s.revise e f
  | none =>
    match f.start, f.finish, f.policy with
    | some start, some finish, some policy => s.newBreak f start finish policy
    | some _, some _, none => s
    | some _, none, _ => s
    | none, _, _ => s

/-! ## Cancels and early return (R91, R92) -/

/-- A BREAK CANCEL (R91). -/
def State.takeCancel (s : State) (n : Word16) : State :=
  match s.findBreak? n with
  | none => s.countBpu (fun c => { c with unknownCancels := bump c.unknownCancels })
  | some e =>
    if e.state.finished then s
    else if e.state = .active ∨ (e.state = .fallback ∧ e.windowOpen = true) then
      s.updateBreak n (fun x => { x with closure := some .cancelled })
    else s.finishBreak e .cancelled .cancelled

/-- The entry of a service with a window to close: ACTIVE, or else FALLBACK with its window open (R92). -/
def openEntry? (table : List BreakEntry) (v : Service) : Option BreakEntry :=
  match table.find? (fun e => decide (e.service = v) && decide (e.state = .active)) with
  | some e => some e
  | none => table.find? (fun e => decide (e.service = v) && decide (e.state = .fallback) && e.windowOpen)

/-- A RETURN NOW (R92). -/
def State.takeReturn (s : State) (v : Service) : State :=
  match openEntry? s.bpu.table v with
  | some e => s.updateBreak e.number BreakEntry.shorten
  | none => s.countBpu (fun c => { c with returnsIgnored := bump c.returnsIgnored })

/-! ## Staging (R94, R95) -/

/-- The bytes of a staging field by its code (R95, R205). -/
def stagingWidth (code : Nat) : Nat := if code = 1 then 1 else 4

/-- A staged field takes a value and its mark. -/
def Staging.put (st : Staging) (code : Nat) (bytes : List Byte) : Staging :=
  if code = 0 then { st with reference := ⟨BitVec.ofNat 32 (ofBytes bytes), true⟩ }
  else if code = 1 then { st with length := ⟨BitVec.ofNat 8 (ofBytes bytes), true⟩ }
  else { st with positions := st.positions.set (code - 2) ⟨BitVec.ofNat 32 (ofBytes bytes), true⟩ }

/-- The fields of a staging write, each taken when all its bytes are present (R95). -/
def Staging.takeFields (st : Staging) : List Nat → List Byte → Staging
  | [], _ => st
  | code :: codes, bytes =>
    if stagingWidth code ≤ bytes.length then
      Staging.takeFields (st.put code (bytes.take (stagingWidth code))) codes (bytes.drop (stagingWidth code))
    else st

/-- The bytes of the fields from a first field to position 8; at most 37 for a code that names no field (R204). -/
def stagingForm (first : Nat) : Nat :=
  if first = 0 then 37 else if first = 1 then 33 else if first ≤ 9 then 4 * (10 - first) else 37

/-- A role's staging record changed. -/
def State.updateStaging (s : State) (r : Role) (f : Staging → Staging) : State :=
  s.setBpu { s.bpu with staging := s.bpu.staging.set r (f (s.bpu.staging.get r)) }

/-- A staging write at its owner (R95, R205). -/
def ownStaging (r : Role) (first : Byte) (data : List Byte) (s : State) : Taken :=
  if 9 < first.toNat then { state := s, code := .invalid }
  else
    { state := s.updateStaging r (fun st => st.takeFields ((List.range 10).drop first.toNat) data), code := .done }

/-- A staging write at the MGP: bytes beyond the write form are counted once (R177). -/
def State.stagingWrite (s : State) (r : Role) (first : Byte) (data : List Byte) : State :=
  let s1 :=
    if s.held r = false ∧ stagingForm first.toNat < data.length then
      s.countPort r (fun c => { c with overlongWrites := bump c.overlongWrites })
    else s
  s1.takeWrite r 0x0010 false (ownStaging r first data)

/-- STAGING_WRITE (R95). -/
def execStagingWrite (r : Role) (first : Byte) (data : List Byte) (s : State) : Answer :=
  ifRunning s (·.stagingWrite r first data)

/-! ## The booking commands (R96 to R102) -/

/-- RESERVE at its owner (R96). -/
def ownReserve (r : Role) (n : Word16) (s : State) : Taken :=
  match s.findBreak? n with
  | none => { state := s, code := .notFound }
  | some e =>
    if e.state.awaitsArming then
      { state := s.updateStaging r (fun st => { st with reservation := .held n e.revision })
        code := .done
        value := toBytes 2 e.revision.toNat }
    else { state := s, code := .state }

/-- RESERVE (R96). -/
def execReserve (r : Role) (n : Word16) (s : State) : Answer :=
  ifRunning s (·.takeCommand r .reserve (toBytes 2 n.toNat) (ownReserve r n))

/-- The length of the merged booking, none where it is absent (R98). -/
def mergedLength? (st : Staging) (b : Option Booking) : Option Nat :=
  if st.length.mark then some st.length.value.toNat else b.map (fun x => x.clips.length)

/-- The id at a place of the merged booking, counting from 0; none is a hole (R98). -/
def mergedAt? (st : Staging) (b : Option Booking) (i : Nat) : Option Word32 :=
  match st.positions[i]? with
  | some p => if p.mark then some p.value else (match b with | some x => x.clips[i]? | none => none)
  | none => none

/-- The merged booking reference (R98). -/
def mergedReference (st : Staging) (b : Option Booking) : Word32 :=
  if st.reference.mark then st.reference.value else (match b with | some x => x.reference | none => 0)

/-- Why one position of the merged booking fails, as the cause code of R201; none where it is good (R98). -/
def positionFault? (dir : List (Nat × Clip)) (v : Service) (id? : Option Word32) : Option Nat :=
  match id? with
  | none => some 2
  | some id =>
    match findClip? dir id with
    | none => some 3
    | some c => if c.2.state ≠ .ready then some 4 else if c.2.service ≠ v then some 5 else none

/-- The first failing position, from position `i` on, with its cause (R98). -/
def firstFault? (dir : List (Nat × Clip)) (v : Service) : Nat → List (Option Word32) → Option (Nat × Nat)
  | _, [] => none
  | i, id? :: rest =>
    match positionFault? dir v id? with
    | some c => some (i, c)
    | none => firstFault? dir v (i + 1) rest

/-- The merged list of a length, holes as none (R98). -/
def mergedList (st : Staging) (b : Option Booking) (length : Nat) : List (Option Word32) :=
  (List.range length).map (mergedAt? st b)

/-- Check 5 of R97: the failing position (0 for the length) and the cause, none for a valid merged booking (R98). -/
def mergeFault? (dir : List (Nat × Clip)) (v : Service) (st : Staging) (b : Option Booking) : Option (Nat × Nat) :=
  match mergedLength? st b with
  | none => some (0, 1)
  | some l => if l = 0 ∨ 8 < l then some (0, 1) else firstFault? dir v 1 (mergedList st b l)

/-- The clips of a merged booking that has no hole (R98). -/
def mergedClips (st : Staging) (b : Option Booking) : List Word32 :=
  match mergedLength? st b with
  | some l => (mergedList st b l).filterMap id
  | none => []

/-- The combined fingerprint over the clips' fingerprints in list order, four bytes each (R136). -/
def combinedFingerprint (dir : List (Nat × Clip)) (ids : List Word32) : Word32 :=
  crc32 (ids.flatMap (fun id =>
    match findClip? dir id with
    | some c => toBytes 4 c.2.computedFp.toNat
    | none => []))

/-- The reservation names the break: it is held on the entry with this number (R99). -/
def Reservation.holds (x : Reservation) (n : Word16) : Bool :=
  match x with
  | .held m _ => decide (m = n)
  | .none => false
  | .orphaned _ => false

/-- A confirm refused: counted, nothing else changed (R97). -/
def refuseConfirm (s : State) (code : ResultCode) (value : List Byte) : Taken :=
  { state := s.countBpu (fun c => { c with confirmsRefused := bump c.confirmsRefused }), code := code, value := value }

/-- A confirm that passes every check: the five steps of R99. -/
def State.installBooking (s : State) (r : Role) (e : BreakEntry) : State :=
  let st := s.bpu.staging.get r
  let clips := mergedClips st e.booking
  let booking : Booking :=
    { clips := clips, reference := mergedReference st e.booking, by_ := r,
      combined := combinedFingerprint s.csc.directory clips }
  let revision := e.revision + 1
  let broken := (s.bpu.staging.get (otherRole r)).reservation.holds e.number
  let s1 := (s.addPins clips).dropPins e.pinned
  let s2 := s1.updateBreak e.number (fun x => { x with booking := some booking, revision := revision, state := .booked })
  let s3 := s2.updateStaging r (fun _ => {})
  let s4 := if broken then s3.updateStaging (otherRole r) (fun t => { t with reservation := .none }) else s3
  let s5 := s4.countBpu (fun c => { c with bookingsConfirmed := bump c.bookingsConfirmed })
  let s6 := s5.raiseBoth .bookingConfirmed (.breakNumber e.number) (.booking booking.reference revision)
  if broken then s6.raiseTo (otherRole r) .reservationBroken (.breakNumber e.number) .none else s6

/-- CONFIRM at its owner, with the checks of R97 in order. -/
def ownConfirm (r : Role) (s : State) : Taken :=
  match (s.bpu.staging.get r).reservation with
  | .none => refuseConfirm s .none []
  | .orphaned _ => refuseConfirm s .notFound []
  | .held n rev =>
    match s.findBreak? n with
    | none => refuseConfirm s .notFound []
    | some e =>
      if e.revision ≠ rev then refuseConfirm s .stale []
      else if e.state.awaitsArming = false then refuseConfirm s .closed []
      else
        match mergeFault? s.csc.directory e.service (s.bpu.staging.get r) e.booking with
        | some (p, c) => refuseConfirm s .invalid [BitVec.ofNat 8 p, BitVec.ofNat 8 c]
        | none => { state := s.installBooking r e, code := .done, value := toBytes 2 (e.revision + 1).toNat }

/-- CONFIRM (R97). -/
def execConfirm (r : Role) (s : State) : Answer := ifRunning s (·.takeCommand r .confirm [] (ownConfirm r))

/-- DISCARD at its owner (R100). -/
def ownDiscard (r : Role) (s : State) : Taken := { state := s.updateStaging r (fun _ => {}), code := .done }

/-- DISCARD (R100). -/
def execDiscard (r : Role) (s : State) : Answer := ifRunning s (·.takeCommand r .discard [] (ownDiscard r))

/-- The code of a break state: its row in R84 (R201). -/
def BreakState.code : BreakState → Nat
  | .announced => 1
  | .booked => 2
  | .armed => 3
  | .fallback => 4
  | .active => 5
  | .ended => 6
  | .cancelled => 7

/-- The code of a booked-by role (R201). -/
def bookedByCode (b : Option Booking) : Nat :=
  match b with
  | some x => (match x.by_ with | .insertion => 1 | .site => 2)
  | none => 0

/-- An entry's position in the table, 1 for the first (R82). -/
def breakPosition (table : List BreakEntry) (n : Word16) : Nat := table.findIdx (fun e => e.number == n) + 1

/-- FIND BREAK at its owner (R101). -/
def ownFindBreak (n : Word16) (s : State) : Taken :=
  match s.findBreak? n with
  | none => { state := s, code := .notFound }
  | some e =>
    { state := s
      code := .done
      value := toBytes 1 (breakPosition s.bpu.table n) ++ toBytes 1 e.state.code ++ toBytes 2 e.revision.toNat
        ++ toBytes 1 (bookedByCode e.booking) }

/-- FIND_BREAK (R101). -/
def execFindBreak (r : Role) (n : Word16) (s : State) : Answer :=
  ifRunning s (·.takeCommand r .findBreak (toBytes 2 n.toNat) (ownFindBreak n))

/-- The booking removed, its pins released, the revision increased, BOOKING-CLEARED raised (R102). -/
def State.removeBooking (s : State) (e : BreakEntry) (state : BreakState) (reason : Option FallbackReason) : State :=
  ((s.updateBreak e.number (fun x =>
      { x with booking := none, state := state, reason := reason, revision := x.revision + 1 })).dropPins e.pinned).raiseBoth
    .bookingCleared (.breakNumber e.number) .none

/-- CLEAR BOOKING at its owner (R102). -/
def ownClearBooking (n : Word16) (s : State) : Taken :=
  match s.findBreak? n with
  | none => { state := s, code := .notFound }
  | some e =>
    if e.state = .booked then { state := s.removeBooking e .announced e.reason, code := .done }
    else if e.state = .armed then
      { state := (s.removeBooking e .fallback (some .noBooking)).raiseBoth .breakFallback (.breakNumber n) (.reason .noBooking)
        code := .done }
    else { state := s, code := .state }

/-- CLEAR_BOOKING (R102). -/
def execClearBooking (r : Role) (n : Word16) (s : State) : Answer :=
  ifRunning s (·.takeCommand r .clearBooking (toBytes 2 n.toNat) (ownClearBooking n))

end Machine
end Sys2Proof
end

