-- ==== Sys2Proof/Machine/Splice.lean ====
section
/-! DEFINITION. The Splice Engine: the hand-off of a slot, its completion at emission, and slate (08_splicing.md). -/

namespace Sys2Proof
namespace Machine

/-- What a completed ring read found (R52). -/
inductive SlotOutcome where
  | absent
  | void
  | memoryFault
  | valid (packet : List Byte) (info : SlotInfo)
deriving DecidableEq, Repr

/-! ## Closing (R156) -/

/-- The packets of a clip in the directory, 0 for a clip that is not there (no booking that is played names one, R146). -/
def storedPackets (dir : List (Nat × Clip)) (id : Word32) : Nat :=
  match findClip? dir id with
  | some c => c.2.stored
  | none => 0

/-- The packets of the clips from a list position on. -/
def packetsFrom (dir : List (Nat × Clip)) (ids : List Word32) : Nat :=
  ids.foldl (fun acc id => acc + storedPackets dir id) 0

/-- The overrun: the packets not yet placed, from the break play position to the end of the list (R156). -/
def overrunOf (dir : List (Nat × Clip)) (ids : List Word32) (x : ServiceState) : Nat :=
  packetsFrom dir (ids.drop (x.listPos - 1)) - x.packetPos

/-- The outcome of a splice-in (R107). -/
def spliceInOutcome (e : BreakEntry) : BreakOutcome :=
  match e.closure with
  | some .shortened => .shortened
  | some .cancelled => .cancelled
  | none => if e.state = .active then .played else .fallbackBlank

/-- The break number of the entry that a window serves. -/
def Window.number? : Window → Option Word16
  | .none => Option.none
  | .clip n => some n
  | .blank n => some n

/-- The window of `v` closes: the splice-in of its entry with the overrun of a CLIP window, and the service's streams marked
returning (R107, R108, R156). -/
def State.spliceIn (s : State) (v : Service) (e : BreakEntry) : State :=
  let x := s.spe.services.get v
  let extra := if e.state = .active then overrunOf s.csc.directory e.clips x else 0
  let s1 := s.updateBreak e.number (fun y => { y with overrun := bumpBy y.overrun extra })
  let s2 := s1.finishBreak e .ended (spliceInOutcome e)
  (s2.updateService v (fun y => { y with window := .none })).markReturning v

/-- The window of an entry closes at a slot with exact time `at_` (R153, R156). -/
def closesAt (e : BreakEntry) (at_ : ExactTime) : Bool := e.closure.isSome || at_.reached e.finish

/-- Step 1 of a hand-off for one service (R153). -/
def State.closeWindow (s : State) (at_ : ExactTime) (v : Service) : State :=
  match (s.spe.services.get v).window.number? with
  | some n =>
    match s.findBreak? n with
    | some e => if closesAt e at_ then s.spliceIn v e else s
    | none => s
  | none => s

/-- Step 1 of a hand-off: every service whose window is open (R153). -/
def State.closeWindows (s : State) (at_ : ExactTime) : State :=
  Service.all.foldl (fun acc v => acc.closeWindow at_ v) s

/-! ## Opening (R154, R155, R106) -/

/-- The slot lies in the entry's window: its start at or before the exact time, its end after it. -/
def inWindowAt (e : BreakEntry) (at_ : ExactTime) : Bool := at_.reached e.start && !at_.reached e.finish

/-- The entry that a target-service slot of `v` opens: ARMED, or FALLBACK under BLANK with its window not open. -/
def opens? (table : List BreakEntry) (v : Service) (at_ : ExactTime) : Option BreakEntry :=
  table.find? (fun e => decide (e.service = v) && inWindowAt e at_
    && (decide (e.state = .armed)
      || (decide (e.state = .fallback) && decide (e.policy = .blank) && !e.windowOpen)))

/-- No other entry of the service is ACTIVE or has its window open (R106). -/
def noOtherOpen (table : List BreakEntry) (v : Service) (n : Word16) : Bool :=
  !table.any (fun e => decide (e.service = v) && decide (e.number ≠ n) && (decide (e.state = .active) || e.windowOpen))

/-- A clip splice-out granted: ACTIVE, BREAK-STARTED, window CLIP, play position at list position 1, packet 0
(R106, R154). -/
def State.grantClip (s : State) (v : Service) (e : BreakEntry) : State :=
  let s1 := (s.updateBreak e.number (fun y => { y with state := .active })).raiseBoth
    .breakStarted (.breakNumber e.number) .startedClip
  s1.updateService v (fun x => { x with window := .clip e.number, listPos := 1, packetPos := 0, resumeDue := false })

/-- A blank window granted: the window-open mark, BREAK-STARTED, window BLANK (R106, R155). -/
def State.grantBlank (s : State) (v : Service) (e : BreakEntry) : State :=
  let s1 := (s.updateBreak e.number (fun y => { y with windowOpen := true })).raiseBoth
    .breakStarted (.breakNumber e.number) .startedBlank
  s1.updateService v (fun x => { x with window := .blank e.number })

/-- Step 2 of a hand-off for a target-service slot of `v` (R153 to R155). -/
def State.openWindow (s : State) (at_ : ExactTime) (v : Service) : State :=
  match (s.spe.services.get v).window with
  | .none =>
    match opens? s.bpu.table v at_ with
    | some e =>
      if noOtherOpen s.bpu.table v e.number then
        (if e.state = .armed then s.grantClip v e else s.grantBlank v e)
      else s.countSpe (fun c => { c with requestsRefused := bump c.requestsRefused })
    | none => s
  | .clip _ => s
  | .blank _ => s

/-! ## Content (R153, R157, R159, R169) -/

/-- A clip read asked of the CSC for a slot: it waits at the arbiter with the memory slot of its packet as it is at the asking,
unless the packet lies at or above the stored count (R130, R158). -/
def State.askClip (s : State) (slot : Word32) (position : Nat) (c : Clip) (k : Nat) : State :=
  if k < c.stored then
    s.setCsc { s.csc with
      reads := s.csc.reads ++ [.clip slot true position c.id k (Config.slotsPerBlock * c.firstBlock + k)] }
  else s

/-- A slot's content joins the pending list (R160). -/
def State.addPending (s : State) (slot : Word32) (instant : SiteTime) (content : Content) : State :=
  s.setSpe { s.spe with pendingSlots := s.spe.pendingSlots ++ [⟨slot, instant, content⟩] }

/-- The break play position one packet on (R157). -/
def ServiceState.advance (x : ServiceState) (stored : Nat) : ServiceState :=
  if x.packetPos + 1 < stored then { x with packetPos := x.packetPos + 1, resumeDue := false }
  else { x with listPos := x.listPos + 1, packetPos := 0, resumeDue := false }

/-- A target-service slot takes the next packet of the break's clip list (R157), or the null packet with an underrun when the
list is exhausted (R159). -/
def State.takeBreakPacket (s : State) (slot : Word32) (instant : SiteTime) (v : Service) (n : Word16) : State :=
  let x := s.spe.services.get v
  match s.findBreak? n with
  | some e =>
    match e.clips[x.listPos - 1]? with
    | some id =>
      match findClip? s.csc.directory id with
      | some (position, c) =>
        let content := Content.clip
          { service := v, clip := id, packet := x.packetPos, slate := false,
            passStart := x.packetPos == 0 || x.resumeDue, firstStamp := c.firstStamp, read := .waiting }
        let s1 := if x.packetPos = 0 then s.updateBreak n (fun y => { y with started := bump y.started }) else s
        let s2 := (s1.addPending slot instant content).askClip slot position c x.packetPos
        s2.updateService v (·.advance c.stored)
      | none => s.addPending slot instant .null
    | none =>
      (s.updateBreak n (fun y => { y with underrun := bump y.underrun })).addPending slot instant .null
  | none => s.addPending slot instant .null

/-- A target-service slot takes the next packet of the slate, which plays in a loop (R169). -/
def State.takeSlatePacket (s : State) (slot : Word32) (instant : SiteTime) (v : Service) (id : Word32) : State :=
  let x := s.spe.services.get v
  match findClip? s.csc.directory id with
  | some (position, c) =>
    let content := Content.clip
      { service := v, clip := id, packet := x.slatePos, slate := true,
        passStart := x.slatePos == 0, firstStamp := c.firstStamp, read := .waiting }
    let s1 := (s.addPending slot instant content).askClip slot position c x.slatePos
    s1.updateService v (fun y => { y with slatePos := if y.slatePos + 1 < c.stored then y.slatePos + 1 else 0 })
  | none => s.addPending slot instant .null

/-- Step 3 of a hand-off for a target-service slot of `v` (R153). -/
def State.chooseContent (s : State) (slot : Word32) (instant : SiteTime) (v : Service) (packet : List Byte)
    (info : SlotInfo) : State :=
  let x := s.spe.services.get v
  match x.slate with
  | some id => s.takeSlatePacket slot instant v id
  | none =>
    match x.window with
    | .none => s.addPending slot instant (.stored packet info)
    | .clip n => s.takeBreakPacket slot instant v n
    | .blank _ => s.addPending slot instant .null

/-- The hand-off of a slot, as one event in three steps (R153). -/
def State.handOff (s : State) (slot : Word32) (at_ : ExactTime) (instant : SiteTime) (o : SlotOutcome) : State :=
  let s1 := State.closeWindows (s.setSpe { s.spe with fetchInstant := some at_ }) at_
  match o with
  | .valid packet info =>
    match serviceOf? s1.sst.live.map (streamId packet) with
    | some v => (s1.openWindow at_ v).chooseContent slot instant v packet info
    | none => s1.addPending slot instant (.stored packet info)
  | .absent => s1.addPending slot instant .null
  | .void => s1.addPending slot instant .null
  | .memoryFault => s1.addPending slot instant .null

/-! ## The continuity table (R161 to R163) -/

/-- The entry of a stream. -/
def continuityOf? (table : List Continuity) (stream : Nat) : Option Continuity :=
  table.find? (fun c => c.stream == stream)

/-- An entry placed by rising stream id, replacing one of the same stream. -/
def putContinuity (c : Continuity) : List Continuity → List Continuity
  | [] => [c]
  | x :: rest =>
    if c.stream < x.stream then c :: x :: rest
    else if c.stream = x.stream then c :: rest
    else x :: putContinuity c rest

/-- The table with the entry of the lowest stream id taken out, among those whose stream is no SERVICE stream (R161). -/
def evictContinuity (map : List MapEntry) : List Continuity → List Continuity
  | [] => []
  | x :: rest => if (serviceOf? map x.stream).isNone then rest else x :: evictContinuity map rest

/-- The update of R161 with the count of an emitted packet: `held` says that a clip packet's stream counts too when the table
holds it. -/
def updateContinuity (map : List MapEntry) (table : List Continuity) (stream count : Nat) (held : Bool) : List Continuity :=
  match continuityOf? table stream with
  | some c =>
    if (serviceOf? map stream).isSome || held then putContinuity { c with count := count } table else table
  | none =>
    if (serviceOf? map stream).isSome then
      let room := if table.length < Config.mapPlaces then table else evictContinuity map table
      putContinuity { stream := stream, count := count, returning := false } room
    else table

/-- The expected count after `last`: plus 1 modulo 16 for a packet with payload (R162, R163). -/
def expectedCount (last : Nat) (packet : List Byte) : Nat := if hasPayload packet then (last + 1) % 16 else last

/-- The adaptation area has room for the discontinuity mark (R162). -/
def hasMarkRoom (packet : List Byte) : Bool :=
  match adaptationLength? packet with
  | some len => decide (1 ≤ len)
  | none => false

/-! ## Completion at emission (R160) -/

/-- A service's clock tracker takes an emitted stamp (R164). -/
def State.track (s : State) (v : Service) (stamp : Nat) (instant : SiteTime) : State :=
  s.updateService v (fun x => { x with tracker := some ⟨stamp, instant⟩ })

/-- The check of a programme packet whose stream is marked returning (R162): the mark is cleared with the packet's count kept,
and a count that is not the expected one sets the packet's discontinuity mark, or is a continuity break where the packet has no
room for the mark. The second part is the packet after it. A marked stream that has left the map since is checked too, and its
entry takes the packet's count, which is the model's choice (log 38). A programme packet handed before a window opened and emitted
while it is open is checked as any other, whatever the source is by then, which is the model's choice too (log 39). -/
def State.checkReturning (s : State) (packet : List Byte) : State × List Byte :=
  match continuityOf? s.spe.continuity (streamId packet) with
  | some c =>
    if c.returning then
      let cleared := s.setSpe { s.spe with
        continuity := putContinuity { c with count := continuityCount packet, returning := false } s.spe.continuity }
      if continuityCount packet = expectedCount c.count packet then (cleared, packet)
      else if hasMarkRoom packet then
        (cleared.countSpe (fun k => { k with discontinuityMarksSet := bump k.discontinuityMarksSet }), setDiscontinuity packet)
      else (cleared.countSpe (fun k => { k with continuityBreaks := bump k.continuityBreaks }), packet)
    else (s, packet)
  | none => (s, packet)

/-- The continuity table takes the count of an emitted packet (R161). -/
def State.noteCount (s : State) (stream count : Nat) (held : Bool) : State :=
  s.setSpe { s.spe with continuity := updateContinuity s.sst.live.map s.spe.continuity stream count held }

/-- A programme packet is completed: the check of a returning stream (R162), the continuity table (R161) and the tracker
(R164). The bytes change only by the discontinuity mark. -/
def State.completeProgramme (s : State) (instant : SiteTime) (packet : List Byte) (info : SlotInfo) : State × List Byte :=
  let r := s.checkReturning packet
  let s2 := r.1.noteCount (streamId packet) (continuityCount packet) false
  match Service.ofNat? info.service with
  | some v => (if info.clockBearing && carriesStamp r.2 then s2.track v (stampValue r.2) instant else s2, r.2)
  | none => (s2, r.2)

/-- The offset O' of a pass that starts at an instant, from the tracker and the base stamp (R165). -/
def passOffset (t : Tracker) (instant : SiteTime) (base : Nat) : Nat :=
  let elapsed : Int := ((instant.sec - t.instant.sec).toNat * Config.ticksPerSecond : Nat) + (instant.tick : Int) - (t.instant.tick : Int)
  let k : Int := ((t.stamp : Int) + elapsed) % (Config.stampModulus : Int)
  let o := (((k - (base : Int)) % (Config.stampModulus : Int))).toNat
  o - o % 300

/-- The base stamp of a pass: the clip's first stamp at packet 0, otherwise the resume stamp and failing that the clip's first
stamp (R165). -/
def passBase (x : ServiceState) (c : ClipContent) : Nat :=
  if c.packet = 0 then c.firstStamp.getD 0
  else
    match x.resumeStamp with
    | some r => r
    | none => c.firstStamp.getD 0

/-- A service with the offset of its slate pass or break pass set. -/
def ServiceState.setOffset (x : ServiceState) (slate : Bool) (o : Nat) : ServiceState :=
  if slate then { x with slateOffset := o } else { x with breakOffset := o }

/-- The offset of a pass is fixed at its start slot; with an empty tracker it is 0 and counted (R165). -/
def State.fixOffset (s : State) (c : ClipContent) (instant : SiteTime) : State :=
  if c.passStart then
    let x := s.spe.services.get c.service
    match x.tracker with
    | some t => s.updateService c.service (·.setOffset c.slate (passOffset t instant (passBase x c)))
    | none =>
      (s.updateService c.service (·.setOffset c.slate 0)).countSpe (fun k => { k with unrebasedPasses := bump k.unrebasedPasses })
  else s

/-- A slot that takes packet 0 of a list position clears the resume stamp (R165). -/
def State.clearResume (s : State) (c : ClipContent) : State :=
  if c.slate = false ∧ c.packet = 0 then s.updateService c.service (fun x => { x with resumeStamp := none }) else s

/-- The clock stamp of a pass's packet rebased (R166). -/
def rebaseStamp (packet : List Byte) (offset : Nat) : List Byte :=
  if carriesStamp packet then setStamp packet ((stampValue packet + offset) % Config.stampModulus) else packet

/-- One unit stamp moved by the offset (R167). -/
def moveUnitStamp (packet : List Byte) (n offset : Nat) : List Byte :=
  setUnitStamp packet n ((unitStampValue packet n + offset / 300) % Config.unitStampModulus)

/-- The unit stamps of a pass's packet rebased (R167, R202). -/
def rebaseUnits (packet : List Byte) (offset : Nat) : List Byte :=
  match unitStamps? packet with
  | some (n, true) => moveUnitStamp (moveUnitStamp packet n offset) (n + 5) offset
  | some (n, false) => moveUnitStamp packet n offset
  | none => packet

/-- A packet of a pass with unit start set and a scrambling code other than 0 keeps its unit stamps and is counted (R167). -/
def State.countScrambled (s : State) (packet : List Byte) : State :=
  if unitStart packet && scrambling packet != 0 then
    s.countSpe (fun k => { k with scrambledUnitStamps := bump k.scrambledUnitStamps })
  else s

/-- The stored clock stamp of a break packet becomes the resume stamp (R165). -/
def State.noteResume (s : State) (c : ClipContent) (stamped : Bool) (packet : List Byte) : State :=
  if c.slate = false ∧ stamped = true then
    s.updateService c.service (fun y => { y with resumeStamp := some (stampValue packet) })
  else s

/-- The bytes of a pass's packet as emitted: its stamps rebased by the offset (R166, R167), and its continuity count the
expected one of its stream's entry, where there is one (R163). A packet whose adaptation length does not fit goes out with its
bytes as stored (R202). -/
def emittedClip (table : List Continuity) (offset : Nat) (packet : List Byte) : List Byte :=
  let rebased := rebaseUnits (rebaseStamp packet offset) offset
  if unsoundAdaptation packet then packet
  else
    match continuityOf? table (streamId packet) with
    | some e => setContinuityCount rebased (expectedCount e.count packet)
    | none => rebased

/-- The offset of the pass that a clip packet belongs to (R165). -/
def State.offsetOf (s : State) (c : ClipContent) : Nat :=
  let x := s.spe.services.get c.service
  if c.slate then x.slateOffset else x.breakOffset

/-- A clip or slate packet whose read completed well is completed: stamps, continuity count, resume stamp, continuity table
and tracker, in the order of R160. -/
def State.completeClip (s : State) (instant : SiteTime) (c : ClipContent) (packet : List Byte) (info : SlotInfo) :
    State × List Byte :=
  let out := emittedClip s.spe.continuity (s.offsetOf c) packet
  let stamped := info.clockBearing && carriesStamp packet
  let s1 := ((s.countScrambled packet).noteResume c stamped packet).noteCount (streamId packet) (continuityCount out) true
  (if stamped then s1.track c.service (stampValue out) instant else s1, out)

/-- The emission event of a handed slot: its content is completed and leaves the pending list (R158, R160). The second part
is the packet to drive. -/
def State.completeContent (s : State) (instant : SiteTime) (content : Content) : State × List Byte :=
  match content with
  | .stored packet info => s.completeProgramme instant packet info
  | .null => (s, nullPacket)
  | .clip c =>
    let s1 := (s.fixOffset c instant).clearResume c
    match c.read with
    | .done (.good packet info) => s1.completeClip instant c packet info
    | .done .faulty => (s1, nullPacket)
    | .waiting => (s1.countSpe (fun k => { k with clipReadsLate := bump k.clipReadsLate }), nullPacket)

/-- The slot's entry is taken from the head of the pending list and completed (R160). -/
def State.completeSlot (s : State) (slot : Word32) (instant : SiteTime) : State × List Byte :=
  match s.spe.pendingSlots with
  | p :: rest =>
    if p.slot = slot then State.completeContent (s.setSpe { s.spe with pendingSlots := rest }) instant p.content
    else (s, nullPacket)
  | [] => (s, nullPacket)

/-- A clip read that has completed is held for its slot, or discarded if the slot is no longer pending (R158). -/
def deliverRead (slot : Word32) (result : ClipReadResult) (p : Pending) : Pending :=
  if p.slot = slot then
    match p.content with
    | .clip c => { p with content := .clip { c with read := .done result } }
    | .stored _ _ => p
    | .null => p
  else p

/-! ## Slate (R168, R170) -/

/-- The slate of `v` dropped and unpinned, LOCAL-DEVIATION raised (R170, R173). -/
def State.dropSlate (s : State) (v : Service) (id : Word32) : State :=
  ((s.dropPin id).updateService v (fun x => { x with slate := none, slatePos := 0 })).raiseSite
    .localDeviation (.clipId id) (.released v)

/-- The clip can be the slate of `v`: in the directory, READY, of the service (R168). -/
def slateReady (dir : List (Nat × Clip)) (v : Service) (id : Word32) : Bool :=
  match findClip? dir id with
  | some c => decide (c.2.state = .ready) && decide (c.2.service = v)
  | none => false

/-- The slate of `v` becomes a clip: pinned, the earlier slate unpinned, play position at packet 0 (R168). -/
def State.installSlate (s : State) (v : Service) (id : Word32) : State :=
  let s1 := s.addPin id
  let s2 := match (s.spe.services.get v).slate with
    | some old => s1.dropPin old
    | none => s1
  (s2.updateService v (fun x => { x with slate := some id, slatePos := 0 })).raiseSite
    .localDeviation (.clipId id) (.forced v)

/-- FORCE SLATE at its owner (R168). -/
def ownForceSlate (service : Byte) (id : Word32) (s : State) : Taken :=
  match Service.ofNat? service.toNat with
  | none => { state := s, code := .invalid }
  | some v =>
    if slateReady s.csc.directory v id then { state := s.installSlate v id, code := .done }
    else { state := s, code := .invalid }

/-- FORCE_SLATE (R168). -/
def execForceSlate (r : Role) (service : Byte) (id : Word32) (s : State) : Answer :=
  ifRunning s (·.takeCommand r .forceSlate (service :: toBytes 4 id.toNat) (ownForceSlate service id))

/-- After a release the source is what the window calls for: PROGRAMME marks the streams returning, CLIP begins a new pass
(R162, R170). -/
def State.afterRelease (s : State) (v : Service) : State :=
  match (s.spe.services.get v).window with
  | .none => s.markReturning v
  | .clip _ => s.updateService v (fun x => { x with resumeDue := true })
  | .blank _ => s

/-- RELEASE SLATE at its owner (R170). -/
def ownReleaseSlate (service : Byte) (s : State) : Taken :=
  match Service.ofNat? service.toNat with
  | none => { state := s, code := .invalid }
  | some v =>
    match (s.spe.services.get v).slate with
    | none => { state := s, code := .state }
    | some id => { state := (s.dropSlate v id).afterRelease v, code := .done }

/-- RELEASE_SLATE (R170). -/
def execReleaseSlate (r : Role) (service : Byte) (s : State) : Answer :=
  ifRunning s (·.takeCommand r .releaseSlate [service] (ownReleaseSlate service))

end Machine
end Sys2Proof
end

