-- ==== Sys2Proof/Machine/ClipStore.lean ====
section
/-! DEFINITION. The Clip Store Controller: the free run list, loads, the insertion port, retirement and clip reads
(06_clip_store_and_packet_memory.md). -/

namespace Sys2Proof
namespace Machine

/-! ## The free run list (R117, R118) -/

/-- First fit: the first block of the first run at least `c` blocks long, and the list with those blocks taken (R118). -/
def takeRun (c : Nat) : List FreeRun → Option (Nat × List FreeRun)
  | [] => none
  | r :: rest =>
    if c ≤ r.count then
      some (r.first, if r.count = c then rest else { first := r.first + c, count := r.count - c } :: rest)
    else (takeRun c rest).map (fun x => (x.1, r :: x.2))

/-- A run placed before a list, joined to the list's first run where it ends just before it (R117). -/
def joinRun (r : FreeRun) : List FreeRun → List FreeRun
  | [] => [r]
  | x :: rest => if r.first + r.count = x.first then { first := r.first, count := r.count + x.count } :: rest else r :: x :: rest

/-- A returned run joins the list in its place, merging with adjacent runs (R117). -/
def returnRun (r : FreeRun) : List FreeRun → List FreeRun
  | [] => [r]
  | x :: rest =>
    if x.first + x.count < r.first then x :: returnRun r rest
    else if x.first + x.count = r.first then joinRun { first := x.first, count := x.count + r.count } rest
    else joinRun r (x :: rest)

/-! ## The directory and the load context -/

/-- A clip placed at a position of the directory, which lists its positions rising. -/
def placeClip (position : Nat) (c : Clip) : List (Nat × Clip) → List (Nat × Clip)
  | [] => [(position, c)]
  | x :: rest => if position < x.1 then (position, c) :: x :: rest else x :: placeClip position c rest

/-- The lowest-numbered EMPTY position (R115, R118). -/
def lowestEmpty? (dir : List (Nat × Clip)) : Option Nat :=
  (List.range' 1 Config.clipPlaces).find? (fun p => (clipAt? dir p).isNone)

/-- The packet being framed, which takes a place in the load buffer (R120, R121). -/
def InsertionFraming.places : InsertionFraming → Nat
  | .admitted _ => 1
  | .noPacket => 0
  | .refused => 0
  | .completed => 0
  | .excess => 0

/-- IREADY (R121). -/
def Csc.iready (c : Csc) : Bool :=
  match c.load with
  | some l =>
    decide (l.buffer.length + c.framing.places < Config.bufferPlaces)
      && (match clipAt? c.directory l.position with
        | some clip => decide (l.accepted < clip.expected)
        | none => false)
  | none => false

/-- The load idle limit in ticks (R126). -/
def Settings.loadIdleTicks (x : Settings) : Nat := x.loadIdleLimit * Config.ticksPerMs

/-- The load context closes: buffered packets and a packet being framed are dropped (R119, R120). -/
def Csc.closeLoad (c : Csc) : Csc := { c with load := none, framing := .noPacket }

/-- The clip at a position becomes FAULT with a cause, CLIP-FAULT goes to both roles and the fault is counted (R122, R125,
R126, R130, R134). -/
def State.faultClip (s : State) (position : Nat) (id : Word32) (cause : FaultCause) : State :=
  (s.setCsc { s.csc with
    directory := mapClipAt s.csc.directory position (fun c => { c with state := .fault, cause := some cause })
    counters := { s.csc.counters with clipsFaulted := bump s.csc.counters.clipsFaulted } }).raiseBoth
      .clipFault (.clipId id) (.fault cause)

/-- The load completion time of the clip at a position becomes site time (R122, R125, R126). -/
def State.stampLoad (s : State) (position : Nat) : State :=
  s.setCsc { s.csc with
    directory := mapClipAt s.csc.directory position (fun c => { c with completed := some s.tbu.time }) }

/-- The open load ends in FAULT (R122, R126). -/
def State.faultLoad (s : State) (position : Nat) (id : Word32) (cause : FaultCause) : State :=
  ((s.setCsc s.csc.closeLoad).stampLoad position).faultClip position id cause

/-! ## OPEN LOAD, ABORT LOAD, RETIRE CLIP (R118, R127, R128) -/

/-- The blocks of a clip of `count` packets (R118). -/
def blocksFor (count : Nat) : Nat := (count + (Config.slotsPerBlock - 1)) / Config.slotsPerBlock

/-- A load opens on a position with a run (R118, R119). -/
def State.startLoad (s : State) (position : Nat) (c : Clip) (runs : List FreeRun) : State :=
  s.setCsc { s.csc with
    directory := placeClip position c s.csc.directory
    freeRuns := runs
    load := some { position := position, idleLimit := s.sst.live.loadIdleTicks } }

/-- The values of check 4 of R118, with the service they name. -/
def loadService? (id : Word32) (service : Byte) (count : Nat) : Option Service :=
  if id = 0 ∨ count = 0 ∨ 500000 < count then none else Service.ofNat? service.toNat

/-- OPEN LOAD at its owner, with the checks of R118 in order. -/
def ownOpenLoad (id : Word32) (service : Byte) (count fp : Word32) (s : State) : Taken :=
  match s.csc.load with
  | some _ => { state := s, code := .busy }
  | none =>
    match findClip? s.csc.directory id with
    | some _ => { state := s, code := .duplicate }
    | none =>
      match lowestEmpty? s.csc.directory with
      | none => { state := s, code := .full }
      | some position =>
        match loadService? id service count.toNat with
        | none => { state := s, code := .invalid }
        | some v =>
          match takeRun (blocksFor count.toNat) s.csc.freeRuns with
          | none => { state := s, code := .noSpace }
          | some (first, runs) =>
            let c : Clip :=
              { id := id, service := v, state := .loading, firstBlock := first, blockCount := blocksFor count.toNat,
                expected := count.toNat, expectedFp := fp, computedFp := crc32Initial }
            { state := s.startLoad position c runs, code := .done, value := toBytes 1 position ++ toBytes 2 first }

/-- OPEN_LOAD (R118). -/
def execOpenLoad (r : Role) (id : Word32) (service : Byte) (count fp : Word32) (s : State) : Answer :=
  ifRunning s (·.takeCommand r .openLoad
    (toBytes 4 id.toNat ++ [service] ++ toBytes 4 count.toNat ++ toBytes 4 fp.toNat) (ownOpenLoad id service count fp))

/-- A position becomes EMPTY and its run returns to the free run list, in one event (R127, R128). -/
def State.emptyPosition (s : State) (position : Nat) (c : Clip) : State :=
  s.setCsc { s.csc with
    directory := s.csc.directory.filter (fun x => x.1 ≠ position)
    freeRuns := returnRun { first := c.firstBlock, count := c.blockCount } s.csc.freeRuns }

/-- ABORT LOAD at its owner (R127). -/
def ownAbortLoad (id : Word32) (s : State) : Taken :=
  match s.csc.load with
  | none => { state := s, code := .none }
  | some l =>
    match clipAt? s.csc.directory l.position with
    | some c =>
      if c.id = id then { state := (s.setCsc s.csc.closeLoad).emptyPosition l.position c, code := .done }
      else { state := s, code := .notFound }
    | none => { state := s, code := .notFound }

/-- ABORT_LOAD (R127). -/
def execAbortLoad (r : Role) (id : Word32) (s : State) : Answer :=
  ifRunning s (·.takeCommand r .abortLoad (toBytes 4 id.toNat) (ownAbortLoad id))

/-- RETIRE CLIP at its owner (R128). -/
def ownRetireClip (id : Word32) (s : State) : Taken :=
  match findClip? s.csc.directory id with
  | none => { state := s, code := .notFound }
  | some (position, c) =>
    if 0 < c.pins then { state := s, code := .pinned }
    else if c.state = .loading then { state := s, code := .state }
    else { state := s.emptyPosition position c, code := .done, value := toBytes 2 c.blockCount }

/-- RETIRE_CLIP (R128). -/
def execRetireClip (r : Role) (id : Word32) (s : State) : Answer :=
  ifRunning s (·.takeCommand r .retireClip (toBytes 4 id.toNat) (ownRetireClip id))

/-! ## The insertion port (R120 to R123) -/

/-- The framing record changed. -/
def State.setFraming (s : State) (f : InsertionFraming) : State := s.setCsc { s.csc with framing := f }

/-- A byte taken with ISTART opens a packet, admitted while IREADY is high and refused while it is low (R120). -/
def State.openPacket (s : State) (first : Byte) : State :=
  if s.csc.iready then s.setFraming (.admitted [first])
  else (s.setFraming .refused).countCsc (fun c => { c with packetsRefused := bump c.packetsRefused })

/-- An admitted packet is being framed (R120). -/
def InsertionFraming.framing? : InsertionFraming → Option (List Byte)
  | .admitted bytes => some bytes
  | .noPacket => none
  | .refused => none
  | .completed => none
  | .excess => none

/-- PACKET_ADMITTED (R120): a byte with ISTART while IREADY is high and no admitted packet is being framed. -/
def execPacketAdmitted (first : Byte) (s : State) : Answer :=
  ifRunning s fun s => if s.csc.framing.framing?.isNone && s.csc.iready then s.openPacket first else s

/-- INSERTION_PACKET_REFUSED (R120): a byte with ISTART while IREADY is low and no admitted packet is being framed. -/
def execInsertionPacketRefused (s : State) : Answer :=
  ifRunning s fun s => if s.csc.framing.framing?.isNone && !s.csc.iready then s.openPacket 0 else s

/-- INSERTION_SHORT_PACKET (R120): a byte with ISTART ends the packet being framed, whose place is freed, and opens the next
(log 32). -/
def execInsertionShortPacket (first : Byte) (s : State) : Answer :=
  ifRunning s fun s =>
    match s.csc.framing.framing? with
    | some _ =>
      ((s.setFraming .noPacket).countCsc (fun c => { c with shortPackets := bump c.shortPackets })).openPacket first
    | none => s

/-- INSERTION_LONG_PACKET (R120): the first excess byte after a completed packet. -/
def execInsertionLongPacket (s : State) : Answer :=
  ifRunning s fun s =>
    if s.csc.framing = .completed then
      (s.setFraming .excess).countCsc (fun c => { c with longPackets := bump c.longPackets })
    else s

/-- How a completed insertion packet is judged (R122). -/
inductive InsertionVerdict where
  | bad
  | null
  | foreign
  | accepted
deriving DecidableEq, Repr

/-- The checks on a completed insertion packet, in order (R122). -/
def judgeInsertion (map : List MapEntry) (c : Clip) (packet : List Byte) : InsertionVerdict :=
  let stream := streamId packet
  if byteAt packet 1 ≠ 0x47#8 then .bad
  else if stream = 8191 then .null
  else if serviceOf? map stream ≠ some c.service then .foreign
  else if stream ∉ c.streams ∧ 8 ≤ c.streams.length then .foreign
  else .accepted

/-- The packet's clock stamp is taken (R123). -/
def stampTaken (map : List MapEntry) (c : Clip) (packet : List Byte) : Bool :=
  carriesStamp packet && isClockStream map (streamId packet) c.service

/-- A clip after the acceptance of a packet: fingerprint, stream list, clock stamps (R123). -/
def Clip.accept (c : Clip) (map : List MapEntry) (packet : List Byte) : Clip :=
  let stream := streamId packet
  let stamped := stampTaken map c packet
  { c with
    computedFp := crc32Update c.computedFp packet
    streams := if stream ∈ c.streams then c.streams else c.streams ++ [stream]
    lastStamp := if stamped then some (stampValue packet) else c.lastStamp
    firstStamp := if stamped then some (c.firstStamp.getD (stampValue packet)) else c.firstStamp }

/-- The load buffer entry of packet `k` of a clip (R123). -/
def loadEntry (map : List MapEntry) (c : Clip) (k : Nat) (packet : List Byte) : LoadEntry :=
  { slot := Config.slotsPerBlock * c.firstBlock + k
    packet := packet
    info := { tag := k % 65536, void := false, service := c.service.num, clockBearing := stampTaken map c packet,
              check := crc8 packet } }

/-- The load context after an acceptance: the idle timer restarts, or stops at the last expected packet (R123, R126). -/
def LoadContext.accept (l : LoadContext) (x : Settings) (c : Clip) (packet : List Byte) : LoadContext :=
  { l with
    accepted := l.accepted + 1
    buffer := l.buffer ++ [loadEntry x.map c l.accepted packet]
    idle := if l.accepted + 1 < c.expected then some 0 else none
    idleLimit := x.loadIdleTicks }

/-- The acceptance of a packet (R123). -/
def State.acceptPacket (s : State) (l : LoadContext) (c : Clip) (packet : List Byte) : State :=
  s.setCsc { s.csc with
    framing := .completed
    load := some (l.accept s.sst.live c packet)
    directory := mapClipAt s.csc.directory l.position (·.accept s.sst.live.map packet) }

/-- An admitted packet completes on the open load (R122). -/
def State.completeInsertion (s : State) (l : LoadContext) (c : Clip) (packet : List Byte) : State :=
  match judgeInsertion s.sst.live.map c packet with
  | .bad => (s.setFraming .completed).countCsc (fun k => { k with badPackets := bump k.badPackets })
  | .null => s.setFraming .completed
  | .foreign => s.faultLoad l.position c.id .foreign
  | .accepted => s.acceptPacket l c packet

/-- The open load with its clip. -/
def Csc.loading? (c : Csc) : Option (LoadContext × Clip) :=
  match c.load with
  | some l => (clipAt? c.directory l.position).map (fun clip => (l, clip))
  | none => none

/-- INSERTION_PACKET_COMPLETE (R122): the 188th byte of the admitted packet. -/
def execInsertionPacketComplete (rest : List Byte) (s : State) : Answer :=
  ifRunning s fun s =>
    match s.csc.framing.framing?, s.csc.loading? with
    | some head, some (l, c) =>
      if (head ++ rest).length = Config.packetBytes then s.completeInsertion l c (head ++ rest) else s
    | some _, none => s
    | none, some _ => s
    | none, none => s

/-! ## Load writes, completion and timeout (R124 to R126) -/

/-- The outcome of a completed load (R125). -/
def loadFault? (c : Clip) : Option FaultCause :=
  if c.computedFp ≠ c.expectedFp then some .fingerprint
  else if c.firstStamp.isNone then some .noClock
  else none

/-- A load completes (R125). -/
def State.completeLoad (s : State) (position : Nat) (c : Clip) : State :=
  let s1 := (s.setCsc s.csc.closeLoad).stampLoad position
  match loadFault? c with
  | some cause => s1.faultClip position c.id cause
  | none =>
    (s1.setCsc { s1.csc with
      directory := mapClipAt s1.csc.directory position (fun x => { x with state := .ready })
      counters := { s1.csc.counters with clipsReady := bump s1.csc.counters.clipsReady } }).raiseBoth
        .clipReady (.clipId c.id) .none

/-- The head load write, taken with the memory after it (R124). -/
def State.takeLoadWrite (s : State) (l : LoadContext) (c : Clip) (rest : List LoadEntry) (m : Memory) : State :=
  let s1 := s.setCsc { s.csc with
    memory := m
    marker := .load
    load := some { l with buffer := rest }
    directory := mapClipAt s.csc.directory l.position (fun x => { x with stored := x.stored + 1 }) }
  if c.stored + 1 = c.expected then s1.completeLoad l.position c else s1

/-- LOAD_WRITE (R124, R131). -/
def execLoadWrite (s : State) : Answer :=
  ifRunning s fun s =>
    if s.grant? = some .loadWrite then
      match s.csc.loading? with
      | some (l, c) =>
        match l.buffer with
        | e :: rest => s.takeLoadWrite l c rest (Memory.writeSlot s.csc.memory e.slot (slotImage e.packet e.info))
        | [] => s
      | none => s
    else s

/-- LOAD_IDLE_TIMEOUT is due: the running idle timer has reached its limit (R126). -/
def State.loadIdleDue (s : State) : Bool :=
  match s.csc.load with
  | some l => (match l.idle with | some n => decide (l.idleLimit ≤ n) | none => false)
  | none => false

/-- LOAD_IDLE_TIMEOUT (R126). -/
def execLoadIdleTimeout (s : State) : Answer :=
  ifRunning s fun s =>
    match s.csc.loading? with
    | some (l, c) => if s.loadIdleDue then s.faultLoad l.position c.id .timeout else s
    | none => s

/-! ## Clip reads (R130, R158) -/

/-- The judgement of the 192 bytes read for packet `k` (R130). -/
def judgeClipRead (k : Nat) (bytes : List Byte) : ClipReadResult :=
  let info := slotInfo bytes
  if info.tag ≠ k % 65536 ∨ slotValid bytes = false ∨ info.check ≠ crc8 (slotPacket bytes) then .faulty
  else .good (slotPacket bytes) info

/-- A faulty read at the CSC (R130). -/
def State.faultyRead (s : State) (position : Nat) (c : Clip) : State :=
  let s1 := s.countCsc (fun k => { k with clipMemoryFaults := bump k.clipMemoryFaults })
  if c.state = .ready then s1.faultClip position c.id .memory else s1

/-- A clip read taken and judged (R130). -/
def State.takeClipRead (s : State) (slot : Word32) (live : Bool) (position : Nat) (c : Clip) (result : ClipReadResult) : State :=
  let s1 := s.setCsc { s.csc with taken := some (.clip slot live result) }
  match result with
  | .good _ _ => s1
  | .faulty => s1.faultyRead position c

/-- CLIP_READ_TAKEN (R130, R131): a read whose position no longer holds its clip is dropped unjudged; any other reads the memory
slot that was addressed when it was asked for. -/
def execClipReadTaken (s : State) : Answer :=
  ifRunning s fun s =>
    if s.grant? = some .clipRead then
      match s.csc.reads with
      | .clip slot live position id k address :: rest =>
        let s1 := s.setCsc { s.csc with reads := rest }
        match clipAt? s.csc.directory position with
        | some c =>
          if c.id = id then
            s1.takeClipRead slot live position c (judgeClipRead k (Memory.readSlot s.csc.memory address))
          else s1
        | none => s1
      | .ring _ _ :: _ => s
      | [] => s
    else s

/-- CLIP_READ_COMPLETE (R158): the result is held for its slot, or discarded. -/
def execClipReadComplete (s : State) : Answer :=
  ifRunning s fun s =>
    match s.csc.taken with
    | some (.clip slot live result) =>
      let s1 := s.setCsc { s.csc with taken := none }
      if live then s1.setSpe { s1.spe with pendingSlots := s1.spe.pendingSlots.map (deliverRead slot result) } else s1
    | some (.ring _ _ _ _) => s
    | none => s

end Machine
end Sys2Proof
end

