-- ==== Sys2Proof/Machine/FeedIntake.lean ====
section
/-! DEFINITION. The Feed Intake's commands (02_feed_intake_and_the_stream_map.md) and the feed-out timer (R58). -/

namespace Sys2Proof
namespace Machine

/-! ## The feed state -/

/-- The feed mute delay in ticks (R58). -/
def Settings.feedMuteTicks (x : Settings) : Nat := x.feedMuteDelay * Config.ticksPerMs

/-- The feed gap limit in ticks (R30). -/
def Settings.feedGapTicks (x : Settings) : Nat := x.feedGapLimit * Config.ticksPerMs

/-- The feed-out timer starts from 0, with a delay of 0 setting FEED at once (R58). -/
def State.startFeedOut (s : State) : State :=
  if s.sst.live.feedMuteDelay = 0 then (s.setEsc { s.esc with feedOutTimer := none }).setMute .feed true
  else s.setEsc { s.esc with feedOutTimer := some 0 }

/-- A change of the feed state: the notice FEED-STATE (R31), then the feed-out timer and the FEED reason (R58). -/
def State.setFeed (s : State) (new : FeedState) : State :=
  if s.fiu.state = new then s
  else
    let s1 := (s.setFiu { s.fiu with state := new }).raiseSite .feedState .none (.feed new)
    if new = .on then (s1.setEsc { s1.esc with feedOutTimer := none }).setMute .feed false
    else if s.fiu.state = .on then s1.startFeedOut
    else s1

/-- ON becomes LOST, and the loss is counted (R29). -/
def State.loseFeed (s : State) : State :=
  (s.countFiu (fun c => { c with feedLosses := bump c.feedLosses })).setFeed .lost

/-- A good packet counts toward the feed state (R29). -/
def State.goodPacket (s : State) : State :=
  match s.fiu.state with
  | .absent => (s.setFiu { s.fiu with goodRun := 1 }).setFeed .syncing
  | .syncing =>
    let s1 := s.setFiu { s.fiu with goodRun := s.fiu.goodRun + 1 }
    if 8 ≤ s1.fiu.goodRun then (s1.setFiu { s1.fiu with badRun := 0 }).setFeed .on else s1
  | .on => s.setFiu { s.fiu with badRun := 0 }
  | .lost => (s.setFiu { s.fiu with goodRun := 1 }).setFeed .syncing

/-- A bad or short packet counts toward the feed state (R29). -/
def State.badPacket (s : State) : State :=
  match s.fiu.state with
  | .absent => s
  | .syncing => s.setFiu { s.fiu with goodRun := 0 }
  | .on =>
    let s1 := s.setFiu { s.fiu with badRun := s.fiu.badRun + 1 }
    if 4 ≤ s1.fiu.badRun then s1.loseFeed else s1
  | .lost => s

/-! ## Framing, numbering and classification -/

/-- How a completed packet is judged and classified (R26, R33). -/
inductive Verdict where
  | bad
  | control
  | nullStream
  | drop
  | plain
  | service (v : Service) (clockBearing : Bool)
deriving DecidableEq, Repr

/-- The classification of R33, from the packet as stored and the stream map as it stands. -/
def classify (map : List MapEntry) (packet : List Byte) : Verdict :=
  if byteAt packet 1 ≠ 0x47#8 then .bad
  else if streamId packet = 8176 then .control
  else if streamId packet = 8191 then .nullStream
  else
    match streamClass? map (streamId packet) with
    | some .drop => .drop
    | some .carry => .plain
    | none => .plain
    | some (.service v clock) => .service v (clock && carriesStamp packet)

/-- The entry is void (R33). -/
def Verdict.void : Verdict → Bool
  | .bad => true
  | .control => true
  | .drop => true
  | .nullStream => false
  | .plain => false
  | .service _ _ => false

/-- The entry's service number (R33). -/
def Verdict.serviceNumber : Verdict → Nat
  | .service v _ => v.num
  | .bad => 0
  | .control => 0
  | .drop => 0
  | .nullStream => 0
  | .plain => 0

/-- The entry's clock-bearing flag (R33). -/
def Verdict.clockBearing : Verdict → Bool
  | .service _ b => b
  | .bad => false
  | .control => false
  | .drop => false
  | .nullStream => false
  | .plain => false

/-- The packet as the FIU holds it: the error mark is set in a packet with first byte 0x47 on which FERR was seen (R26). -/
def heldPacket (packet : List Byte) (ferr : Bool) : List Byte :=
  if byteAt packet 1 = 0x47#8 ∧ ferr = true then setErrorMark packet else packet

/-- The entry the FIU writes for a completed packet (R33). -/
def feedEntry (slot : Word32) (packet : List Byte) (v : Verdict) : FeedEntry :=
  { slot := slot
    packet := packet
    info := { tag := slot.toNat % 65536, void := v.void, service := v.serviceNumber,
              clockBearing := v.clockBearing, check := crc8 packet } }

/-- The counters that a completed packet moves by its verdict (R26, R33, R42). -/
def FiuCounters.judged (c : FiuCounters) (v : Verdict) (ferr : Bool) : FiuCounters :=
  match v with
  | .bad => { c with badPackets := bump c.badPackets }
  | .drop =>
    { c with
      droppedPackets := bump c.droppedPackets
      erroredPackets := if ferr then bump c.erroredPackets else c.erroredPackets }
  | .control => { c with erroredPackets := if ferr then bump c.erroredPackets else c.erroredPackets }
  | .nullStream => { c with erroredPackets := if ferr then bump c.erroredPackets else c.erroredPackets }
  | .plain => { c with erroredPackets := if ferr then bump c.erroredPackets else c.erroredPackets }
  | .service _ _ => { c with erroredPackets := if ferr then bump c.erroredPackets else c.erroredPackets }

/-- A control packet offered to the hand-off queue (R34). -/
def Fiu.offerControl (f : Fiu) (packet : List Byte) (slot : Word32) : Fiu :=
  if f.handoff.length < Config.handoffPlaces then { f with handoff := f.handoff ++ [⟨packet, slot⟩] }
  else { f with counters := { f.counters with handoffLosses := bump f.counters.handoffLosses } }

/-- An entry offered to the feed write buffer (R39). -/
def Fiu.offerEntry (f : Fiu) (e : FeedEntry) : Fiu :=
  if f.writeBuffer.length < Config.bufferPlaces then { f with writeBuffer := f.writeBuffer ++ [e] }
  else { f with counters := { f.counters with intakeOverruns := bump f.counters.intakeOverruns } }

/-- The FIU's own part of a completion: framing, slot number, counters, hand-off, write buffer and gap timer
(R26, R30, R32 to R34, R39). -/
def Fiu.complete (f : Fiu) (x : Settings) (bytes : List Byte) (ferr : Bool) : Fiu :=
  let packet := heldPacket bytes ferr
  let v := classify x.map packet
  let f1 : Fiu := { f with
    framing := .completed
    slotCounter := f.slotCounter + 1
    gapTimer := some 0
    gapLimit := x.feedGapTicks
    counters := f.counters.judged v ferr }
  let f2 := if v = .control then f1.offerControl packet f.slotCounter else f1
  f2.offerEntry (feedEntry f.slotCounter packet v)

/-- The completed packet is good (R26). -/
def goodFirstByte (bytes : List Byte) : Bool := byteAt bytes 1 == 0x47#8

/-! ## The commands -/

/-- FEED_PACKET_OPENS (R25): a byte with FSTART while no packet is open. -/
def execFeedPacketOpens (first : Byte) (ferr : Bool) (s : State) : Answer :=
  ifRunning s fun s =>
    match s.fiu.framing with
    | .opened _ _ => s
    | .noPacket => s.setFiu { s.fiu with framing := .opened [first] ferr }
    | .completed => s.setFiu { s.fiu with framing := .opened [first] ferr }
    | .excess => s.setFiu { s.fiu with framing := .opened [first] ferr }

/-- PACKET_COMPLETE (R26): the 188th byte of the open packet. -/
def execPacketComplete (rest : List Byte) (ferr : Bool) (s : State) : Answer :=
  ifRunning s fun s =>
    match s.fiu.framing with
    | .opened head ferr0 =>
      let bytes := head ++ rest
      if bytes.length = Config.packetBytes then
        let s1 := s.setFiu (s.fiu.complete s.sst.live bytes (ferr0 || ferr))
        if goodFirstByte bytes then s1.goodPacket else s1.badPacket
      else s
    | .noPacket => s
    | .completed => s
    | .excess => s

/-- SHORT_PACKET (R27): a byte with FSTART while a packet is open. -/
def execShortPacket (first : Byte) (ferr : Bool) (s : State) : Answer :=
  ifRunning s fun s =>
    match s.fiu.framing with
    | .opened _ _ =>
      State.badPacket (s.setFiu { s.fiu with
        framing := .opened [first] ferr
        counters := { s.fiu.counters with shortPackets := bump s.fiu.counters.shortPackets } })
    | .noPacket => s
    | .completed => s
    | .excess => s

/-- LONG_PACKET (R28): the first excess byte after a completed packet. -/
def execLongPacket (s : State) : Answer :=
  ifRunning s fun s =>
    match s.fiu.framing with
    | .completed =>
      s.setFiu { s.fiu with
        framing := .excess
        counters := { s.fiu.counters with longPackets := bump s.fiu.counters.longPackets } }
    | .noPacket => s
    | .opened _ _ => s
    | .excess => s

/-- GAP_EXPIRY is due (R30). -/
def State.gapDue (s : State) : Bool :=
  match s.fiu.gapTimer with
  | some n => decide (s.fiu.gapLimit ≤ n)
  | none => false

/-- GAP_EXPIRY (R30): the timer stops; ON becomes LOST, SYNCING becomes ABSENT. -/
def execGapExpiry (s : State) : Answer :=
  ifRunning s fun s =>
    if s.gapDue then
      let s1 := s.setFiu { s.fiu with gapTimer := none }
      match s.fiu.state with
      | .on => s1.loseFeed
      | .syncing => (s1.setFiu { s1.fiu with goodRun := 0 }).setFeed .absent
      | .absent => s1
      | .lost => s1
    else s

/-- FEED_OUT_TIMER_EXPIRY is due (R58). -/
def State.feedOutDue (s : State) : Bool :=
  match s.esc.feedOutTimer with
  | some n => decide (s.sst.live.feedMuteTicks ≤ n)
  | none => false

/-- FEED set by the feed-out timer, which stops (R58). -/
def State.feedOut (s : State) : State := (s.setEsc { s.esc with feedOutTimer := none }).setMute .feed true

/-- FEED_OUT_TIMER_EXPIRY (R58). -/
def execFeedOutTimerExpiry (s : State) : Answer :=
  ifRunning s fun s => if s.feedOutDue then s.feedOut else s

/-- The outcome of the ring write rule (R40). -/
inductive RingOutcome where
  | stored
  | late
  | overrun
deriving DecidableEq, Repr

/-- The ring write rule for slot `slot` (R40). -/
def ringRule (running : Bool) (fetchPos : Option Word32) (ringSize : Nat) (slot : Word32) : RingOutcome :=
  if running then
    match fetchPos with
    | some f =>
      if sdiff slot f < 0 then .late
      else if (ringSize : Int) ≤ sdiff slot f then .overrun
      else .stored
    | none => .stored
  else .stored

/-- The ring slot, and the memory slot, of a slot number (R33, R41, R112). -/
def ringSlot (ringSize : Nat) (slot : Word32) : Nat := slot.toNat % ringSize

/-- FEED_WRITE (R39, R40, R131): the arbiter grants the head entry's write. -/
def execFeedWrite (s : State) : Answer :=
  ifRunning s fun s =>
    if s.grant? = some .feedWrite then
      match s.fiu.writeBuffer with
      | [] => s
      | e :: rest =>
        let s1 := (s.setFiu { s.fiu with writeBuffer := rest }).setCsc { s.csc with marker := .feed }
        match ringRule s.esc.running s.esc.fetchPos s.fiu.ringSize e.slot with
        | .late => s1.countFiu (fun c => { c with latePackets := bump c.latePackets })
        | .overrun => s1.countFiu (fun c => { c with ringOverruns := bump c.ringOverruns })
        | .stored =>
          let i := ringSlot s.fiu.ringSize e.slot
          s1.setCsc { s1.csc with
            memory := Memory.writeSlot s1.csc.memory i (slotImage e.packet e.info), written := markSlot i s1.csc.written }
    else s

end Machine
end Sys2Proof
end

