-- ==== Sys2Proof/Machine/Schedule.lean ====
section
/-! DEFINITION. The Emission Scheduler: marks and anchors, the examination of slots, fetches, emissions and fill
(03_emission_schedule_and_carrier_control.md). -/

namespace Sys2Proof
namespace Machine

/-! ## Slot times (R44, R49) -/

/-- The packet period of a rate, in units of 2^-24 tick (R44). -/
def periodOf (rate : Nat) : Nat := 40608000000 * Config.unitsPerTick / rate

/-- The fetch lead of a period, ceil(8 x P) ticks (R49). -/
def fetchLead (period : Nat) : Nat := ceilUnits (8 * period)

/-- The exact time of a slot under an anchor (R49). -/
def Anchor.exactTime (a : Anchor) (slot : Word32) : ExactTime := exactAfter a.time ((slot - a.ref).toNat * a.period)

/-- The times of a slot under an anchor (R49). -/
def Anchor.slotTimes (a : Anchor) (slot : Word32) : NextSlot :=
  let e := a.exactTime slot
  { slot := slot
    exact := e
    instant := e.ceil
    fetchTime := e.ceil.add (-(fetchLead a.period : Int))
    period := a.period }

/-- The anchors from the current anchor of a slot on: those before it are the ones that no slot from this one on can use
(R46). -/
def anchorsFrom (slot : Word32) : List Anchor → List Anchor
  | [] => []
  | [a] => [a]
  | a :: b :: rest => if 0 ≤ sdiff slot b.ref then anchorsFrom slot (b :: rest) else a :: b :: rest

/-! ## Examination (R50) -/

/-- The units by which the exact time of a slot is short of passing the first test of R50: its fetch time is not earlier than
`now` exactly when its exact time lies more than the fetch lead less one tick after `now`. -/
def shortOfFetch (e : ExactTime) (lead : Nat) (now : SiteTime) : Int :=
  ((lead : Int) - 1) * (Config.unitsPerTick : Int) + 1 - e.unitsSince now

/-- The units by which the exact time of a slot is short of passing the second test of R50. -/
def shortOfSpacing (e : ExactTime) (last : Option SiteTime) : Int :=
  match last with
  | some t => ((Config.packetTicks : Int) - 1) * (Config.unitsPerTick : Int) + 1 - e.unitsSince t
  | none => 0

/-- How many slots from `slot` on are skipped under one anchor before one is accepted: each next slot lies one period later,
so the count is the shortfall divided by the period, rounded up (R50; log 12). -/
def skipsUnder (a : Anchor) (slot : Word32) (now : SiteTime) (last : Option SiteTime) : Nat :=
  let e := a.exactTime slot
  let short := (max (shortOfFetch e (fetchLead a.period) now) (shortOfSpacing e last)).toNat
  (short + (a.period - 1)) / a.period

/-- The first accepted slot from `slot` on, with the number of slots skipped before it (R50). The list begins with the current
anchor of `slot`, and each anchor governs up to the next one's reference slot. Over a run of 2^32 slots or more under one anchor
the skipped slots are counted without a wrap, and the accepted slot has the times that R49 gives with the slot difference modulo
2^32: DESIGN CHOICE, log 40. -/
def firstAccepted (now : SiteTime) (last : Option SiteTime) : Word32 → List Anchor → Option (NextSlot × Nat)
  | _, [] => none
  | slot, [a] =>
    let k := skipsUnder a slot now last
    some (a.slotTimes (slot + BitVec.ofNat 32 k), k)
  | slot, a :: b :: rest =>
    let k := skipsUnder a slot now last
    let room := (b.ref - slot).toNat
    if k < room then some (a.slotTimes (slot + BitVec.ofNat 32 k), k)
    else (firstAccepted now last b.ref (b :: rest)).map (fun x => (x.1, x.2 + room))

/-- The slot of the first ring read that waits (R51). -/
def firstWaiting? : List FetchRead → Option Word32
  | [] => none
  | .ring slot true :: _ => some slot
  | .ring _ false :: rest => firstWaiting? rest
  | .clip _ _ _ _ _ _ :: rest => firstWaiting? rest

/-- The fetch position: the lowest slot neither skipped nor taken, which is the first slot whose read waits or else the next
slot; anchors that it has passed are removed (R46, R51). -/
def State.refreshFetch (s : State) : State :=
  match s.esc.next with
  | some n =>
    let f := (firstWaiting? s.csc.reads).getD n.slot
    s.setEsc { s.esc with fetchPos := some f, anchors := anchorsFrom f s.esc.anchors }
  | none => s

/-- The examination of a slot that becomes next, and of those after it until one is accepted (R50). -/
def State.examine (s : State) (slot : Word32) : State :=
  match firstAccepted s.tbu.time s.esc.lastEmission slot (anchorsFrom slot s.esc.anchors) with
  | some (n, k) =>
    State.refreshFetch (s.setEsc { s.esc with
      next := some n
      counters := { s.esc.counters with skippedSlots := bumpBy s.esc.counters.skippedSlots k } })
  | none => s

/-! ## Marks (R44 to R48) -/

/-- An emission mark as delivered (R73). -/
structure Mark where
  seq : BitVec 8
  count : Nat
  sec : Word32
  ticks : Nat
  rate : Nat
deriving DecidableEq, Repr

/-- The rate and tick field of a mark lie in range (R44, R45). -/
def Mark.usable (m : Mark) : Bool :=
  decide (1000000 ≤ m.rate) && decide (m.rate ≤ 60000000) && decide (m.ticks < Config.ticksPerSecond)

/-- The site offset in force, 0 while unset (R45, R72, R192). -/
def Settings.offset (x : Settings) : Int := x.siteOffset.getD 0

/-- The anchor of a mark carried by the control packet of `slot` (R45). -/
def Mark.anchor (m : Mark) (x : Settings) (slot : Word32) : Anchor :=
  { ref := slot + 1
    time := SiteTime.add { sec := m.sec, tick := m.ticks } x.offset
    period := periodOf m.rate
    seq := m.seq }

/-- A mark refused: counted, nothing else changed (R44 to R46). -/
def State.refuseMark (s : State) : State := s.countEsc (fun c => { c with marksRefused := bump c.marksRefused })

/-- The disagreement of an anchor with the schedule of the newest anchor, in units of 2^-24 tick (R47). -/
def disagreement (newest a : Anchor) : Int :=
  a.time.since newest.time * (Config.unitsPerTick : Int) - ((a.ref - newest.ref).toNat * newest.period : Nat)

/-- The disagreement is more than the mark tolerance (R47). -/
def stepsSchedule (x : Settings) (newest a : Anchor) : Bool :=
  decide (x.markTolerance * Config.unitsPerTick < (disagreement newest a).natAbs)

/-- An anchor that disagrees by more than the mark tolerance is a schedule step: counted, and MARK-STEP raised to the site role
(R47). -/
def State.checkStep (s : State) (newest a : Anchor) : State :=
  if stepsSchedule s.sst.live newest a then
    (s.countEsc (fun c => { c with scheduleSteps := bump c.scheduleSteps })).raiseSite .markStep .none (.mark a.seq)
  else s

/-- The count check that follows an append (R47). -/
def EscCounters.checkCount (c : EscCounters) (m : Mark) (newest a : Anchor) : EscCounters :=
  if a.seq = newest.seq + 1 then
    if m.count = (a.ref - newest.ref).toNat then c
    else { c with markCountMismatches := bump c.markCountMismatches }
  else { c with markSequenceGaps := bump c.markSequenceGaps }

/-- An anchor appended to a schedule that runs (R46, R47). -/
def State.appendAnchor (s : State) (m : Mark) (newest a : Anchor) : State :=
  let s1 := s.checkStep newest a
  State.refreshFetch (s1.setEsc { s1.esc with
    anchors := s1.esc.anchors ++ [a], counters := s1.esc.counters.checkCount m newest a })

/-- The first mark starts the schedule (R48). -/
def State.startRunning (s : State) (a : Anchor) : State :=
  State.examine ((s.setEsc { s.esc with running := true, anchors := [a], fetchPos := some a.ref }).setMute .schedule false) a.ref

/-- A mark delivered to the ESC with the slot number of its control packet (R44 to R48). -/
def State.takeMark (s : State) (m : Mark) (slot : Word32) : State :=
  if m.usable then
    let a := m.anchor s.sst.live slot
    match s.esc.anchors.getLast? with
    | none => s.startRunning a
    | some newest =>
      if 0 < sdiff a.ref newest.ref then
        if s.esc.anchors.length < Config.anchorPlaces then s.appendAnchor m newest a
        else s.countEsc (fun c => { c with anchorOverflows := bump c.anchorOverflows })
      else s.refuseMark
  else s.refuseMark

/-! ## Fetches (R51, R52) -/

/-- The accepted next slot whose fetch time has been reached (R51). -/
def State.fetchDue? (s : State) : Option NextSlot :=
  match s.esc.next with
  | some n => if s.esc.running && s.tbu.time.reached n.fetchTime then some n else none
  | none => none

/-- The last emission instant after an instant is placed (R50, R51, R55). -/
def Esc.latest (e : Esc) (t : SiteTime) : SiteTime :=
  match e.lastEmission with
  | some l => l.later t
  | none => t

/-- The fetch of an accepted slot is requested (R51). -/
def State.request (s : State) (n : NextSlot) : State :=
  let s1 := s.setEsc { s.esc with
    requested := s.esc.requested ++ [{ slot := n.slot, exact := n.exact, instant := n.instant, period := n.period, done := false }]
    lastEmission := some (s.esc.latest n.instant) }
  s1.setCsc { s1.csc with reads := s1.csc.reads ++ [.ring n.slot true] }

/-- FETCH_REQUEST (R51): the fetch is requested and the following slot examined. -/
def execFetchRequest (s : State) : Answer :=
  ifRunning s fun s =>
    match s.fetchDue? with
    | some n => (s.request n).examine (n.slot + 1)
    | none => s

/-- RING_READ_TAKEN (R51, R114, R131): the arbiter takes the oldest fetch read, a ring read. -/
def execRingReadTaken (s : State) : Answer :=
  ifRunning s fun s =>
    if s.grant? = some .ringRead then
      match s.csc.reads with
      | .ring slot live :: rest =>
        let i := ringSlot s.fiu.ringSize slot
        State.refreshFetch (s.setCsc { s.csc with
          reads := rest
          taken := some (.ring slot live (s.csc.written.contains i) (Memory.readSlot s.csc.memory i)) })
      | .clip _ _ _ _ _ _ :: _ => s
      | [] => s
    else s

/-- The judgement of a completed ring read (R52). -/
def judgeSlot (slot : Word32) (mark : Bool) (bytes : List Byte) : SlotOutcome :=
  let info := slotInfo bytes
  if mark = false ∨ info.tag ≠ slot.toNat % 65536 then .absent
  else if info.void then .void
  else if info.check ≠ crc8 (slotPacket bytes) then .memoryFault
  else .valid (slotPacket bytes) info

/-- The counter that an outcome moves (R52). -/
def EscCounters.judged (c : EscCounters) : SlotOutcome → EscCounters
  | .absent => { c with absentSlots := bump c.absentSlots }
  | .void => c
  | .memoryFault => { c with emissionMemoryFaults := bump c.emissionMemoryFaults }
  | .valid _ _ => c

/-- The requested slot of a number, none once it has been emitted (R53). -/
def Esc.findRequested? (e : Esc) (slot : Word32) : Option Requested := e.requested.find? (fun r => r.slot == slot)

/-- A requested slot answered by the Splice Engine. -/
def State.markDone (s : State) (slot : Word32) : State :=
  s.setEsc { s.esc with requested := s.esc.requested.map (fun r => if r.slot = slot then { r with done := true } else r) }

/-- A completed ring read of a slot not yet emitted is judged and handed to the Splice Engine (R52, R153). -/
def State.deliverSlot (s : State) (q : Requested) (mark : Bool) (bytes : List Byte) : State :=
  let o := judgeSlot q.slot mark bytes
  ((s.countEsc (·.judged o)).handOff q.slot q.exact q.instant o).markDone q.slot

/-- RING_READ_COMPLETE (R52, R53, R65). -/
def execRingReadComplete (s : State) : Answer :=
  ifRunning s fun s =>
    match s.csc.taken with
    | some (.ring slot live mark bytes) =>
      let s1 := s.setCsc { s.csc with taken := none }
      match s.esc.findRequested? slot with
      | some q => if live then s1.deliverSlot q mark bytes else s1
      | none => s1
    | some (.clip _ _ _) => s
    | none => s

/-! ## Emission and fill (R53 to R56) -/

/-- The next fill instant of a run (R55). -/
def FillRun.instant (f : FillRun) : SiteTime := f.base.add (ceilUnits (f.next * f.period))

/-- What is emitted next once site time has reached its instant: the earlier of the oldest requested slot and the first fill
instant (R54, R55). -/
inductive DueEmission where
  | slot (q : Requested)
  | fill (f : FillRun)
deriving DecidableEq, Repr

/-- The earlier of the oldest requested slot and the first fill instant. -/
def Esc.nextEmission? (e : Esc) : Option DueEmission :=
  match e.requested, e.fills with
  | [], [] => none
  | q :: _, [] => some (.slot q)
  | [], f :: _ => some (.fill f)
  | q :: _, f :: _ => if f.instant.before q.instant then some (.fill f) else some (.slot q)

/-- The instant of a due emission. -/
def DueEmission.instant : DueEmission → SiteTime
  | .slot q => q.instant
  | .fill f => f.instant

/-- The emission that is due now (R54, R55). -/
def State.emissionDue? (s : State) : Option DueEmission :=
  match s.esc.nextEmission? with
  | some d => if s.tbu.time.reached d.instant then some d else none
  | none => none

/-- The next slot to be emitted, with its period: the oldest requested slot, or else the accepted next slot (R55). -/
def Esc.upcoming? (e : Esc) : Option (SiteTime × Nat) :=
  match e.requested with
  | q :: _ => some (q.instant, q.period)
  | [] => e.next.map (fun n => (n.instant, n.period))

/-- The number of fill packets between `t` and a slot at `next` with period `period`: none up to two periods, and otherwise
every k with ceil(t + k x P) not later than next - P (R55). -/
def fillCount (t next : SiteTime) (period : Nat) : Nat :=
  let units : Int := next.since t * (Config.unitsPerTick : Int)
  if (2 * period : Nat) < units then
    ((units - (period : Int)).toNat / Config.unitsPerTick * Config.unitsPerTick) / period
  else 0

/-- Fill placed after a slot emitted at `t` (R55). -/
def Esc.placeFill (e : Esc) (t : SiteTime) : Esc :=
  match e.upcoming? with
  | some (next, period) =>
    let count := fillCount t next period
    if 0 < count then
      { e with
        fills := e.fills ++ [{ base := t, period := period, next := 1, last := count }]
        lastEmission := some (e.latest (t.add (ceilUnits (count * period)))) }
    else e
  | none => e

/-- The emission of the oldest requested slot: its completion, or the null packet of a late fetch (R53, R54, R160). The slot
leaves the requested slots. -/
def State.slotPacket (s : State) (q : Requested) : State × List Byte :=
  let s1 := s.setEsc { s.esc with requested := s.esc.requested.drop 1 }
  if q.done then s1.completeSlot q.slot q.instant
  else (s1.countEsc (fun c => { c with fetchLate := bump c.fetchLate }), nullPacket)

/-- A slot emitted at its instant (R54, R55, R60). -/
def State.emitSlot (s : State) (q : Requested) : State :=
  let (s1, packet) := s.slotPacket q
  let s2 := s1.carrierInstant.drive q.instant packet
  s2.setEsc (s2.esc.placeFill q.instant)

/-- SLOT_EMISSION (R54). -/
def execSlotEmission (s : State) : Answer :=
  ifRunning s fun s =>
    match s.emissionDue? with
    | some (.slot q) => s.emitSlot q
    | some (.fill _) => s
    | none => s

/-- The fill instants after the first one has come. -/
def dropFill : List FillRun → List FillRun
  | [] => []
  | f :: rest => if f.next < f.last then { f with next := f.next + 1 } :: rest else rest

/-- A fill packet emitted at its instant (R55, R60). -/
def State.emitFill (s : State) (f : FillRun) : State :=
  let s1 := s.setEsc { s.esc with
    fills := dropFill s.esc.fills
    counters := { s.esc.counters with fillPackets := bump s.esc.counters.fillPackets } }
  s1.carrierInstant.drive f.instant nullPacket

/-- FILL_EMISSION (R55). -/
def execFillEmission (s : State) : Answer :=
  ifRunning s fun s =>
    match s.emissionDue? with
    | some (.fill f) => s.emitFill f
    | some (.slot _) => s
    | none => s

/-- The driven packet has been sent whole (R56). -/
def State.packetSent (s : State) : Bool :=
  match s.esc.port with
  | some d => decide (Config.packetBytes ≤ d.sent)
  | none => false

/-- DRIVEN_PACKET_END (R56): the port becomes idle. -/
def execDrivenPacketEnd (s : State) : Answer :=
  ifRunning s fun s => if s.packetSent then s.setEsc { s.esc with port := none } else s

/-! ## FORCE MUTE and RELEASE MUTE (R59) -/

/-- FORCE MUTE at its owner (R59). -/
def ownForceMute (s : State) : Taken := { state := s.setMute .site true, code := .done }

/-- FORCE_MUTE (R59). -/
def execForceMute (r : Role) (s : State) : Answer := ifRunning s (·.takeCommand r .forceMute [] ownForceMute)

/-- RELEASE MUTE at its owner (R59). -/
def ownReleaseMute (s : State) : Taken := { state := s.setMute .site false, code := .done }

/-- RELEASE_MUTE (R59). -/
def execReleaseMute (r : Role) (s : State) : Answer := ifRunning s (·.takeCommand r .releaseMute [] ownReleaseMute)

end Machine
end Sys2Proof
end

