-- ==== Sys2Proof/Machine/Directives.lean ====
section
/-! DEFINITION. The Directive Decoder: control packets and their directives (04_network_directives.md). -/

namespace Sys2Proof
namespace Machine

/-! ## The control packet (R66 to R68, R203) -/

/-- Payload byte `n` of a control packet, counting from 1 (R203). -/
def payloadByte (p : List Byte) (n : Nat) : Byte := byteAt p (n + 4)

/-- Payload bytes `a` to `a + n - 1` of a control packet. -/
def payloadBytes (p : List Byte) (a n : Nat) : List Byte := (p.drop (a + 3)).take n

/-- What the whole-packet checks find (R67). -/
inductive PacketCheck where
  | errored
  | badFormat
  | badCrc
  | good
deriving DecidableEq, Repr

/-- The whole-packet checks in order (R67). -/
def checkPacket (p : List Byte) : PacketCheck :=
  if errorMark p then .errored
  else if scrambling p ≠ 0 ∨ adaptation p ≠ 1 then .badFormat
  else if (crc32 (payloadBytes p 1 180)).toNat ≠ ofBytes (payloadBytes p 181 4) then .badCrc
  else if payloadByte p 1 ≠ 0x01#8 then .badFormat
  else .good

/-- The directive sequence count of a control packet (R203). -/
def packetSequence (p : List Byte) : Word16 := BitVec.ofNat 16 (ofBytes (payloadBytes p 2 2))

/-- The counters at an acceptance: a gap counts as missed (R68). -/
def DdcCounters.acceptPacket (c : DdcCounters) (last : Option Word16) (seq : Word16) : DdcCounters :=
  { c with
    accepted := bump c.accepted
    missed := match last with
      | some l => if seq = l + 1 then c.missed else bump c.missed
      | none => c.missed }

/-- A packet that passed the whole-packet checks meets the sequence check (R68); accepted, its directives are read from
payload byte 5 on, and a directive count of 0 ends its handling (R69). -/
def Ddc.acceptPacket (d : Ddc) (c : ControlPacket) : Ddc :=
  let seq := packetSequence c.packet
  if d.lastSeq = some seq then d
  else
    let count := (payloadByte c.packet 4).toNat
    { inHand := if count = 0 then none else some { packet := c.packet, slot := c.slot, pos := 5, left := count }
      lastSeq := some seq
      counters := d.counters.acceptPacket d.lastSeq seq }

/-- The head of the hand-off queue, checked as a whole (R67) and by its sequence count (R68). -/
def Ddc.takePacket (d : Ddc) (c : ControlPacket) : Ddc :=
  match checkPacket c.packet with
  | .errored => { d with counters := { d.counters with errored := bump d.counters.errored } }
  | .badFormat => { d with counters := { d.counters with formatRefused := bump d.counters.formatRefused } }
  | .badCrc => { d with counters := { d.counters with checkFailures := bump d.counters.checkFailures } }
  | .good => d.acceptPacket c

/-- TAKE_CONTROL_PACKET (R66). -/
def execTakeControlPacket (s : State) : Answer :=
  ifRunning s fun s =>
    match s.ddc.inHand with
    | some _ => s
    | none =>
      match s.fiu.handoff with
      | [] => s
      | c :: rest => (s.setFiu { s.fiu with handoff := rest }).setDdc (s.ddc.takePacket c)

/-! ## The directive at the parse position (R69) -/

/-- A directive that fits: its kind byte and body. -/
structure Directive where
  kind : Byte
  body : List Byte
deriving DecidableEq, Repr

/-- The directive at the parse position, none where it overruns payload bytes 5 to 180 (R69). -/
def InHand.directive? (h : InHand) : Option Directive :=
  let len := (payloadByte h.packet (h.pos + 1)).toNat
  if h.pos + 1 ≤ 180 ∧ h.pos + 1 + len ≤ 180 then
    some { kind := payloadByte h.packet h.pos, body := payloadBytes h.packet (h.pos + 2) len }
  else none

/-- The packet in hand after a directive of body length `len`: none when its count has been read (R69). -/
def InHand.advance (h : InHand) (len : Nat) : Option InHand :=
  if h.left ≤ 1 then none else some { h with pos := h.pos + 2 + len, left := h.left - 1 }

/-- Parsing goes on after a directive. -/
def State.nextDirective (s : State) (h : InHand) (d : Directive) : State :=
  s.setDdc { s.ddc with inHand := h.advance d.body.length }

/-- The handling of the directive in hand when it fits and its kind is one of those meant; otherwise nothing happens. -/
def State.onDirective (s : State) (kinds : Byte → Bool) (f : State → InHand → Directive → State) : State :=
  match s.ddc.inHand with
  | some h =>
    match h.directive? with
    | some d => if kinds d.kind then (f s h d).nextDirective h d else s
    | none => s
  | none => s

/-- A directive of a known kind (R69). -/
def knownKind (k : Byte) : Bool := k == 0x01#8 || k == 0x10#8 || k == 0x11#8 || k == 0x12#8 || k == 0x20#8

/-- The number that bytes `a` to `a + n - 1` of a body spell, counting from 1. -/
def bodyNum (body : List Byte) (a n : Nat) : Nat := ofBytes ((body.drop (a - 1)).take n)

/-- A malformed directive (R70). -/
def State.malformed (s : State) : State := s.countDdc (fun c => { c with malformed := bump c.malformed })

/-- The area filter (R71). -/
def forThisArea (x : Settings) (area : Byte) : Bool := area == 0#8 || x.areaCode == some area.toNat

/-- The site filter (R71). -/
def forThisSite (x : Settings) (site : Nat) : Bool := site == 0xFFFF || x.siteNumber == some site

/-- A break directive that passes the area filter is delivered; otherwise it is dropped and counted (R71). -/
def State.filterArea (s : State) (area : Byte) (deliver : State → State) : State :=
  if forThisArea s.sst.live area then deliver s
  else s.countDdc (fun c => { c with otherAreas := bump c.otherAreas })

/-! ## EMISSION MARK (R70, R73) -/

/-- The mark a body carries, none where it is malformed (R70). -/
def parseMark? (body : List Byte) : Option Mark :=
  if body.length = 15 ∧ bodyNum body 2 2 ≠ 0 then
    some { seq := byteAt body 1, count := bodyNum body 2 2, sec := BitVec.ofNat 32 (bodyNum body 4 4),
           ticks := bodyNum body 8 4, rate := bodyNum body 12 4 }
  else none

/-- A mark reached: delivered while the feed is ON, otherwise counted (R73). -/
def State.reachMark (s : State) (h : InHand) (d : Directive) : State :=
  match parseMark? d.body with
  | none => s.malformed
  | some m =>
    if s.fiu.state = .on then s.takeMark m h.slot
    else s.countDdc (fun c => { c with marksWithoutFeed := bump c.marksWithoutFeed })

/-- EMISSION_MARK (R73). -/
def execEmissionMark (s : State) : Answer := ifRunning s (·.onDirective (· == 0x01#8) State.reachMark)

/-! ## BREAK NOTICE (R70 to R75) -/

/-- The sizes of the fields that a present mask presents before a bit: start 8, end 8, fingerprint 4, policy 1 (R70, R203). -/
def maskOffset (mask : Byte) (bit : Nat) : Nat :=
  (if mask.getLsbD 0 && decide (0 < bit) then 8 else 0) + (if mask.getLsbD 1 && decide (1 < bit) then 8 else 0)
    + (if mask.getLsbD 2 && decide (2 < bit) then 4 else 0) + (if mask.getLsbD 3 && decide (3 < bit) then 1 else 0)

/-- A time at byte `a` of a body, as the network carries it. -/
def bodyTime (body : List Byte) (a : Nat) : SiteTime :=
  { sec := BitVec.ofNat 32 (bodyNum body a 4), tick := bodyNum body (a + 4) 4 }

/-- The policy of a code (R203). -/
def Policy.ofCode? : Nat → Option Policy
  | 0 => some .carry
  | 1 => some .blank
  | _ => none

/-- A time that a notice presents at a place has a tick below 27,000,000 (R70). -/
def goodTime (t : Option SiteTime) : Bool := t.all (fun x => decide (x.tick < Config.ticksPerSecond))

/-- Where start and end are both present, start comes before end (R70, R82). -/
def goodWindow (start finish : Option SiteTime) : Bool :=
  match start, finish with
  | some a, some b => a.before b
  | some _, none => true
  | none, some _ => true
  | none, none => true

/-- The notice a body carries, its times as the network carries them; none where it is malformed (R70). -/
def parseNotice? (body : List Byte) : Option NoticeFields :=
  let mask := byteAt body 5
  if body.length < 5 ∨ 16 ≤ mask.toNat ∨ body.length ≠ 5 + maskOffset mask 4 then none
  else
    let start := if mask.getLsbD 0 then some (bodyTime body 6) else none
    let finish := if mask.getLsbD 1 then some (bodyTime body (6 + maskOffset mask 1)) else none
    let plan : Option Word32 :=
      if mask.getLsbD 2 then some (BitVec.ofNat 32 (bodyNum body (6 + maskOffset mask 2) 4)) else none
    let policy := if mask.getLsbD 3 then Policy.ofCode? (byteAt body (6 + maskOffset mask 3)).toNat else none
    match Service.ofNat? (byteAt body 3).toNat with
    | none => none
    | some v =>
      if goodTime start && goodTime finish && goodWindow start finish && (!mask.getLsbD 3 || policy.isSome) then
        some { number := BitVec.ofNat 16 (bodyNum body 1 2), service := v, area := byteAt body 4,
               start := start, finish := finish, plan := plan, policy := policy }
      else none

/-- The notice with its times made site emission times (R72). -/
def NoticeFields.toSite (f : NoticeFields) (x : Settings) : NoticeFields :=
  { f with start := f.start.map (·.add x.offset), finish := f.finish.map (·.add x.offset) }

/-- A notice lacks one of start, end and policy (R75). -/
def NoticeFields.incomplete (f : NoticeFields) : Bool := f.start.isNone || f.finish.isNone || f.policy.isNone

/-- A notice reaches delivery: an incomplete first notice is refused, any other goes to the BPU (R74, R75). -/
def State.deliverNotice (s : State) (f : NoticeFields) : State :=
  if (s.findBreak? f.number).isNone && f.incomplete then
    (s.countDdc (fun c => { c with incompleteNotices := bump c.incompleteNotices })).raiseSite
      .noticeRefused (.breakNumber f.number) (.refusal .incomplete)
  else s.takeNotice (f.toSite s.sst.live)

/-- A break notice reached (R70, R71, R74). -/
def State.reachNotice (s : State) (_h : InHand) (d : Directive) : State :=
  match parseNotice? d.body with
  | none => s.malformed
  | some f => s.filterArea f.area (·.deliverNotice f)

/-- BREAK_NOTICE (R74). -/
def execBreakNotice (s : State) : Answer := ifRunning s (·.onDirective (· == 0x10#8) State.reachNotice)

/-! ## BREAK CANCEL, RETURN NOW, SITE MUTE (R76 to R78) -/

/-- A break cancel reached (R70, R71, R76). -/
def State.reachCancel (s : State) (_h : InHand) (d : Directive) : State :=
  if d.body.length = 3 then
    s.filterArea (byteAt d.body 3) (·.takeCancel (BitVec.ofNat 16 (bodyNum d.body 1 2)))
  else s.malformed

/-- BREAK_CANCEL (R76, R91). -/
def execBreakCancel (s : State) : Answer := ifRunning s (·.onDirective (· == 0x11#8) State.reachCancel)

/-- A return-now order reached (R70, R71, R77). -/
def State.reachReturn (s : State) (_h : InHand) (d : Directive) : State :=
  if d.body.length = 2 then
    match Service.ofNat? (byteAt d.body 1).toNat with
    | some v => s.filterArea (byteAt d.body 2) (·.takeReturn v)
    | none => s.malformed
  else s.malformed

/-- RETURN_NOW (R77, R92). -/
def execReturnNow (s : State) : Answer := ifRunning s (·.onDirective (· == 0x12#8) State.reachReturn)

/-- A site mute order reached (R59, R70, R71, R78). -/
def State.reachMute (s : State) (_h : InHand) (d : Directive) : State :=
  if d.body.length = 3 ∧ (byteAt d.body 3).toNat ≤ 1 then
    if forThisSite s.sst.live (bodyNum d.body 1 2) then s.setMute .network (byteAt d.body 3 == 1#8)
    else s.countDdc (fun c => { c with otherSites := bump c.otherSites })
  else s.malformed

/-- SITE_MUTE (R78). -/
def execSiteMute (s : State) : Answer := ifRunning s (·.onDirective (· == 0x20#8) State.reachMute)

/-! ## Unknown kinds and overruns (R69) -/

/-- A directive of an unknown kind is skipped and counted (R69). -/
def State.reachUnknown (s : State) (_h : InHand) (_d : Directive) : State :=
  s.countDdc (fun c => { c with unknown := bump c.unknown })

/-- UNKNOWN_DIRECTIVE (R69). -/
def execUnknownDirective (s : State) : Answer := ifRunning s (·.onDirective (fun k => !knownKind k) State.reachUnknown)

/-- DIRECTIVE_OVERRUN (R69): counted, and handling of the packet ends. -/
def execDirectiveOverrun (s : State) : Answer :=
  ifRunning s fun s =>
    match s.ddc.inHand with
    | some h =>
      match h.directive? with
      | none => (s.setDdc { s.ddc with inHand := none }).countDdc (fun c => { c with overruns := bump c.overruns })
      | some _ => s
    | none => s

end Machine
end Sys2Proof
end

