-- ==== Sys2Proof/Machine/TimeBase.lean ====
section
/-! DEFINITION. The Time Base Unit's commands (01_site_time_and_reference_discipline.md) and the cycle of OSC27. -/

namespace Sys2Proof
namespace Machine

/-! ## The cycle of OSC27 -/

/-- A running count one cycle on. -/
def tickTimer (t : Option Nat) : Option Nat := t.map (· + 1)

/-- The timers that count cycles of OSC27, one cycle on: the gap timer (R30), the feed-out timer (R58), the idle timer of an
open load (R126), a save (R195), the time since the last TMSG byte (R5), the shift of a steering word (R20), the bytes of a
driven packet (R56). -/
def State.cycle (s : State) : State :=
  { s with
    tbu := { s.tbu with
      assembly := s.tbu.assembly.map (fun a => { a with idle := a.idle + 1 })
      shiftTicks := if s.tbu.shifting.isSome then s.tbu.shiftTicks + 1 else s.tbu.shiftTicks }
    fiu := { s.fiu with gapTimer := tickTimer s.fiu.gapTimer }
    esc := { s.esc with
      feedOutTimer := tickTimer s.esc.feedOutTimer
      port := s.esc.port.map (fun d => { d with sent := min (d.sent + 1) Config.packetBytes }) }
    csc := { s.csc with load := s.csc.load.map (fun l => { l with idle := tickTimer l.idle }) }
    sst := { s.sst with save := s.sst.save.map (fun v => { v with elapsed := v.elapsed + 1 }) } }

/-- Site time one tick on, inside a second (R1). -/
def State.tick (s : State) : State :=
  let c := s.cycle
  c.setTbu { c.tbu with time := { c.tbu.time with tick := c.tbu.time.tick + 1 } }

/-! ## The steering output and the loop -/

/-- A word computed for the oscillator is sent, as offset binary: it starts at once, or waits for the shift in progress and
replaces a word already waiting (R20). -/
def Tbu.send (t : Tbu) (w : Int) : Tbu :=
  match t.shifting with
  | none => { t with shifting := some (BitVec.ofInt 16 (w + 32768)) }
  | some _ => { t with waiting := some (BitVec.ofInt 16 (w + 32768)) }

/-- The STCLK cycle that the shift in progress has come to, counting from 0 (R20; log 21). -/
def Tbu.stclkCycle (t : Tbu) : Nat := t.shiftTicks / (Config.stclkTicks + 1)

/-- STCLK is clocking a bit out: the first sixteen cycles of a shift (R20). It is low in reset, where no shift is in progress. -/
def Tbu.stclkRuns (t : Tbu) : Bool := t.shifting.isSome && decide (t.stclkCycle < Config.steeringBits)

/-- STDAT: bit 15 of the word in the first cycle, bit 0 in the sixteenth (R20). -/
def Tbu.stdat (t : Tbu) : Bool :=
  match t.shifting with
  | some w => decide (t.stclkCycle < Config.steeringBits) && w.getLsbD (Config.steeringBits - 1 - t.stclkCycle)
  | none => false

/-- STLD: the pulse after the sixteenth bit, which tells the oscillator to take the word (R20). -/
def Tbu.stld (t : Tbu) : Bool := t.shifting.isSome && decide (t.stclkCycle = Config.steeringBits)

/-- STEERING_WORD_SENT is due: the sixteen bits and the pulse on STLD have gone out (R20; log 21). -/
def State.steeringDue (s : State) : Bool := s.tbu.shifting.isSome && decide (Config.steeringBits < s.tbu.stclkCycle)

/-- The steering range (R18). -/
def clampSteer (w : Int) : Int := clampInt (-32768) 32767 w

/-- The integrator's signed 36-bit range (R18). -/
def clampIntegrator (i : Int) : Int := clampInt (-34359738368) 34359738367 i

/-- The six steps of a loop pulse with gain shifts `gp` and `gi` (R18). -/
def Tbu.loop (t : Tbu) (gp gi : Nat) (e : Int) : Tbu :=
  let ec := clampInt (-32768) 32767 e
  let raw := t.integrator - ec * 2 ^ gi
  let i := clampIntegrator raw
  let w0 := convergent (i + -ec * 2 ^ gp) 65536
  let w := clampSteer w0
  Tbu.send { t with
    integrator := i
    integratorSat := decide (i ≠ raw)
    steer := w
    steerSat := decide (w ≠ w0)
    lastLoopError := e } w

/-- The steer-limit run after a loop pulse in LOCKED, with STEER-LIMIT when it reaches 16 (R19, R21). -/
def State.steerLimit (s : State) : State :=
  if s.tbu.steerSat then
    if s.tbu.steerLimitRun < 16 then
      let s1 := s.setTbu { s.tbu with steerLimitRun := s.tbu.steerLimitRun + 1 }
      if s.tbu.steerLimitRun + 1 = 16 then s1.raiseSite .steerLimit .none (.steer (decide (0 < s.tbu.steer))) else s1
    else s
  else s.setTbu { s.tbu with steerLimitRun := 0 }

/-! ## Changes of the discipline state -/

/-- The estimate's limit: 256 times the emission tolerance (R15). -/
def Settings.holdoverLimit (x : Settings) : Nat := 256 * x.emissionTolerance

/-- In HOLDOVER an estimate above its limit makes the state EXPIRED (R15). -/
def Tbu.expire (t : Tbu) (x : Settings) : Tbu :=
  if t.state = .holdover ∧ x.holdoverLimit < t.h then { t with state := .expired } else t

/-- The holdover estimate saturates at 2^48 - 1 (R15). -/
def capH (h : Nat) : Nat := min h 281474976710655

/-- Entry to HOLDOVER from LOCKED, with the comparison of R15 made at once (R14). -/
def Tbu.enterHoldover (t : Tbu) (x : Settings) (cause : HoldoverCause) : Tbu :=
  let w0 := convergent t.integrator 65536
  let w := clampSteer w0
  Tbu.expire (Tbu.send { t with
    state := .holdover
    cause := some cause
    steer := w
    steerSat := decide (w ≠ w0)
    eLast := t.lastLoopError
    n := 0
    h := capH (256 * t.lastLoopError.natAbs)
    relockCount := 0
    runCount := 0 } w) x

/-- Entry to LOCKED: the four counts of R11 and R16 become 0, and the holdover record is cleared (R15). -/
def Tbu.enterLocked (t : Tbu) : Tbu :=
  { t with
    state := .locked
    cause := none
    eLast := 0
    n := 0
    h := 0
    outlierCount := 0
    missingCount := 0
    mismatchCount := 0
    steerLimitRun := 0 }

/-- The eighth pulse of a consistent run makes the state ACQUIRING and clears the holdover record (R15, R17). -/
def Tbu.enterAcquiring (t : Tbu) : Tbu :=
  { t with state := .acquiring, cause := none, eLast := 0, n := 0, h := 0, lockCount := 0 }

/-! ## A taken pulse -/

/-- What the message consumed by a taken pulse says of its nearest second (R6). -/
inductive PulseMessage where
  | none
  | agreeing
  | disagreeing (seconds : Word32)
deriving DecidableEq, Repr

/-- The comparison of R6 for a pulse whose nearest second is `n`. -/
def pulseMessage (held : Option HeldMessage) (n : Word32) : PulseMessage :=
  match held with
  | some m => if m.tracking then (if m.seconds = n then .agreeing else .disagreeing m.seconds) else .none
  | none => .none

/-- A pulse in UNSET: a held tracking message sets site time (R10). -/
def State.setTime (s : State) (held : Option HeldMessage) : State :=
  match held with
  | some m =>
    if m.tracking then
      s.setTbu { s.tbu with
        time := { sec := m.seconds, tick := 0 }
        state := .acquiring
        lockCount := 0
        lastServed := some m.seconds
        counters := { s.tbu.counters with timeSteps := bump s.tbu.counters.timeSteps } }
    else s
  | none => s

/-- The first part of R11: a phase step, or a loop pulse with the acquire gains. -/
def Tbu.acquirePhase (t : Tbu) (x : Settings) (e : Int) : Tbu :=
  if x.stepThreshold < e.natAbs then { t with time := t.time.add (-e), lockCount := 0 }
  else { (t.loop x.acquireGp x.acquireGi e) with lockCount := if e.natAbs ≤ x.lockWindow then t.lockCount + 1 else 0 }

/-- The second part of R11: a disagreeing message makes a second-count step. -/
def Tbu.acquireSecond (t : Tbu) (msg : PulseMessage) : Tbu :=
  match msg with
  | .disagreeing sec =>
    { t with time := { t.time with sec := if t.time.tick < 13500000 then sec else sec - 1 }, lockCount := 0 }
  | .agreeing => t
  | .none => t

/-- The pulse steps site time (R2, R11). -/
def pulseSteps (x : Settings) (e : Int) (msg : PulseMessage) : Bool :=
  decide (x.stepThreshold < e.natAbs) || (match msg with | .disagreeing _ => true | .agreeing => false | .none => false)

/-- After a step, its pulse's nearest second under the new site time is served and supervision begins anew with the boundaries
after it (R8), and the step is counted once (R2). -/
def Tbu.afterStep (t : Tbu) : Tbu :=
  { t with
    lastServed := some (nearestSecond t.time)
    lastMissing := none
    counters := { t.counters with timeSteps := bump t.counters.timeSteps } }

/-- A pulse in ACQUIRING (R11). -/
def Tbu.acquiringPulse (t : Tbu) (x : Settings) (e : Int) (msg : PulseMessage) : Tbu :=
  let t1 := (t.acquirePhase x e).acquireSecond msg
  let t2 := if pulseSteps x e msg then t1.afterStep else t1
  if 8 ≤ t2.lockCount then t2.enterLocked else t2

/-- The mismatch count after a pulse in LOCKED (R12). -/
def mismatchAfter (n : Nat) : PulseMessage → Nat
  | .disagreeing _ => n + 1
  | .agreeing => 0
  | .none => n

/-- A pulse in LOCKED (R12). -/
def State.lockedPulse (s : State) (e : Int) (msg : PulseMessage) : State :=
  let x := s.sst.live
  let s1 :=
    if e.natAbs ≤ x.lockWindow then
      State.steerLimit (s.setTbu { (s.tbu.loop x.trackGp x.trackGi e) with outlierCount := 0 })
    else
      s.setTbu { s.tbu with
        outlierCount := s.tbu.outlierCount + 1
        counters := { s.tbu.counters with referenceOutliers := bump s.tbu.counters.referenceOutliers } }
  let t2 : Tbu := { s1.tbu with mismatchCount := mismatchAfter s1.tbu.mismatchCount msg }
  if 3 ≤ t2.outlierCount then s1.setTbu (t2.enterHoldover x .refJump)
  else if 3 ≤ t2.mismatchCount then s1.setTbu (t2.enterHoldover x .timeMismatch)
  else s1.setTbu t2

/-- The consistent run after a pulse that disagrees with site time (R17). -/
def Tbu.extendRun (t : Tbu) (x : Settings) (stamp : SiteTime) : Tbu :=
  let d := stamp.since t.runLast
  let near := decide ((Config.ticksPerSecond : Int) - (x.lockWindow : Int) ≤ d)
    && decide (d ≤ (Config.ticksPerSecond : Int) + (x.lockWindow : Int))
  { t with
    relockCount := 0
    runCount := if t.runCount = 0 then 1 else if near then t.runCount + 1 else 1
    runLast := stamp }

/-- A pulse in HOLDOVER or EXPIRED (R16, R17). -/
def Tbu.holdoverPulse (t : Tbu) (x : Settings) (stamp : SiteTime) (e : Int) (msg : PulseMessage) : Tbu :=
  let disagrees := match msg with | .disagreeing _ => true | .agreeing => false | .none => false
  if decide (e.natAbs ≤ x.lockWindow) && !disagrees then
    let t1 : Tbu := { t with relockCount := t.relockCount + 1, runCount := 0 }
    if 3 ≤ t1.relockCount then t1.enterLocked else t1
  else
    let t1 := t.extendRun x stamp
    if 8 ≤ t1.runCount then t1.enterAcquiring.acquiringPulse x e msg else t1

/-- A taken pulse outside UNSET: extra pulses end here (R8), and the others serve their boundary and are handled by the
state. -/
def State.takenPulse (s : State) (held : Option HeldMessage) : State :=
  let stamp := s.tbu.time
  let e := phaseError stamp
  let n := nearestSecond stamp
  let inWindow := decide (e.natAbs ≤ Config.windowTicks)
  if inWindow && s.tbu.lastServed == some n then
    s.countTbu (fun c => { c with extraPulses := bump c.extraPulses })
  else
    let msg := pulseMessage held n
    let t1 : Tbu := if inWindow then
        { s.tbu with
          lastServed := some n
          missingCount := if s.tbu.state = .locked then 0 else s.tbu.missingCount }
      else s.tbu
    let t2 : Tbu := match msg with
      | .disagreeing _ =>
        { t1 with counters := { t1.counters with messageMismatches := bump t1.counters.messageMismatches } }
      | .agreeing => t1
      | .none => t1
    let s2 := s.setTbu t2
    match s.tbu.state with
    | .unset => s2
    | .acquiring => s2.setTbu (t2.acquiringPulse s.sst.live e msg)
    | .locked => s2.lockedPulse e msg
    | .holdover => s2.setTbu (t2.holdoverPulse s.sst.live stamp e msg)
    | .expired => s2.setTbu (t2.holdoverPulse s.sst.live stamp e msg)

/-- A rising edge of PPS (R3): the held message is consumed, and the pulse is ignored or taken as REFOK says. -/
def State.pulse (s : State) : State :=
  let held := s.tbu.held
  let s0 := s.setTbu { s.tbu with held := none }
  if s.refok then
    State.afterTbu (if s.tbu.state = .unset then s0.setTime held else s0.takenPulse held) s.tbu.state
  else s0.countTbu (fun c => { c with ignoredPulses := bump c.ignoredPulses })

/-! ## The commands -/

/-- SITE_SECOND_BOUNDARY (R1, R15): the cycle of OSC27 that carries site time from S:26,999,999 to S+1:0. -/
def execSiteSecondBoundary (s : State) : Answer :=
  ifRunning s fun s =>
    if s.tbu.time.tick = 26999999 then
      let c := s.cycle
      let t : Tbu := { c.tbu with time := { sec := c.tbu.time.sec + 1, tick := 0 } }
      let t1 :=
        if t.state = .holdover ∨ t.state = .expired then
          Tbu.expire { t with n := bump t.n, h := capH (t.h + s.sst.live.holdoverRate) } s.sst.live
        else t
      (c.setTbu t1).afterTbu s.tbu.state
    else s

/-- PPS_EDGE (R3). -/
def execPpsEdge (s : State) : Answer := ifRunning s State.pulse

/-- MISSING_PULSE is due: site time stands at B:2,700,000 and boundary B has been neither served nor declared missing (R8). -/
def State.missingDue (s : State) : Bool :=
  decide (s.tbu.state ≠ .unset) && decide (s.tbu.time.tick = Config.windowTicks)
    && decide (s.tbu.lastServed ≠ some s.tbu.time.sec) && decide (s.tbu.lastMissing ≠ some s.tbu.time.sec)

/-- MISSING_PULSE (R8, R11, R13, R16). -/
def execMissingPulse (s : State) : Answer :=
  ifRunning s fun s =>
    if s.missingDue then
      let t : Tbu := { s.tbu with
        lastMissing := some s.tbu.time.sec
        counters := { s.tbu.counters with missingPulses := bump s.tbu.counters.missingPulses } }
      let t1 : Tbu := match t.state with
        | .unset => t
        | .acquiring => { t with lockCount := 0 }
        | .locked =>
          let t2 : Tbu := { t with missingCount := t.missingCount + 1 }
          if 2 ≤ t2.missingCount then t2.enterHoldover s.sst.live .pulseMissing else t2
        | .holdover => { t with relockCount := 0 }
        | .expired => { t with relockCount := 0 }
      (s.setTbu t1).afterTbu s.tbu.state
    else s

/-- The effect of REFOK falling on the TBU (R4). -/
def Tbu.refokFell (t : Tbu) (x : Settings) : Tbu :=
  match t.state with
  | .unset => t
  | .acquiring => { t with lockCount := 0 }
  | .locked => t.enterHoldover x .refLost
  | .holdover => { t with relockCount := 0, runCount := 0 }
  | .expired => { t with relockCount := 0, runCount := 0 }

/-- REFOK_FALL (R4). An edge needs the line high before it. During reset the edge is ignored but the level is what it is
(R200). -/
def execRefokFall (s : State) : Answer :=
  if s.refok then
    ifRunning (s.setRefok false) fun s1 => (s1.setTbu (s1.tbu.refokFell s1.sst.live)).afterTbu s1.tbu.state
  else .next s

/-- REFOK_RISE (R4): the level rises and no state changes. -/
def execRefokRise (s : State) : Answer := .next (s.setRefok true)

/-- One more bad time message, with no assembly open (R5). -/
def State.badMessage (s : State) : State :=
  (s.setTbu { s.tbu with assembly := none }).countTbu (fun c => { c with badTimeMessages := bump c.badTimeMessages })

/-- The checks on an assembly of eight bytes (R5). -/
def goodMessage (bytes : List Byte) : Bool :=
  byteAt bytes 1 == 0xA5#8 && byteAt bytes 2 == 0x01#8 && (bytes.foldl (fun acc b => acc + b.toNat) 0) % 256 == 0

/-- The rate of a baud code, in bits a second (R204). -/
def baudRate : Nat → Nat
  | 0 => 9600
  | 1 => 19200
  | 2 => 38400
  | _ => 115200

/-- 16 bit times in ticks (R5). -/
def bitTimes16 (code : Nat) : Nat := 16 * Config.ticksPerSecond / baudRate code

/-- TIME_MESSAGE_INTERBYTE_TIMEOUT is due: more than 16 bit times have passed since the last byte of the assembly was received
(R5). That the bit times are counted from the receipt of one byte to that of the next is the model's choice (log 33). -/
def State.interbyteDue (s : State) : Bool :=
  match s.tbu.assembly with
  | some a => decide (bitTimes16 s.sst.live.baud < a.idle)
  | none => false

/-- A byte joins the open assembly, or opens one (R5): with its stop bit low it abandons the assembly; the eighth byte closes
it. -/
def State.joinByte (s : State) (b : Byte) (stopHigh : Bool) : State :=
  let bytes := (match s.tbu.assembly with | some a => a.bytes | none => []) ++ [b]
  if stopHigh then
    if 8 ≤ bytes.length then
      if goodMessage bytes then
        s.setTbu { s.tbu with
          assembly := none
          held := some { seconds := BitVec.ofNat 32 (ofBytes ((bytes.drop 2).take 4)), tracking := (byteAt bytes 7).getLsbD 0 } }
      else s.badMessage
    else s.setTbu { s.tbu with assembly := some { bytes := bytes, idle := 0 } }
  else s.badMessage

/-- A byte received on TMSG (R5). Where more than 16 bit times have passed since the byte before it, the assembly is abandoned
first, whether or not TIME_MESSAGE_INTERBYTE_TIMEOUT has run, and the byte opens a new one. -/
def State.receive (s : State) (b : Byte) (stopHigh : Bool) : State :=
  (if s.interbyteDue then s.badMessage else s).joinByte b stopHigh

/-- TIME_MESSAGE (R5). -/
def execTimeMessage (b : Byte) (stopHigh : Bool) (s : State) : Answer := ifRunning s (·.receive b stopHigh)

/-- TIME_MESSAGE_BYTE (R5). -/
def execTimeMessageByte (b : Byte) (stopHigh : Bool) (s : State) : Answer := ifRunning s (·.receive b stopHigh)

/-- TIME_MESSAGE_INTERBYTE_TIMEOUT (R5). -/
def execTimeMessageInterbyteTimeout (s : State) : Answer :=
  ifRunning s fun s => if s.interbyteDue then s.badMessage else s

/-- STEERING_WORD_SENT (R20): the word is loaded, and a waiting word follows at once. -/
def execSteeringWordSent (s : State) : Answer :=
  ifRunning s fun s =>
    match s.tbu.shifting with
    | some w =>
      s.setTbu { s.tbu with loaded := some w, shifting := s.tbu.waiting, waiting := none, shiftTicks := 0 }
    | none => s

end Machine
end Sys2Proof
end

