-- ==== Sys2Proof/Machine/Settings.lean ====
section
/-! DEFINITION. The settings, the stream map edits and the stored image (10_settings_and_restart.md, and R35 to R38 of
02_feed_intake_and_the_stream_map.md). -/

namespace Sys2Proof
namespace Machine

/-! ## Stream map edits (R36, R37) -/

/-- The operation of an edit record (R36, R204). -/
inductive EditOp where
  | add
  | change
  | remove
deriving DecidableEq, Repr

/-- The operation of a code (R204). -/
def EditOp.ofCode? : Nat → Option EditOp
  | 1 => some .add
  | 2 => some .change
  | 3 => some .remove
  | _ => none

/-- The class that an edit names (R36, R204). -/
inductive EditClass where
  | carry
  | service
  | drop
deriving DecidableEq, Repr

/-- The class of a code (R204). -/
def EditClass.ofCode? : Nat → Option EditClass
  | 1 => some .carry
  | 2 => some .service
  | 3 => some .drop
  | _ => none

/-- The clock flag byte: 0 clear, 1 set, and for any other byte a free value (R204; log 14). -/
def clockFlag (b : Byte) : Bool :=
  if b = 0#8 then false else if b = 1#8 then true else Config.clockFlagOther b

/-- The class an ADD or CHANGE puts in the map, none for a SERVICE edit whose service is not 1..4 (R36). -/
def editedClass? (cls : EditClass) (service clock : Byte) : Option StreamClass :=
  match cls with
  | .carry => some .carry
  | .drop => some .drop
  | .service => (Service.ofNat? service.toNat).map (fun v => .service v (clockFlag clock))

/-- Another entry of the same service already holds the clock flag (R36). -/
def clockTaken (map : List MapEntry) (stream : Nat) (new : StreamClass) : Bool :=
  match new with
  | .service v true => map.any (fun e => decide (e.stream ≠ stream) && decide (e.cls = .service v true))
  | .service _ false => false
  | .carry => false
  | .drop => false

/-- A service is busy (R37): its source is not PROGRAMME, or a break of it is ARMED, or a slate is forced on it. -/
def State.serviceBusy (s : State) (v : Service) : Bool :=
  decide ((s.spe.services.get v).source ≠ .programme)
    || s.bpu.table.any (fun e => decide (e.service = v) && decide (e.state = .armed))
    || (s.spe.services.get v).slate.isSome

/-- The service of a class, none outside SERVICE. -/
def StreamClass.service? : StreamClass → Option Service
  | .service v _ => some v
  | .carry => none
  | .drop => none

/-- A class, where there is one, is SERVICE of a busy service (R37). -/
def State.touchesBusy (s : State) (c : Option StreamClass) : Bool := ((c.bind (·.service?)).map s.serviceBusy).getD false

/-- The map after an edit that passes every check (R36). -/
def applyEdit (map : List MapEntry) (op : EditOp) (stream : Nat) (new : Option StreamClass) : List MapEntry :=
  match op, new with
  | .add, some c => map ++ [{ stream := stream, cls := c }]
  | .change, some c => map.map (fun e => if e.stream = stream then { e with cls := c } else e)
  | .remove, _ => map.filter (fun e => e.stream ≠ stream)
  | .add, none => map
  | .change, none => map

/-- The live settings replaced, with the unsaved mark set where a value changed (R191). -/
def State.setLive (s : State) (x : Settings) (changed : Bool) : State :=
  s.setSst { s.sst with live := x, unsaved := s.sst.unsaved || changed }

/-- Checks 5 to 7 of R36, and the edit (R36, R37). -/
def State.editChecked (s : State) (op : EditOp) (stream : Nat) (old new : Option StreamClass) : Taken :=
  if new.any (clockTaken s.sst.live.map stream) then { state := s, code := .invalid }
  else if s.touchesBusy old || s.touchesBusy new then { state := s, code := .busy }
  else
    let map := applyEdit s.sst.live.map op stream new
    { state := s.setLive { s.sst.live with map := map } (decide (map ≠ s.sst.live.map)), code := .done }

/-- A stream map edit at its owner, with the checks of R36 in order. -/
def ownMapEdit (op : EditOp) (stream : Word16) (cls service clock : Byte) (s : State) : Taken :=
  let id := stream.toNat
  let listed := streamClass? s.sst.live.map id
  match EditClass.ofCode? cls.toNat with
  | none => { state := s, code := .invalid }
  | some c =>
    if id = 8176 ∨ 8190 < id then { state := s, code := .invalid }
    else
      match op with
      | .add =>
        if listed.isSome then { state := s, code := .invalid }
        else if Config.mapPlaces ≤ s.sst.live.map.length then { state := s, code := .full }
        else
          match editedClass? c service clock with
          | none => { state := s, code := .invalid }
          | some new => s.editChecked .add id none (some new)
      | .change =>
        if listed.isNone then { state := s, code := .notFound }
        else
          match editedClass? c service clock with
          | none => { state := s, code := .invalid }
          | some new => s.editChecked .change id listed (some new)
      | .remove =>
        if listed.isNone then { state := s, code := .notFound } else s.editChecked .remove id listed none

/-- The number of the stream map edit object (R176). -/
def mapEditObject : Nat := 0x0020

/-- The number of the settings object (R176). -/
def settingsObject : Nat := 0x0003

/-- STREAM_MAP_ADD (R36). -/
def execStreamMapAdd (r : Role) (stream : Word16) (cls service clock : Byte) (s : State) : Answer :=
  ifRunning s (·.takeWrite r mapEditObject true (ownMapEdit .add stream cls service clock))

/-- STREAM_MAP_CHANGE (R36). -/
def execStreamMapChange (r : Role) (stream : Word16) (cls service clock : Byte) (s : State) : Answer :=
  ifRunning s (·.takeWrite r mapEditObject true (ownMapEdit .change stream cls service clock))

/-- STREAM_MAP_REMOVE (R36). -/
def execStreamMapRemove (r : Role) (stream : Word16) (cls service clock : Byte) (s : State) : Answer :=
  ifRunning s (·.takeWrite r mapEditObject true (ownMapEdit .remove stream cls service clock))

/-! ## Write-once settings (R192) -/

/-- The setting is locked: it has been set (R192, R197). -/
def Settings.locked (x : Settings) : WriteOnceSetting → Bool
  | .siteNumber => x.siteNumber.isSome
  | .areaCode => x.areaCode.isSome
  | .siteOffset => x.siteOffset.isSome
  | .ringSize => x.ringSize.isSome

/-- The sizes that the ring size setting takes (R192). -/
def ringSizes : List Nat := [4096, 8192, 16384, 32768]

/-- The value lies in the setting's range (R192). -/
def onceAdmits (w : WriteOnceSetting) (v : Int) : Bool :=
  match w with
  | .siteNumber => decide (1 ≤ v) && decide (v ≤ 65534)
  | .areaCode => decide (1 ≤ v) && decide (v ≤ 255)
  | .siteOffset => decide (-2700000 ≤ v) && decide (v ≤ 2700000)
  | .ringSize => ringSizes.any (fun r => decide (v = (r : Int)))

/-- The settings with a write-once setting set, and so locked (R192). -/
def Settings.putOnce (x : Settings) (w : WriteOnceSetting) (v : Int) : Settings :=
  match w with
  | .siteNumber => { x with siteNumber := some v.toNat }
  | .areaCode => { x with areaCode := some v.toNat }
  | .siteOffset => { x with siteOffset := some v }
  | .ringSize => { x with ringSize := some v.toNat }

/-- The value of an unset write-once setting, none where it has none (R192). -/
def onceUnsetValue? : WriteOnceSetting → Option Int
  | .siteNumber => none
  | .areaCode => none
  | .siteOffset => some 0
  | .ringSize => some 16384

/-- A write-once setting write at its owner (R192). The write is taken only while the setting is unset, so a value equal to the
value while unset changes no live value (R191; log 19). -/
def ownWriteOnce (w : WriteOnceSetting) (value : Word32) (s : State) : Taken :=
  let v := value.toInt
  if s.sst.live.locked w then { state := s, code := .locked }
  else if onceAdmits w v then
    { state := s.setLive (s.sst.live.putOnce w v) (decide (onceUnsetValue? w ≠ some v)), code := .done }
  else { state := s, code := .invalid }

/-- WRITE_ONCE_SETTING_WRITE (R192). -/
def execWriteOnceSettingWrite (r : Role) (w : WriteOnceSetting) (value : Word32) (s : State) : Answer :=
  ifRunning s (·.takeWrite r settingsObject true (ownWriteOnce w value))

/-! ## Operating settings (R193) -/

/-- The limits of a numeric operating setting (R193); none for one that is written as a code. -/
def settingLimits? : OperatingSetting → Option (Int × Int)
  | .lockWindow => some (1, 2700)
  | .stepThreshold => some (270, 2700000)
  | .emissionTolerance => some (1, 27000)
  | .holdoverRate => some (0, 65535)
  | .acquireGp => some (0, 15)
  | .acquireGi => some (0, 15)
  | .trackGp => some (0, 15)
  | .trackGi => some (0, 15)
  | .steeringCentre => some (-32768, 32767)
  | .markTolerance => some (1, 27000)
  | .feedGapLimit => some (1, 1000)
  | .feedMuteDelay => some (0, 10000)
  | .armLead => some (500, 30000)
  | .loadIdleLimit => some (100, 60000)
  | .checkModeInsertion => none
  | .checkModeSite => none
  | .timeMessageBaud => none

/-- The number of choices of a setting that is written as a code (R193, R204). -/
def settingChoices : OperatingSetting → Nat
  | .checkModeInsertion => 2
  | .checkModeSite => 2
  | .timeMessageBaud => 4
  | .lockWindow => 0
  | .stepThreshold => 0
  | .emissionTolerance => 0
  | .holdoverRate => 0
  | .acquireGp => 0
  | .acquireGi => 0
  | .trackGp => 0
  | .trackGi => 0
  | .steeringCentre => 0
  | .markTolerance => 0
  | .feedGapLimit => 0
  | .feedMuteDelay => 0
  | .armLead => 0
  | .loadIdleLimit => 0

/-- The settings with an operating setting replaced. -/
def Settings.put (x : Settings) (o : OperatingSetting) (v : Int) : Settings :=
  match o with
  | .lockWindow => { x with lockWindow := v.toNat }
  | .stepThreshold => { x with stepThreshold := v.toNat }
  | .emissionTolerance => { x with emissionTolerance := v.toNat }
  | .holdoverRate => { x with holdoverRate := v.toNat }
  | .acquireGp => { x with acquireGp := v.toNat }
  | .acquireGi => { x with acquireGi := v.toNat }
  | .trackGp => { x with trackGp := v.toNat }
  | .trackGi => { x with trackGi := v.toNat }
  | .steeringCentre => { x with steeringCentre := v }
  | .markTolerance => { x with markTolerance := v.toNat }
  | .feedGapLimit => { x with feedGapLimit := v.toNat }
  | .feedMuteDelay => { x with feedMuteDelay := v.toNat }
  | .armLead => { x with armLead := v.toNat }
  | .loadIdleLimit => { x with loadIdleLimit := v.toNat }
  | .checkModeInsertion => { x with checkModeInsertion := decide (v = 1) }
  | .checkModeSite => { x with checkModeSite := decide (v = 1) }
  | .timeMessageBaud => { x with baud := v.toNat }

/-- An operating setting's value, or its code (R193, R204). -/
def Settings.get (x : Settings) : OperatingSetting → Int
  | .lockWindow => x.lockWindow
  | .stepThreshold => x.stepThreshold
  | .emissionTolerance => x.emissionTolerance
  | .holdoverRate => x.holdoverRate
  | .acquireGp => x.acquireGp
  | .acquireGi => x.acquireGi
  | .trackGp => x.trackGp
  | .trackGi => x.trackGi
  | .steeringCentre => x.steeringCentre
  | .markTolerance => x.markTolerance
  | .feedGapLimit => x.feedGapLimit
  | .feedMuteDelay => x.feedMuteDelay
  | .armLead => x.armLead
  | .loadIdleLimit => x.loadIdleLimit
  | .checkModeInsertion => if x.checkModeInsertion then 1 else 0
  | .checkModeSite => if x.checkModeSite then 1 else 0
  | .timeMessageBaud => x.baud

/-- The value that a write makes live, with its result; none where the write is refused (R193). -/
def settingTaken? (o : OperatingSetting) (v : Int) : Option (Int × ResultCode) :=
  match settingLimits? o with
  | some (lo, hi) => some (clampInt lo hi v, if lo ≤ v ∧ v ≤ hi then .done else .clamped)
  | none => if 0 ≤ v ∧ v < settingChoices o then some (v, .done) else none

/-- What a write does beyond the value itself: the emission tolerance is compared with H at once, a baud abandons an assembly
(R23), and a feed mute delay already reached sets FEED (R63). -/
def State.applySetting (s : State) (o : OperatingSetting) : State :=
  match o with
  | .emissionTolerance => (s.setTbu (s.tbu.expire s.sst.live)).afterTbu s.tbu.state
  | .timeMessageBaud => s.setTbu { s.tbu with assembly := none }
  | .feedMuteDelay => if s.feedOutDue then s.feedOut else s
  | .lockWindow => s
  | .stepThreshold => s
  | .holdoverRate => s
  | .acquireGp => s
  | .acquireGi => s
  | .trackGp => s
  | .trackGi => s
  | .steeringCentre => s
  | .markTolerance => s
  | .feedGapLimit => s
  | .armLead => s
  | .loadIdleLimit => s
  | .checkModeInsertion => s
  | .checkModeSite => s

/-- An operating setting write at its owner (R193). -/
def ownOperating (o : OperatingSetting) (value : Word32) (s : State) : Taken :=
  match settingTaken? o value.toInt with
  | some (v, code) =>
    { state := (s.setLive (s.sst.live.put o v) (decide (s.sst.live.get o ≠ v))).applySetting o
      code := code
      value := if code = .clamped then toBytesSigned v else [] }
  | none => { state := s, code := .invalid }

/-- OPERATING_SETTING_WRITE (R193). -/
def execOperatingSettingWrite (r : Role) (o : OperatingSetting) (value : Word32) (s : State) : Answer :=
  ifRunning s (·.takeWrite r settingsObject true (ownOperating o value))

/-! ## The stored image (R194 to R196) -/

/-- The operating settings, in the order of R193's table. -/
def operatingSettings : List OperatingSetting :=
  [.lockWindow, .stepThreshold, .emissionTolerance, .holdoverRate, .acquireGp, .acquireGi, .trackGp, .trackGi, .steeringCentre,
   .markTolerance, .feedGapLimit, .feedMuteDelay, .armLead, .loadIdleLimit, .checkModeInsertion, .checkModeSite, .timeMessageBaud]

/-- A flag as one byte, 1 where it is set. The manual gives these codes for some flags (R201, R206), and for the others they are
the model's: DESIGN CHOICE, log 20. -/
def flagByte (b : Bool) : Byte := if b then 1#8 else 0#8

/-- A stream map entry's five bytes (R204). The service and clock flag bytes of a CARRY or DROP entry are 0: DESIGN CHOICE,
log 20. -/
def MapEntry.bytes (e : MapEntry) : List Byte :=
  toBytes 2 e.stream ++
    (match e.cls with
    | .carry => [1#8, 0#8, 0#8]
    | .service v clock => 2#8 :: toBytes 1 v.num ++ [flagByte clock]
    | .drop => [3#8, 0#8, 0#8])

/-- A write-once setting in the image: whether it is marked set, and its value (R194). -/
def onceImageBytes (v : Option Int) : List Byte := flagByte v.isSome :: toBytesSigned (v.getD 0)

/-- The bytes of an image that its CRC covers: the format number, the operating settings in the order of R193, the stream map with
its length before it, and the write-once settings in the order of R192 (R194). The manual states these parts and not their
layout, which is the model's (log 8). -/
def imageBytes (format : Byte) (x : Settings) : List Byte :=
  format :: operatingSettings.flatMap (fun o => toBytesSigned (x.get o))
    ++ toBytes 1 x.map.length ++ x.map.flatMap MapEntry.bytes
    ++ onceImageBytes (x.siteNumber.map Int.ofNat) ++ onceImageBytes (x.areaCode.map Int.ofNat)
    ++ onceImageBytes x.siteOffset ++ onceImageBytes (x.ringSize.map Int.ofNat)

/-- The CRC-32 of an image (R194). -/
def imageCrc (format : Byte) (x : Settings) : Word32 := crc32 (imageBytes format x)

/-- The image that a completed save leaves (R194, R195). -/
def savedImage (x : Settings) : StoredImage :=
  { content := x, format := Config.imageFormat, crc := imageCrc Config.imageFormat x }

/-- SAVE SETTINGS at its owner (R184, R195): the copy is taken, the image is marked invalid, and the site role's hold begins. What
of the copy has reached the memory while the save is in progress, and so after an abandoned one (R196), is left open: the model
keeps the earlier contents under the mark (log 8). -/
def ownSaveSettings (s : State) : Taken :=
  let s1 := s.setSst { s.sst with
    image := { s.sst.image with format := Config.imageErased }
    imageState := .invalid
    save := some { copy := s.sst.live, elapsed := 0 } }
  { state := s1.updatePort .site (fun p => { p with hold := true }), code := .inProgress }

/-- SAVE_SETTINGS (R195). -/
def execSaveSettings (r : Role) (s : State) : Answer := ifRunning s (·.takeCommand r .saveSettings [] ownSaveSettings)

/-- The site role's port as a save ends: no hold, and IN-PROGRESS becomes DONE with echo and sequence kept (R184, R195). -/
def RolePort.endSave (p : RolePort) : RolePort :=
  { p with
    hold := false
    result := if p.result.code = .inProgress then { p.result with code := .done } else p.result }

/-- SAVE_COMPLETE (R195): the image holds the copy and is valid. -/
def execSaveComplete (s : State) : Answer :=
  ifRunning s fun s =>
    match s.sst.save with
    | some v =>
      (s.setSst { s.sst with
        image := savedImage v.copy
        imageState := .valid
        unsaved := false
        save := none }).updatePort .site RolePort.endSave
    | none => s

/-- A value lies in its range, or names a choice (R193). -/
def settingAdmits (o : OperatingSetting) (v : Int) : Bool :=
  match settingLimits? o with
  | some (lo, hi) => decide (lo ≤ v) && decide (v ≤ hi)
  | none => decide (0 ≤ v) && decide (v < settingChoices o)

/-- A write-once setting of an image, where it is marked set, lies in its range (R194). -/
def Settings.onceInRange (x : Settings) : Bool :=
  x.siteNumber.all (fun v => onceAdmits .siteNumber v)
    && x.areaCode.all (fun v => onceAdmits .areaCode v)
    && x.siteOffset.all (fun v => onceAdmits .siteOffset v)
    && x.ringSize.all (fun v => onceAdmits .ringSize v)

/-- No two entries share a stream id, and no service has two entries with the clock flag (R35). -/
def mapDistinct : List MapEntry → Bool
  | [] => true
  | e :: rest =>
    rest.all (fun f => decide (f.stream ≠ e.stream)) && !clockTaken rest e.stream e.cls && mapDistinct rest

/-- The conditions of R35 on a stream map. -/
def mapGood (map : List MapEntry) : Bool :=
  decide (map.length ≤ Config.mapPlaces) && map.all (fun e => decide (e.stream ≠ 8176) && decide (e.stream ≤ 8190))
    && mapDistinct map

/-- The judgement of the stored image: its format number is the one this part writes, its CRC matches, every value lies in its
range, and its stream map obeys R35 (R194). -/
def StoredImage.valid (i : StoredImage) : Bool :=
  decide (i.format = Config.imageFormat) && decide (i.crc = imageCrc i.format i.content) && i.content.onceInRange
    && operatingSettings.all (fun o => settingAdmits o (i.content.get o)) && mapGood i.content.map

end Machine
end Sys2Proof
end

