-- ==== Sys2Proof/Machine/Restart.lean ====
section
/-! DEFINITION. Power-on, the reset pin and the stream restart (10_settings_and_restart.md, sections 10.3 to 10.5). -/

namespace Sys2Proof
namespace Machine

/-! ## Power-on and the reset pin (R196, R197, R200) -/

/-- The part in reset: every block goes to its reset state, which the settings complete as reset ends. A save in progress is
abandoned with its image left invalid (R196), CARINH is asserted, the emission port idle, the steering and alert lines quiet
and no phase in progress (R174, R200). What stays is the stored image, the packet memory (R197) and what stands outside the
part: the word the oscillator holds (R20), the level of REFOK and the senders' queue. -/
def State.enterReset (s : State) (source : ResetSource) : State :=
  { inReset := some source
    refok := s.refok
    tbu := { shifting := none, loaded := s.tbu.loaded }
    csc := { memory := s.csc.memory }
    sst := { image := s.sst.image }
    pending := s.pending
    choices := s.choices }

/-- POWER_ON (R197). -/
def execPowerOn (s : State) : Answer := .next (s.enterReset .powerOn)

/-- RESET_PIN (R197): RESETN is asserted. -/
def execResetPin (s : State) : Answer := .next (s.enterReset .resetPin)

/-- The settings that a load gives: the image's where it is valid, otherwise the defaults with every write-once setting unset
(R197). -/
def loadedSettings (i : StoredImage) : Settings := if i.valid then i.content else {}

/-- The Settings Store as reset ends (R197, R198). -/
def Sst.loaded (x : Sst) (source : ResetSource) : Sst :=
  { live := loadedSettings x.image
    image := x.image
    imageState := if x.image.valid then .valid else .invalid
    unsaved := false
    save := none
    cause := match source with | .powerOn => .powerOn | .resetPin => .resetPin
    storeInvalid := !x.image.valid }

/-- The active ring size that a load gives (R41). -/
def Settings.activeRing (x : Settings) : Nat := x.ringSize.getD 16384

/-- The Time Base Unit as reset ends, the reset word of the steering centre being shifted out (R20, R24). -/
def Tbu.afterReset (x : Settings) (loaded : Option Word16) : Tbu :=
  { integrator := x.steeringCentre * 65536
    steer := x.steeringCentre
    shifting := some (BitVec.ofInt 16 (x.steeringCentre + 32768))
    loaded := loaded }

/-- The Feed Intake as reset ends (R43). -/
def Fiu.afterReset (x : Settings) : Fiu := { gapLimit := x.feedGapTicks, ringSize := x.activeRing }

/-- The Emission Scheduler as reset ends (R64). -/
def Esc.afterReset (x : Settings) : Esc :=
  if x.feedMuteDelay = 0 then { mute := { feed := true }, feedOutTimer := none } else {}

/-- The one free run after a reset: the clip store behind a ring of a size (R112, R117). -/
def clipStoreRun (ringSize : Nat) : FreeRun :=
  { first := ringSize / Config.slotsPerBlock, count := Config.memoryBlocks - ringSize / Config.slotsPerBlock }

/-- The Clip Store Controller as reset ends; the DRAM keeps its contents (R135). -/
def Csc.afterReset (c : Csc) (x : Settings) : Csc := { memory := c.memory, freeRuns := [clipStoreRun x.activeRing] }

/-- The insertion role's address at a pair of strap levels; the site role's is one more (R174). -/
def roleAddress (a1 a2 : Bool) : BitVec 7 := 0x30#7 + (if a2 then 4#7 else 0#7) + (if a1 then 2#7 else 0#7)

/-- The RESTARTED notice as reset ends (R190). -/
def restartedNotice (x : Sst) : Notice :=
  { kind := .restarted, subject := .none, detail := .restart x.cause x.storeInvalid, time := {} }

/-- The Management Port as reset ends (R190). -/
def Mgp.afterReset (x : Sst) (a1 a2 : Bool) : Mgp :=
  { insertionAddress := roleAddress a1 a2
    siteAddress := roleAddress a1 a2 + 1#7
    ports := ⟨{ notices := [restartedNotice x] }, { notices := [restartedNotice x] }⟩ }

/-- The part as reset ends with the strap levels sampled (R197). -/
def State.endReset (s : State) (source : ResetSource) (a1 a2 : Bool) : State :=
  let sst := s.sst.loaded source
  { inReset := none
    refok := s.refok
    tbu := Tbu.afterReset sst.live s.tbu.loaded
    fiu := Fiu.afterReset sst.live
    esc := Esc.afterReset sst.live
    csc := s.csc.afterReset sst.live
    mgp := Mgp.afterReset sst a1 a2
    sst := sst
    pending := s.pending
    choices := s.choices }

/-- RESET_ENDS (R197). -/
def execResetEnds (a1 a2 : Bool) (s : State) : Answer :=
  match s.inReset with
  | some source => .next (s.endReset source a1 a2)
  | none => .next s

/-! ## The stream restart (R199) -/

/-- The reset cause becomes STREAM-RESTART, the flag stays, and RESTARTED goes to both roles (R190, R198). -/
def State.noteRestart (s : State) : State :=
  (s.setSst { s.sst with cause := .streamRestart }).raiseBoth .restarted .none (.restart .streamRestart s.sst.storeInvalid)

/-- The restart at the Feed Intake (R43), with the feed-out timer (R58). -/
def State.restartFiu (s : State) : State :=
  State.setFeed (s.setFiu { s.fiu with
    framing := .noPacket
    goodRun := 0
    badRun := 0
    gapTimer := some 0
    gapLimit := s.sst.live.feedGapTicks
    slotCounter := 0
    writeBuffer := []
    handoff := [] }) .absent

/-- A waiting fetch read at a restart: ring reads leave, and clip reads stay with their results to be discarded (R131, R135). -/
def FetchRead.atRestart : FetchRead → Option FetchRead
  | .ring _ _ => none
  | .clip slot _ position id k address => some (.clip slot false position id k address)

/-- A read already taken at a restart completes and is discarded (R65, R135). -/
def TakenRead.atRestart : TakenRead → TakenRead
  | .ring slot _ mark bytes => .ring slot false mark bytes
  | .clip slot _ result => .clip slot false result

/-- The restart at the Clip Store Controller (R114, R135). -/
def State.restartCsc (s : State) : State :=
  s.setCsc { s.csc with
    written := []
    reads := s.csc.reads.filterMap FetchRead.atRestart
    taken := s.csc.taken.map TakenRead.atRestart }

/-- The restart at the Directive Decoder (R81). -/
def State.restartDdc (s : State) : State := s.setDdc { s.ddc with inHand := none, lastSeq := none }

/-- The restart at the Emission Scheduler (R65). -/
def State.restartEsc (s : State) : State :=
  State.setMute (s.setEsc { s.esc with
    running := false
    anchors := []
    next := none
    fetchPos := none
    requested := []
    fills := []
    lastEmission := s.esc.lastDriven }) .schedule true

/-- The restart at one break entry (R111). -/
def State.restartEntry (s : State) (e : BreakEntry) : State :=
  if e.state = .active ∨ (e.state = .fallback ∧ e.windowOpen = true) then s.finishBreak e .ended .restart
  else if e.state = .armed then s.fallBack e .notRunning
  else s

/-- The restart at the Break Plan Unit, entry by entry in the order of the table (R111). -/
def State.restartBpu (s : State) : State := s.bpu.table.foldl State.restartEntry s

/-- The slate of a service released by the restart (R173). -/
def State.releaseAtRestart (s : State) (v : Service) : State :=
  match (s.spe.services.get v).slate with
  | some id => s.dropSlate v id
  | none => s

/-- The restart at the Splice Engine (R173). The current fetch instant becomes none, as at reset, which is the model's choice
(log 37). -/
def State.restartSpe (s : State) : State :=
  let s1 := Service.all.foldl State.releaseAtRestart s
  s1.setSpe { counters := s1.spe.counters }

/-- STREAM RESTART at its owners, in the order of R199. -/
def ownStreamRestart (s : State) : Taken :=
  { state := s.noteRestart.restartFiu.restartCsc.restartDdc.restartEsc.restartBpu.restartSpe, code := .done }

/-- STREAM_RESTART (R199). -/
def execStreamRestart (r : Role) (s : State) : Answer := ifRunning s (·.takeCommand r .streamRestart [] ownStreamRestart)

end Machine
end Sys2Proof
end

