-- ==== Sys2Proof/Machine/Objects.lean ====
section
/-! DEFINITION. The byte layouts of the objects that the management bus reads (12_formats.md, R201 and R204 to R206). -/

namespace Sys2Proof
namespace Machine

/-! ## Codes (R201, R206) -/

/-- The code of a discipline state (R206). -/
def DisciplineState.code : DisciplineState → Nat
  | .unset => 0
  | .acquiring => 1
  | .locked => 2
  | .holdover => 3
  | .expired => 4

/-- The code of a holdover cause, 0 for none (R13, R201). -/
def holdoverCode : Option HoldoverCause → Nat
  | none => 0
  | some .refLost => 1
  | some .refJump => 2
  | some .pulseMissing => 3
  | some .timeMismatch => 4

/-- The code of a feed state (R206). -/
def FeedState.code : FeedState → Nat
  | .absent => 0
  | .syncing => 1
  | .on => 2
  | .lost => 3

/-- The mute reason set as one byte (R206). -/
def MuteReasons.code (m : MuteReasons) : Nat :=
  (if m.timing then 1 else 0) + (if m.feed then 2 else 0) + (if m.network then 4 else 0) + (if m.site then 8 else 0)
    + (if m.schedule then 16 else 0)

/-- The code of CARINH (R206). -/
def Carinh.code : Carinh → Nat
  | .released => 0
  | .pending => 1
  | .asserted => 2

/-- The code of a source (R206). -/
def Source.code : Source → Nat
  | .programme => 0
  | .clip => 1
  | .blank => 2
  | .slate => 3

/-- The code of a window (R206). -/
def Window.code : Window → Nat
  | .none => 0
  | .clip _ => 1
  | .blank _ => 2

/-- The code of a reset cause (R201). -/
def ResetCause.code : ResetCause → Nat
  | .none => 0
  | .powerOn => 1
  | .resetPin => 2
  | .streamRestart => 3

/-- The code of a policy (R203). -/
def Policy.code : Policy → Nat
  | .carry => 0
  | .blank => 1

/-- The code of a fallback reason: its row in R139, and LATE 8 (R201). -/
def FallbackReason.code : FallbackReason → Nat
  | .noBooking => 1
  | .clipNotReady => 2
  | .planMismatch => 3
  | .streamMismatch => 4
  | .noClock => 5
  | .notRunning => 6
  | .timing => 7
  | .late => 8

/-- The code of a pending closure (R201). -/
def closureCode : Option Closure → Nat
  | none => 0
  | some .shortened => 1
  | some .cancelled => 2

/-- The code of an outcome: its place in R83 (R201). -/
def BreakOutcome.code : BreakOutcome → Nat
  | .played => 1
  | .shortened => 2
  | .fallbackCarry => 3
  | .fallbackBlank => 4
  | .missed => 5
  | .restart => 6
  | .cancelled => 7

/-- The code of a clip state (R201). -/
def ClipState.code : ClipState → Nat
  | .loading => 1
  | .ready => 2
  | .fault => 3

/-- The code of a clip fault cause (R201). -/
def FaultCause.code : FaultCause → Nat
  | .fingerprint => 1
  | .foreign => 2
  | .timeout => 3
  | .noClock => 4
  | .memory => 5

/-- The code of a notice kind: its row in R187 (R201). -/
def NoticeKind.code : NoticeKind → Nat
  | .restarted => 1
  | .timeState => 2
  | .steerLimit => 3
  | .feedState => 4
  | .markStep => 5
  | .carrierState => 6
  | .noticeRefused => 7
  | .breakAnnounced => 8
  | .breakRevised => 9
  | .bookingConfirmed => 10
  | .reservationBroken => 11
  | .bookingCleared => 12
  | .breakArmed => 13
  | .breakFallback => 14
  | .breakStarted => 15
  | .breakEnded => 16
  | .clipReady => 17
  | .clipFault => 18
  | .localDeviation => 19

/-- The code of a NOTICE-REFUSED detail (R201). -/
def NoticeRefusal.code : NoticeRefusal → Nat
  | .incomplete => 1
  | .planFull => 2
  | .overlap => 3
  | .late => 4
  | .invalid => 5

/-- The code of a result: its row in R183 (R201). -/
def ResultCode.code : ResultCode → Nat
  | .done => 1
  | .clamped => 2
  | .inProgress => 3
  | .busy => 4
  | .rights => 5
  | .stale => 6
  | .closed => 7
  | .state => 8
  | .invalid => 9
  | .noSpace => 10
  | .notFound => 11
  | .duplicate => 12
  | .full => 13
  | .pinned => 14
  | .locked => 15
  | .none => 16
  | .check => 17

/-! ## Parts of layouts -/

/-- A time in 8 bytes (R204). -/
def SiteTime.bytes (t : SiteTime) : List Byte := toBytes 4 t.sec.toNat ++ toBytes 4 t.tick

/-- An optional field of `n` bytes behind its presence byte, zeros where it is absent (R204, R205). A presence byte that is set
is 1: DESIGN CHOICE, log 20. -/
def optionalBytes {α : Type} (n : Nat) (f : α → List Byte) : Option α → List Byte
  | some x => 1#8 :: f x
  | none => 0#8 :: List.replicate n 0#8

/-- A list of at most eight values of `n` bytes, behind a length byte and filled up with zeros (R204). -/
def listBytes (n : Nat) (xs : List Nat) : List Byte :=
  toBytes 1 xs.length ++ padTo (8 * n) (xs.flatMap (toBytes n))

/-! ## Notices and results -/

/-- The subject of a notice: its type and four bytes (R204). The four bytes of no subject are 0: DESIGN CHOICE, log 20. -/
def Subject.bytes : Subject → List Byte
  | .none => 0#8 :: List.replicate 4 0#8
  | .breakNumber n => 1#8 :: toBytes 4 n.toNat
  | .clipId id => 2#8 :: toBytes 4 id.toNat

/-- The bytes of a detail (R201, R204). The new revision of BREAK-REVISED stands in bytes 1 and 2: DESIGN CHOICE, log 20. -/
def Detail.codes : Detail → List Byte
  | .none => []
  | .restart cause invalid => toBytes 1 cause.code ++ [flagByte invalid]
  | .time state cause => toBytes 1 state.code ++ toBytes 1 (holdoverCode cause)
  | .steer upper => [if upper then 1#8 else 2#8]
  | .feed state => toBytes 1 state.code
  | .mark seq => [seq]
  | .mute reasons => toBytes 1 reasons.code
  | .refusal why => toBytes 1 why.code
  | .revision r => toBytes 2 r.toNat
  | .booking reference r => toBytes 4 reference.toNat ++ toBytes 2 r.toNat
  | .reason r => toBytes 1 r.code
  | .startedClip => [1#8]
  | .startedBlank => [2#8]
  | .ended o => toBytes 1 o.code
  | .fault c => toBytes 1 c.code
  | .forced v => 1#8 :: toBytes 1 v.num
  | .released v => 2#8 :: toBytes 1 v.num

/-- A notice's 20 bytes (R204). The bytes of the detail that its kind does not use are 0: DESIGN CHOICE, log 20. -/
def Notice.bytes (n : Notice) : List Byte :=
  toBytes 1 n.kind.code ++ n.subject.bytes ++ padTo 6 n.detail.codes ++ n.time.bytes

/-- The notice head: the oldest notice, or the empty notice whose kind is NONE (R180, R204). The other bytes of the empty notice
are 0: DESIGN CHOICE, log 20. -/
def RolePort.headBytes (p : RolePort) : List Byte :=
  match p.notices with
  | n :: _ => n.bytes
  | [] => List.replicate 20 0#8

/-- The notice count object (R181, R204). -/
def RolePort.countBytes (p : RolePort) : List Byte := toBytes 1 p.notices.length ++ toBytes 4 p.counters.noticesLost

/-- The result object (R204). With no echo, as after reset (R183), the echo bytes are 0: DESIGN CHOICE, log 20. -/
def ResultObject.bytes (x : ResultObject) : List Byte :=
  toBytes 2 ((x.echo.map (·.toNat)).getD 0) ++ toBytes 1 x.code.code ++ [x.seq] ++ padTo 8 x.value

/-- The command object as read (R204). -/
def commandBytes (c : Option (List Byte)) : List Byte := padTo 14 (c.getD [])

/-- The reset cause object (R198, R201). -/
def Sst.causeBytes (x : Sst) : List Byte := toBytes 1 x.cause.code ++ [flagByte x.storeInvalid]

/-! ## Settings and the stream map -/

/-- The settings object as read (R204). An unset site number or area code reads as 0: DESIGN CHOICE, log 20. -/
def Sst.settingsBytes (x : Sst) : List Byte :=
  toBytes 4 (x.live.siteNumber.getD 0) ++ toBytes 4 (x.live.areaCode.getD 0) ++ toBytesSigned (x.live.siteOffset.getD 0)
    ++ toBytes 4 (x.live.ringSize.getD 16384)
    ++ operatingSettings.flatMap (fun o => toBytesSigned (x.live.get o))
    ++ [WriteOnceSetting.siteNumber, .areaCode, .siteOffset, .ringSize].map (fun w => flagByte (x.live.locked w))
    ++ [flagByte (decide (x.imageState = .valid)), flagByte x.save.isSome, flagByte x.unsaved]

/-! ## Staging, break table and clip directory -/

/-- The reservation of a staging record as read (R205). -/
def Reservation.bytes : Reservation → List Byte
  | .none => List.replicate 5 0#8
  | .held n r => 1#8 :: toBytes 2 n.toNat ++ toBytes 2 r.toNat
  | .orphaned n => 2#8 :: toBytes 2 n.toNat ++ [0#8, 0#8]

/-- The marks of a staging record, bit 0 the reference, bit 1 the length, bits 2 to 9 the positions (R205). -/
def Staging.marks (st : Staging) : Nat :=
  (if st.reference.mark then 1 else 0) + (if st.length.mark then 2 else 0)
    + 4 * st.positions.foldr (fun p acc => (if p.mark then 1 else 0) + 2 * acc) 0

/-- The staging object as read, 44 bytes (R205). -/
def Staging.bytes (st : Staging) : List Byte :=
  st.reservation.bytes ++ toBytes 2 st.marks ++ toBytes 4 st.reference.value.toNat ++ [st.length.value]
    ++ st.positions.flatMap (fun p => toBytes 4 p.value.toNat)

/-- A booking in a break table position (R83, R204). -/
def Booking.bytes (b : Booking) : List Byte :=
  listBytes 4 (b.clips.map (·.toNat)) ++ toBytes 4 b.reference.toNat ++ toBytes 1 (bookedByCode (some b))
    ++ toBytes 4 b.combined.toNat

/-- A break table position (R83, R204). -/
def BreakEntry.bytes (e : BreakEntry) : List Byte :=
  toBytes 2 e.number.toNat ++ toBytes 1 e.service.num ++ [e.area] ++ e.start.bytes ++ e.finish.bytes ++ e.arm.bytes
    ++ optionalBytes 4 (fun p => toBytes 4 p.toNat) e.plan ++ toBytes 1 e.policy.code ++ toBytes 1 e.state.code
    ++ toBytes 2 e.revision.toNat ++ optionalBytes 42 Booking.bytes e.booking
    ++ optionalBytes 1 (fun r => toBytes 1 r.code) e.reason ++ [flagByte e.windowOpen] ++ toBytes 1 (closureCode e.closure)
    ++ optionalBytes 1 (fun o => toBytes 1 o.code) e.outcome
    ++ toBytes 4 e.started ++ toBytes 4 e.underrun ++ toBytes 4 e.overrun

/-- The bytes of a break table position (R204). -/
def breakObjectBytes : Nat := 98

/-- A clip directory position (R115, R204). Its block count takes two bytes, and a clock stamp is shown as its value in ticks, in
six bytes: DESIGN CHOICE, log 20. -/
def Clip.bytes (c : Clip) : List Byte :=
  toBytes 4 c.id.toNat ++ toBytes 1 c.service.num ++ toBytes 1 c.state.code
    ++ optionalBytes 1 (fun f => toBytes 1 f.code) c.cause ++ toBytes 2 c.firstBlock ++ toBytes 2 c.blockCount
    ++ toBytes 4 c.expected ++ toBytes 4 c.stored ++ toBytes 4 c.expectedFp.toNat ++ toBytes 4 c.computedFp.toNat
    ++ listBytes 2 c.streams ++ optionalBytes 6 (toBytes 6) c.firstStamp ++ optionalBytes 6 (toBytes 6) c.lastStamp
    ++ toBytes 4 c.pins ++ optionalBytes 8 SiteTime.bytes c.completed

/-- The bytes of a clip directory position (R204). -/
def clipObjectBytes : Nat := 72

/-! ## Counters (R185, R204) -/

/-- The TBU's counters in the order of R22. -/
def TbuCounters.all (c : TbuCounters) : List Nat :=
  [c.timeSteps, c.ignoredPulses, c.extraPulses, c.missingPulses, c.referenceOutliers, c.messageMismatches, c.badTimeMessages]

/-- The FIU's counters in the order of R42. -/
def FiuCounters.all (c : FiuCounters) : List Nat :=
  [c.shortPackets, c.longPackets, c.badPackets, c.erroredPackets, c.droppedPackets, c.handoffLosses, c.intakeOverruns,
   c.latePackets, c.ringOverruns, c.feedLosses]

/-- The ESC's counters in the order of R62. -/
def EscCounters.all (c : EscCounters) : List Nat :=
  [c.marksRefused, c.anchorOverflows, c.scheduleSteps, c.markCountMismatches, c.markSequenceGaps, c.skippedSlots, c.absentSlots,
   c.emissionMemoryFaults, c.fetchLate, c.fillPackets, c.carrierCutoffs]

/-- The DDC's counters in the order of R80. -/
def DdcCounters.all (c : DdcCounters) : List Nat :=
  [c.accepted, c.errored, c.formatRefused, c.checkFailures, c.missed, c.overruns, c.unknown, c.malformed, c.otherAreas,
   c.otherSites, c.marksWithoutFeed, c.incompleteNotices]

/-- The BPU's counters in the order of R109. -/
def BpuCounters.all (c : BpuCounters) : List Nat :=
  [c.noticesRefused, c.lateRevisions, c.unknownCancels, c.returnsIgnored, c.bookingsConfirmed, c.confirmsRefused, c.missedBreaks]

/-- The CSC's counters in the order of R133. -/
def CscCounters.all (c : CscCounters) : List Nat :=
  [c.packetsRefused, c.shortPackets, c.longPackets, c.badPackets, c.clipsReady, c.clipsFaulted, c.clipMemoryFaults]

/-- The SPE's counters in the order of R172. -/
def SpeCounters.all (c : SpeCounters) : List Nat :=
  [c.requestsRefused, c.clipReadsLate, c.unrebasedPasses, c.scrambledUnitStamps, c.discontinuityMarksSet, c.continuityBreaks]

/-- A role's MGP counters in the order of R189. -/
def MgpCounters.all (c : MgpCounters) : List Nat :=
  [c.malformedWrites, c.checkFailures, c.overlongWrites, c.rightsRefusals, c.refusedDuringSave, c.noticesLost]

/-- Every counter of the part in the order of the counters object (R185, R204). -/
def State.counters (s : State) : List Nat :=
  s.tbu.counters.all ++ s.fiu.counters.all ++ s.esc.counters.all ++ s.ddc.counters.all ++ s.bpu.counters.all
    ++ s.csc.counters.all ++ s.spe.counters.all ++ s.mgp.ports.insertion.counters.all ++ s.mgp.ports.site.counters.all

/-! ## The status summary (R206) -/

/-- The Time Base Unit's part, offsets 0 to 22. -/
def Tbu.summary (t : Tbu) : List Byte :=
  toBytes 1 t.state.code ++ toBytes 1 (holdoverCode t.cause)
    ++ toBytes 1 ((if t.state.fit then 1 else 0) + (if t.integratorSat then 2 else 0) + (if t.steerSat then 4 else 0))
    ++ t.time.bytes ++ toBytes 2 (BitVec.ofInt 16 t.steer).toNat ++ toBytes 4 t.n ++ toBytes 6 t.h

/-- The Feed Intake's part, offsets 23 to 30. -/
def Fiu.summary (f : Fiu) : List Byte :=
  toBytes 1 f.state.code ++ toBytes 4 f.slotCounter.toNat ++ toBytes 1 f.writeBuffer.length ++ toBytes 2 f.ringSize

/-- The newest anchor's fields, 0 where no anchor is queued. -/
def anchorSummary (a : Option Anchor) : List Byte :=
  match a with
  | some x => [x.seq] ++ toBytes 2 (x.period / Config.unitsPerTick) ++ toBytes 3 (x.period % Config.unitsPerTick)
  | none => List.replicate 6 0#8

/-- The Emission Scheduler's part, offsets 31 to 40. -/
def Esc.summary (e : Esc) : List Byte :=
  [flagByte e.running] ++ toBytes 1 e.anchors.length ++ anchorSummary e.anchors.getLast?
    ++ toBytes 1 e.mute.code ++ toBytes 1 e.carinh.code

/-- The Directive Decoder's part, offsets 41 to 43. -/
def Ddc.summary (d : Ddc) : List Byte :=
  match d.lastSeq with
  | some q => 1#8 :: toBytes 2 q.toNat
  | none => List.replicate 3 0#8

/-- The Break Plan Unit's part, offsets 44 and 45. -/
def Bpu.summary (b : Bpu) : List Byte :=
  toBytes 1 b.table.length ++ toBytes 1 (b.table.filter (fun e => !e.state.finished)).length

/-- The open load's fields, 0 where none is open. -/
def Csc.loadSummary (c : Csc) : List Byte :=
  match c.load with
  | some l =>
    match clipAt? c.directory l.position with
    | some clip => 1#8 :: toBytes 4 clip.id.toNat ++ toBytes 4 l.accepted ++ toBytes 4 clip.stored
    | none => List.replicate 13 0#8
  | none => List.replicate 13 0#8

/-- The Clip Store Controller's part, offsets 46 to 63. -/
def Csc.summary (c : Csc) : List Byte :=
  toBytes 2 (c.freeRuns.map (·.count)).sum ++ toBytes 1 c.freeRuns.length
    ++ toBytes 2 ((c.freeRuns.map (·.count)).foldl max 0) ++ c.loadSummary

/-- A service's nine bytes. -/
def ServiceState.summary (x : ServiceState) : List Byte :=
  toBytes 1 x.source.code ++ toBytes 1 x.window.code ++ toBytes 2 ((x.window.number?.map (·.toNat)).getD 0)
    ++ toBytes 4 ((x.slate.map (·.toNat)).getD 0) ++ [flagByte x.tracker.isSome]

/-- The status summary, 100 bytes (R206). -/
def State.summary (s : State) : List Byte :=
  s.tbu.summary ++ s.fiu.summary ++ s.esc.summary ++ s.ddc.summary ++ s.bpu.summary ++ s.csc.summary
    ++ Service.all.flatMap (fun v => (s.spe.services.get v).summary)

/-! ## The object window (R176) -/

/-- The object of a number as a role reads it, none for a number that names no object (R176, R205). -/
def State.object? (s : State) (r : Role) (n : Nat) : Option (List Byte) :=
  let port := s.mgp.ports.get r
  if n = 0x0000 then some s.summary
  else if n = 0x0001 then some (s.counters.flatMap (toBytes 4))
  else if n = 0x0002 then some s.sst.causeBytes
  else if n = 0x0003 then some s.sst.settingsBytes
  else if n = 0x0010 then some (s.bpu.staging.get r).bytes
  else if n = 0x0011 then some (commandBytes port.command)
  else if n = 0x0012 then some port.result.bytes
  else if n = 0x0013 then some port.headBytes
  else if n = 0x0014 then some port.countBytes
  else if n = 0x0020 then some (toBytes 1 s.sst.live.map.length)
  else if 0x0021 ≤ n ∧ n ≤ 0x0040 then
    some (((s.sst.live.map[n - 0x0021]?).map MapEntry.bytes).getD (List.replicate 5 0#8))
  else if 0x0100 ≤ n ∧ n ≤ 0x010F then
    some (((s.bpu.table[n - 0x0100]?).map BreakEntry.bytes).getD (List.replicate breakObjectBytes 0#8))
  else if 0x0200 ≤ n ∧ n ≤ 0x023F then
    some (((clipAt? s.csc.directory (n - 0x0200 + 1)).map Clip.bytes).getD (List.replicate clipObjectBytes 0#8))
  else none

end Machine
end Sys2Proof
end

