-- ==== Sys2Proof/Machine/Port.lean ====
section
/-! DEFINITION. The Management Port: write phases, the two reads that change state, and CLEAR COUNTERS
(09_management_port.md). -/

namespace Sys2Proof
namespace Machine

/-! ## CLEAR COUNTERS (R185) -/

/-- A role's port with its counters 0. -/
def RolePort.clearCounters (p : RolePort) : RolePort := { p with counters := {} }

/-- Every counter of the part 0 (R185). -/
def State.clearCounters (s : State) : State :=
  { s with
    tbu := { s.tbu with counters := {} }
    fiu := { s.fiu with counters := {} }
    esc := { s.esc with counters := {} }
    ddc := { s.ddc with counters := {} }
    bpu := { s.bpu with counters := {} }
    csc := { s.csc with counters := {} }
    spe := { s.spe with counters := {} }
    mgp := { s.mgp with ports := ⟨s.mgp.ports.insertion.clearCounters, s.mgp.ports.site.clearCounters⟩ } }

/-- CLEAR COUNTERS at its owner (R185). -/
def ownClearCounters (s : State) : Taken := { state := s.clearCounters, code := .done }

/-- CLEAR_COUNTERS (R185). -/
def execClearCounters (r : Role) (s : State) : Answer := ifRunning s (·.takeCommand r .clearCounters [] ownClearCounters)

/-! ## Write phases (R174 to R178) -/

/-- The role that an address belongs to (R174). -/
def Mgp.roleOf? (m : Mgp) (address : BitVec 7) : Option Role :=
  if address = m.insertionAddress then some .insertion
  else if address = m.siteAddress then some .site
  else none

/-- A role's check mode (R178). -/
def Settings.checkMode (x : Settings) : Role → Bool
  | .insertion => x.checkModeInsertion
  | .site => x.checkModeSite

/-- How a write phase is read (R175, R178): no byte, its object number incomplete, its check byte wrong, or good. -/
inductive PhaseForm where
  | empty
  | malformed
  | checkFailed (object : Nat) (hasData : Bool)
  | good (object : Nat) (data : List Byte)
deriving DecidableEq, Repr

/-- The form of a write phase with its address byte (R175, R178). -/
def phaseForm (checkMode : Bool) (address : BitVec 7) (bytes : List Byte) : PhaseForm :=
  let body := if checkMode then bytes.dropLast else bytes
  let object := ofBytes (bytes.take 2)
  if bytes = [] then .empty
  else if body.length < 2 then .malformed
  else if checkMode = true ∧ bytes.getLast? ≠ some (crc8 (BitVec.ofNat 8 (address.toNat * 2) :: body)) then
    .checkFailed object (decide (2 < body.length))
  else .good object (body.drop 2)

/-- The number of the staging object (R176). -/
def stagingObject : Nat := 0x0010

/-- The number of the command object (R176). -/
def commandObject : Nat := 0x0011

/-- Bytes beyond a write form count once for the phase (R177). -/
def State.countOverlong (s : State) (r : Role) (form : Nat) (data : List Byte) : State :=
  if form < data.length then s.countPort r (fun c => { c with overlongWrites := bump c.overlongWrites }) else s

/-- The number that bytes `a` to `a + n - 1` of the data spell, counting from 0. -/
def dataNum (data : List Byte) (a n : Nat) : Nat := ofBytes ((data.drop a).take n)

/-- A clip id, fingerprint or count of a command's arguments (R204). -/
def argWord (args : List Byte) (a : Nat) : Word32 := BitVec.ofNat 32 (dataNum args a 4)

/-- A break number of a command's arguments (R204). -/
def argBreak (args : List Byte) : Word16 := BitVec.ofNat 16 (dataNum args 0 2)

/-- The owner of a command with its arguments (R182, R204). -/
def commandOwner (r : Role) (kind : CommandKind) (args : List Byte) : State → Taken :=
  match kind with
  | .reserve => ownReserve r (argBreak args)
  | .confirm => ownConfirm r
  | .discard => ownDiscard r
  | .findBreak => ownFindBreak (argBreak args)
  | .openLoad => ownOpenLoad (argWord args 0) (args.getD 4 0#8) (argWord args 5) (argWord args 9)
  | .abortLoad => ownAbortLoad (argWord args 0)
  | .retireClip => ownRetireClip (argWord args 0)
  | .clearBooking => ownClearBooking (argBreak args)
  | .forceSlate => ownForceSlate (args.getD 0 0#8) (argWord args 1)
  | .releaseSlate => ownReleaseSlate (args.getD 0 0#8)
  | .forceMute => ownForceMute
  | .releaseMute => ownReleaseMute
  | .saveSettings => ownSaveSettings
  | .streamRestart => ownStreamRestart
  | .clearCounters => ownClearCounters

/-- A write of the command object (R182): an unknown code, a role without the right, arguments too short, or the command
taken. -/
def State.writeCommand (s : State) (r : Role) (data : List Byte) : State :=
  let code := dataNum data 0 1
  let args := data.drop 1
  match CommandKind.ofCode? code with
  | none => s.record r code .invalid []
  | some kind =>
    let s1 := s.countOverlong r kind.argBytes args
    if kind.siteOnly ∧ r = .insertion then s1.refuseRights r code
    else if args.length < kind.argBytes then s1.record r code .invalid []
    else s1.takeCommand r kind (args.take kind.argBytes) (commandOwner r kind (args.take kind.argBytes))

/-- A settings write at its owner: a write too short for its form, or naming no setting, is refused (R191, R204). -/
def ownSettingsWrite (data : List Byte) (s : State) : Taken :=
  let code := dataNum data 0 1
  let value := argWord data 1
  if data.length < 5 then { state := s, code := .invalid }
  else
    match code with
    | 1 => ownWriteOnce .siteNumber value s
    | 2 => ownWriteOnce .areaCode value s
    | 3 => ownWriteOnce .siteOffset value s
    | 4 => ownWriteOnce .ringSize value s
    | _ =>
      if code < 0x10 then { state := s, code := .invalid }
      else
        match operatingSettings[code - 0x10]? with
        | some o => ownOperating o value s
        | none => { state := s, code := .invalid }

/-- A stream map edit record at its owner: a record too short, or of an unknown operation, is refused (R36, R204). -/
def ownEditRecord (data : List Byte) (s : State) : Taken :=
  if data.length < 6 then { state := s, code := .invalid }
  else
    match EditOp.ofCode? (dataNum data 0 1) with
    | some op =>
      ownMapEdit op (BitVec.ofNat 16 (dataNum data 1 2)) (data.getD 3 0#8) (data.getD 4 0#8) (data.getD 5 0#8) s
    | none => { state := s, code := .invalid }

/-- A write of an object of the site role: bytes beyond the write form are counted, the insertion role is refused RIGHTS, and
otherwise the owner takes the data up to the end of the form (R177, R189). -/
def State.writeSiteObject (s : State) (r : Role) (object form : Nat) (data : List Byte) (owner : List Byte → State → Taken) :
    State :=
  let s1 := s.countOverlong r form data
  if r = .insertion then s1.refuseRights r object else s1.takeWrite r object true (owner (data.take form))

/-- Steps 3 and 4 of R177, for a phase with data. -/
def State.writeObject (s : State) (r : Role) (object : Nat) (data : List Byte) : State :=
  if object = commandObject then s.writeCommand r data
  else if object = stagingObject then s.stagingWrite r (data.getD 0 0#8) (data.drop 1)
  else if object = settingsObject then s.writeSiteObject r object 5 data ownSettingsWrite
  else if object = mapEditObject then s.writeSiteObject r object 6 data ownEditRecord
  else s.record r object .invalid []

/-- The object named by the phase, for a read phase that follows; a STOP ends the transaction (R175). -/
def State.nameObject (s : State) (named : Option (Role × Word16)) (byStop : Bool) : State :=
  s.setMgp { s.mgp with transaction := { s.mgp.transaction with
    phase := none, received := [], named := if byStop then none else named } }

/-- The object that a phase names (R175, R178; log 18). -/
def PhaseForm.named? (f : PhaseForm) (r : Role) : Option (Role × Word16) :=
  match f with
  | .good object _ => some (r, BitVec.ofNat 16 object)
  | .empty => none
  | .malformed => none
  | .checkFailed _ _ => none

/-- A write phase of a role, judged as one event (R177). -/
def State.judgePhase (s : State) (r : Role) (f : PhaseForm) : State :=
  match f with
  | .empty => s
  | .malformed => s.countPort r (fun c => { c with malformedWrites := bump c.malformedWrites })
  | .checkFailed object hasData =>
    let s1 := s.countPort r (fun c => { c with checkFailures := bump c.checkFailures })
    if hasData && !s.held r then s1.record r object .check [] else s1
  | .good object data =>
    if data = [] then s
    else if s.held r then s.refuseHeld r
    else s.writeObject r object data

/-- A write phase at an address (R174, R175). -/
def State.writePhase (s : State) (address : BitVec 7) (bytes : List Byte) (byStop : Bool) : State :=
  match s.mgp.roleOf? address with
  | none => s.nameObject none byStop
  | some r =>
    let f := phaseForm (s.sst.live.checkMode r) address bytes
    (s.judgePhase r f).nameObject (f.named? r) byStop

/-- WRITE_PHASE (R177). -/
def execWritePhase (address : BitVec 7) (bytes : List Byte) (byStop : Bool) (s : State) : Answer :=
  ifRunning s (·.writePhase address bytes byStop)

/-! ## Read phases (R175, R179, R180) -/

/-- The copy that a read phase takes of an object (R179). -/
def State.takeCopy (s : State) (bytes : List Byte) : State :=
  s.setMgp { s.mgp with transaction := { s.mgp.transaction with copy := bytes, named := none } }

/-- The number of the status summary, each role's default object (R175, R176). -/
def statusObject : Nat := 0x0000

/-- The number of the reset cause object (R176). -/
def resetCauseObject : Nat := 0x0002

/-- The number of the notice head object (R176). -/
def noticeHeadObject : Nat := 0x0013

/-- The bytes of the notice head object (R204). -/
def noticeBytes : Nat := 20

/-- The object that a read phase of a role reads: the one named by the write phase directly before it where that belonged to the
same role, otherwise the status summary (R175). -/
def Mgp.readObject (m : Mgp) (r : Role) : Nat :=
  match m.transaction.named with
  | some (x, n) => if x = r then n.toNat else statusObject
  | none => statusObject

/-- A read phase of an object begins: its copy is taken, of no byte for a number that names no object (R176, R179), and the site
role's copy of the reset cause clears the cause and the flag (R180, R198). -/
def State.openRead (s : State) (r : Role) (object : Nat) : State :=
  let s1 := s.takeCopy ((s.object? r object).getD [])
  if object = resetCauseObject ∧ r = .site then s1.setSst { s1.sst with cause := .none, storeInvalid := false } else s1

/-- A read phase ends after `sent` bytes: a notice head of which every byte has been sent is removed (R180). -/
def State.endRead (s : State) (r : Role) (object sent : Nat) : State :=
  if object = noticeHeadObject ∧ noticeBytes ≤ sent then s.updatePort r (fun p => { p with notices := p.notices.drop 1 }) else s

/-- The first `sent` bytes of a read phase: those of the copy, in check mode the read check byte, and 0xFF for every further byte.
A copy of no byte is that of no object, and has no check byte (R176, R179). -/
def sentBytes (copy : List Byte) (checkMode : Bool) (sent : Nat) : List Byte :=
  let bytes := if checkMode && !copy.isEmpty then copy ++ [crc8 copy] else copy
  bytes.take sent ++ List.replicate (sent - bytes.length) 0xFF#8

/-- A read phase at an address of which `sent` bytes are clocked out, with those bytes; none at an address of neither role
(R174, R175, R179). A part in reset acknowledges no address, so the phase gets no byte and leaves nothing (R174, R200). A read
phase of any object has this form. The rows of the table are those of the two objects whose read changes state (log 5). -/
def State.readPhase (s : State) (address : BitVec 7) (sent : Nat) : State × List Byte :=
  match s.inReset with
  | some _ => (s, [])
  | none =>
    match s.mgp.roleOf? address with
    | none => (s.nameObject none false, [])
    | some r =>
      let object := s.mgp.readObject r
      let s1 := s.openRead r object
      (s1.endRead r object sent, sentBytes s1.mgp.transaction.copy (s.sst.live.checkMode r) sent)

/-- NOTICE_HEAD_READ (R180): the head is copied, and removed once every byte of it has been sent. -/
def execNoticeHeadRead (r : Role) (sent : Nat) (s : State) : Answer :=
  ifRunning s fun s => (s.openRead r noticeHeadObject).endRead r noticeHeadObject sent

/-- RESET_CAUSE_READ (R180, R198): a read by the site role clears the cause and the flag as its copy is taken. -/
def execResetCauseRead (r : Role) (s : State) : Answer := ifRunning s (·.openRead r resetCauseObject)

end Machine
end Sys2Proof
end

