-- ==== Sys2Proof/Machine/Idle.lean ====
section
/-! DEFINITION. What the part does by itself while no command waits: events that are due, internal steps that have no stated
moment, and the tick (logs 2, 3 and 9). -/

namespace Sys2Proof
namespace Machine

/-- A command if its condition holds. -/
def whenDue (b : Bool) (c : Instr) : List Instr := if b then [c] else []

/-- The emission command that is due (R54, R55). -/
def State.emissionCommand (s : State) : List Instr :=
  match s.emissionDue? with
  | some (.slot _) => [.slotEmission]
  | some (.fill _) => [.fillEmission]
  | none => []

/-- The arm times and ends that site time has reached, in the order of the table (R85). -/
def State.breakCommands (s : State) : List Instr :=
  (s.bpu.table.filter s.armDue).map (fun e => .armTimeReached e.number)
    ++ (s.bpu.table.filter s.endDue).map (fun e => .endReached e.number)

/-- A save has lasted the longest it may (R195). -/
def State.saveOverdue (s : State) : Bool :=
  match s.sst.save with
  | some v => decide (Config.saveTicks ≤ v.elapsed)
  | none => false

/-- The events whose stated moment has come, in the order in which the model takes them (log 2). -/
def State.dueCommands (s : State) : List Instr :=
  whenDue s.packetSent .drivenPacketEnd ++ s.emissionCommand ++ whenDue s.fetchDue?.isSome .fetchRequest ++ s.breakCommands
    ++ whenDue s.missingDue .missingPulse ++ whenDue s.gapDue .gapExpiry ++ whenDue s.feedOutDue .feedOutTimerExpiry
    ++ whenDue s.loadIdleDue .loadIdleTimeout ++ whenDue s.interbyteDue .timeMessageInterbyteTimeout
    ++ whenDue s.saveOverdue .saveComplete ++ whenDue s.steeringDue .steeringWordSent

/-- The command of a directive's kind (R69). -/
def directiveCommand (kind : Byte) : Instr :=
  if kind = 0x01#8 then .emissionMark
  else if kind = 0x10#8 then .breakNotice
  else if kind = 0x11#8 then .breakCancel
  else if kind = 0x12#8 then .returnNow
  else if kind = 0x20#8 then .siteMute
  else .unknownDirective

/-- The Directive Decoder's next step (R66, R69). -/
def State.decoderCommand (s : State) : List Instr :=
  match s.ddc.inHand with
  | some h =>
    match h.directive? with
    | some d => [directiveCommand d.kind]
    | none => [.directiveOverrun]
  | none => whenDue (!s.fiu.handoff.isEmpty) .takeControlPacket

/-- The arbiter's next step: the access it grants, or the completion of the read it has taken (R131). -/
def State.memoryCommand (s : State) : List Instr :=
  match s.csc.taken with
  | some (.ring _ _ _ _) => [.ringReadComplete]
  | some (.clip _ _ _) => [.clipReadComplete]
  | none =>
    match s.grant? with
    | some .ringRead => [.ringReadTaken]
    | some .clipRead => [.clipReadTaken]
    | some .feedWrite => [.feedWrite]
    | some .loadWrite => [.loadWrite]
    | none => []

/-- The internal steps that the part may take now and for which the manual states no moment (log 3). -/
def State.internalCommands (s : State) : List Instr :=
  s.decoderCommand ++ s.memoryCommand ++ whenDue s.sst.save.isSome .saveComplete

/-- The tick: at the last tick of a second the boundary event, otherwise one cycle of OSC27 (R1). -/
def State.advance (s : State) : State :=
  if s.tbu.time.tick = 26999999 then s.setPending [.siteSecondBoundary] else s.tick

/-- An idle cycle of the running part: the first event due, else an internal step or the tick, as the free choice falls. -/
def State.run (s : State) : State :=
  match s.dueCommands with
  | c :: _ => s.setPending [c]
  | [] =>
    match s.internalCommands with
    | [] => s.advance
    | cs =>
      match cs[Config.idleChoice s.choices]? with
      | some c => (s.setPending [c]).setChoices (s.choices + 1)
      | none => (s.setChoices (s.choices + 1)).advance

/-- What the part does on an empty queue; a part in reset waits for the end of reset. -/
def State.idle (s : State) : State :=
  match s.inReset with
  | some _ => s
  | none => s.run

end Machine
end Sys2Proof
end

