-- ==== Sys2Proof/Machine/Dispatch.lean ====
section
/-! DEFINITION. The dispatch of a command to its meaning, one arm per row of spec/opcode_table.json. -/

namespace Sys2Proof
namespace Machine

def exec (i : Instr) (s : State) : Host.Outcome State Fault Refusal :=
  match i with
  | .powerOn => Sys2Proof.Machine.execPowerOn s
  | .resetPin => Sys2Proof.Machine.execResetPin s
  | .resetEnds a1 a2 => Sys2Proof.Machine.execResetEnds a1 a2 s
  | .siteSecondBoundary => Sys2Proof.Machine.execSiteSecondBoundary s
  | .ppsEdge => Sys2Proof.Machine.execPpsEdge s
  | .missingPulse => Sys2Proof.Machine.execMissingPulse s
  | .refokFall => Sys2Proof.Machine.execRefokFall s
  | .refokRise => Sys2Proof.Machine.execRefokRise s
  | .timeMessage b stopHigh => Sys2Proof.Machine.execTimeMessage b stopHigh s
  | .timeMessageInterbyteTimeout => Sys2Proof.Machine.execTimeMessageInterbyteTimeout s
  | .steeringWordSent => Sys2Proof.Machine.execSteeringWordSent s
  | .packetComplete rest ferr => Sys2Proof.Machine.execPacketComplete rest ferr s
  | .shortPacket first ferr => Sys2Proof.Machine.execShortPacket first ferr s
  | .longPacket => Sys2Proof.Machine.execLongPacket s
  | .gapExpiry => Sys2Proof.Machine.execGapExpiry s
  | .feedOutTimerExpiry => Sys2Proof.Machine.execFeedOutTimerExpiry s
  | .feedWrite => Sys2Proof.Machine.execFeedWrite s
  | .takeControlPacket => Sys2Proof.Machine.execTakeControlPacket s
  | .emissionMark => Sys2Proof.Machine.execEmissionMark s
  | .breakNotice => Sys2Proof.Machine.execBreakNotice s
  | .breakCancel => Sys2Proof.Machine.execBreakCancel s
  | .returnNow => Sys2Proof.Machine.execReturnNow s
  | .siteMute => Sys2Proof.Machine.execSiteMute s
  | .unknownDirective => Sys2Proof.Machine.execUnknownDirective s
  | .directiveOverrun => Sys2Proof.Machine.execDirectiveOverrun s
  | .fetchRequest => Sys2Proof.Machine.execFetchRequest s
  | .ringReadTaken => Sys2Proof.Machine.execRingReadTaken s
  | .ringReadComplete => Sys2Proof.Machine.execRingReadComplete s
  | .slotEmission => Sys2Proof.Machine.execSlotEmission s
  | .fillEmission => Sys2Proof.Machine.execFillEmission s
  | .drivenPacketEnd => Sys2Proof.Machine.execDrivenPacketEnd s
  | .armTimeReached number => Sys2Proof.Machine.execArmTimeReached number s
  | .endReached number => Sys2Proof.Machine.execEndReached number s
  | .reserve role number => Sys2Proof.Machine.execReserve role number s
  | .confirm role => Sys2Proof.Machine.execConfirm role s
  | .discard role => Sys2Proof.Machine.execDiscard role s
  | .findBreak role number => Sys2Proof.Machine.execFindBreak role number s
  | .clearBooking role number => Sys2Proof.Machine.execClearBooking role number s
  | .openLoad role clip service count fingerprint => Sys2Proof.Machine.execOpenLoad role clip service count fingerprint s
  | .abortLoad role clip => Sys2Proof.Machine.execAbortLoad role clip s
  | .retireClip role clip => Sys2Proof.Machine.execRetireClip role clip s
  | .forceSlate role service clip => Sys2Proof.Machine.execForceSlate role service clip s
  | .releaseSlate role service => Sys2Proof.Machine.execReleaseSlate role service s
  | .forceMute role => Sys2Proof.Machine.execForceMute role s
  | .releaseMute role => Sys2Proof.Machine.execReleaseMute role s
  | .saveSettings role => Sys2Proof.Machine.execSaveSettings role s
  | .saveComplete => Sys2Proof.Machine.execSaveComplete s
  | .streamRestart role => Sys2Proof.Machine.execStreamRestart role s
  | .clearCounters role => Sys2Proof.Machine.execClearCounters role s
  | .stagingWrite role first data => Sys2Proof.Machine.execStagingWrite role first data s
  | .streamMapAdd role stream cls service clock => Sys2Proof.Machine.execStreamMapAdd role stream cls service clock s
  | .streamMapChange role stream cls service clock => Sys2Proof.Machine.execStreamMapChange role stream cls service clock s
  | .streamMapRemove role stream cls service clock => Sys2Proof.Machine.execStreamMapRemove role stream cls service clock s
  | .writeOnceSettingWrite role setting value => Sys2Proof.Machine.execWriteOnceSettingWrite role setting value s
  | .operatingSettingWrite role setting value => Sys2Proof.Machine.execOperatingSettingWrite role setting value s
  | .writePhase address bytes byStop => Sys2Proof.Machine.execWritePhase address bytes byStop s
  | .noticeHeadRead role sent => Sys2Proof.Machine.execNoticeHeadRead role sent s
  | .resetCauseRead role => Sys2Proof.Machine.execResetCauseRead role s
  | .packetAdmitted first => Sys2Proof.Machine.execPacketAdmitted first s
  | .insertionPacketRefused => Sys2Proof.Machine.execInsertionPacketRefused s
  | .insertionShortPacket first => Sys2Proof.Machine.execInsertionShortPacket first s
  | .insertionLongPacket => Sys2Proof.Machine.execInsertionLongPacket s
  | .insertionPacketComplete rest => Sys2Proof.Machine.execInsertionPacketComplete rest s
  | .loadWrite => Sys2Proof.Machine.execLoadWrite s
  | .loadIdleTimeout => Sys2Proof.Machine.execLoadIdleTimeout s
  | .clipReadTaken => Sys2Proof.Machine.execClipReadTaken s
  | .clipReadComplete => Sys2Proof.Machine.execClipReadComplete s
  | .timeMessageByte b stopHigh => Sys2Proof.Machine.execTimeMessageByte b stopHigh s
  | .feedPacketOpens first ferr => Sys2Proof.Machine.execFeedPacketOpens first ferr s

end Machine
end Sys2Proof
end

