-- ==== Sys2Proof/Safety.lean ====
section
/-! DEFINITION. What statements about the part are said in: the parts of the state and what an event leaves alone, and the
conditions that every step keeps. -/

namespace Sys2Proof
namespace Machine

/-! ## Frames -/

/-- The parts of the state: the nine blocks, and what stands beside them. -/
inductive Part where
  | tbu
  | fiu
  | esc
  | ddc
  | bpu
  | csc
  | spe
  | mgp
  | sst
  | inReset
  | refok
  | pending
  | choices
deriving DecidableEq, Repr

/-- Two states hold the same in one part. -/
def State.SameIn (s t : State) : Part → Prop
  | .tbu => t.tbu = s.tbu
  | .fiu => t.fiu = s.fiu
  | .esc => t.esc = s.esc
  | .ddc => t.ddc = s.ddc
  | .bpu => t.bpu = s.bpu
  | .csc => t.csc = s.csc
  | .spe => t.spe = s.spe
  | .mgp => t.mgp = s.mgp
  | .sst => t.sst = s.sst
  | .inReset => t.inReset = s.inReset
  | .refok => t.refok = s.refok
  | .pending => t.pending = s.pending
  | .choices => t.choices = s.choices

/-- From `s` to `t` only the listed parts change. -/
def OnlyChanges (parts : List Part) (s t : State) : Prop := ∀ p, p ∉ parts → s.SameIn t p

/-- The part runs: no reset is in progress. -/
def State.Running (s : State) : Prop := s.inReset = none

/-- The part runs and a role's writes are not held by a save (R184, R200). -/
def State.Listens (s : State) (r : Role) : Prop := s.Running ∧ s.held r = false

/-! ## What a role sees of a write -/

/-- A role's result object holds a new outcome: echo, code, return value and the next command sequence (R183). -/
def Recorded (s t : State) (r : Role) (echo : Nat) (code : ResultCode) (value : List Byte) : Prop :=
  (t.mgp.ports.get r).result =
    { echo := some (BitVec.ofNat 16 echo), code := code, seq := (s.mgp.ports.get r).result.seq + 1, value := padTo 8 value }

/-- A command was taken and answered: the command object holds it, and the result object its outcome (R182, R183). -/
def Answered (s t : State) (r : Role) (kind : CommandKind) (args : List Byte) (code : ResultCode) (value : List Byte) : Prop :=
  Recorded s t r kind.code code value
    ∧ (t.mgp.ports.get r).command = some (BitVec.ofNat 8 kind.code :: args)

/-- Two states of the Management Port have the same transaction record and role addresses. -/
def Mgp.SameBus (m n : Mgp) : Prop :=
  n.transaction = m.transaction ∧ n.insertionAddress = m.insertionAddress ∧ n.siteAddress = m.siteAddress

/-- A role's counters are the same but for notices lost. -/
def RolePort.SameCounts (p q : RolePort) : Prop :=
  q.counters = { p.counters with noticesLost := q.counters.noticesLost }

/-- In the Management Port only one role's command object and result object may differ. -/
def OnlyAnswers (s t : State) (r : Role) : Prop :=
  t.mgp.ports.get (otherRole r) = s.mgp.ports.get (otherRole r)
    ∧ (t.mgp.ports.get r).hold = (s.mgp.ports.get r).hold
    ∧ (t.mgp.ports.get r).notices = (s.mgp.ports.get r).notices
    ∧ (t.mgp.ports.get r).counters = (s.mgp.ports.get r).counters
    ∧ s.mgp.SameBus t.mgp

/-- In the Management Port only the notice queues, with their counts of notices lost, may differ. -/
def OnlyNotifies (s t : State) : Prop :=
  (∀ r, (t.mgp.ports.get r).command = (s.mgp.ports.get r).command
    ∧ (t.mgp.ports.get r).result = (s.mgp.ports.get r).result
    ∧ (t.mgp.ports.get r).hold = (s.mgp.ports.get r).hold
    ∧ (s.mgp.ports.get r).SameCounts (t.mgp.ports.get r))
    ∧ s.mgp.SameBus t.mgp

/-- In the Management Port only one role's command object and result object, and the notice queues, may differ. -/
def OnlyAnswersAndNotifies (s t : State) (r : Role) : Prop :=
  (t.mgp.ports.get (otherRole r)).command = (s.mgp.ports.get (otherRole r)).command
    ∧ (t.mgp.ports.get (otherRole r)).result = (s.mgp.ports.get (otherRole r)).result
    ∧ (∀ x, (t.mgp.ports.get x).hold = (s.mgp.ports.get x).hold
      ∧ (s.mgp.ports.get x).SameCounts (t.mgp.ports.get x))
    ∧ s.mgp.SameBus t.mgp

/-- A role's queue after notices were raised to it, in this order: they join its tail as far as its 32 places go, and the rest
is lost (R186). -/
def Raised (s t : State) (r : Role) (ns : List Notice) : Prop :=
  (t.mgp.ports.get r).notices =
    (s.mgp.ports.get r).notices ++ ns.take (32 - (s.mgp.ports.get r).notices.length)

/-- Both roles' queues after notices were raised to both, in this order. -/
def RaisedBoth (s t : State) (ns : List Notice) : Prop := ∀ r, Raised s t r ns

/-- The notice of an event at a state: it carries the site time that the state holds (R186). -/
def noticeAt (s : State) (kind : NoticeKind) (subject : Subject) (detail : Detail) : Notice :=
  { kind := kind, subject := subject, detail := detail, time := s.tbu.time }

/-- The notice that an assertion of CARINH raises, where CARINH was released (R60). -/
def assertNotice (s t : State) : List Notice :=
  if s.esc.carinh = .released ∧ t.esc.mute.any = true then [noticeAt t .carrierState .none (.mute t.esc.mute)] else []

/-- A mute reason was set or cleared with all its effect on the carrier (R57, R60): a reason asserts CARINH and cuts off the
packet being driven; the last reason going makes the release pending. -/
def MuteTaken (s t : State) (r : MuteReason) (b : Bool) : Prop :=
  t.esc.mute = s.esc.mute.put r b
    ∧ (t.esc.mute.any = true → t.esc.carinh = .asserted ∧ t.esc.port = none
      ∧ t.esc.counters.carrierCutoffs =
          if s.esc.driving then bump s.esc.counters.carrierCutoffs else s.esc.counters.carrierCutoffs)
    ∧ (t.esc.mute.any = false → t.esc.carinh = (if s.esc.mute.any then .pending else s.esc.carinh) ∧ t.esc.port = s.esc.port
      ∧ t.esc.counters = s.esc.counters)

/-- What the passage of the fetch position to `f` leaves of a queue of anchors: the oldest anchors go, each whose successor's
reference slot `f` has reached, and no others (R46). -/
def AnchorsPassed (f : Word32) (before after : List Anchor) : Prop :=
  ∃ gone, before = gone ++ after
    ∧ (before ≠ [] → after ≠ [])
    ∧ (∀ a ∈ (gone ++ after.take 1).drop 1, 0 ≤ sdiff f a.ref)
    ∧ (∀ a ∈ (after.drop 1).take 1, sdiff f a.ref < 0)

/-- A completed ring read that has judged good a packet on a SERVICE stream of `v`: the hand-off of a target-service slot of `v`
(R52, R152). -/
def TargetRead (s : State) (slot : Word32) (bytes : List Byte) (q : Requested) (v : Service) : Prop :=
  s.csc.taken = some (.ring slot true true bytes)
    ∧ s.esc.requested.find? (fun x => x.slot == slot) = some q
    ∧ (slotInfo bytes).tag = slot.toNat % 65536 ∧ (slotInfo bytes).void = false
    ∧ (slotInfo bytes).check = crc8 (bytes.take 188)
    ∧ serviceOf? s.sst.live.map (streamId (bytes.take 188)) = some v

/-- What every hand-off does at the Emission Scheduler and the memory: the slot is answered, and the read has left (R52).
`reads` are the clip reads that the hand-off asks for. -/
def HandedOff (s t : State) (slot : Word32) (q : Requested) (reads : List FetchRead) : Prop :=
  t.esc = { s.esc with requested := s.esc.requested.map (fun x => if x.slot = slot then { x with done := true } else x) }
    ∧ t.spe.fetchInstant = some q.exact
    ∧ t.csc.taken = none ∧ t.csc.reads = s.csc.reads ++ reads
    ∧ t.csc.memory = s.csc.memory ∧ t.csc.load = s.csc.load ∧ t.csc.freeRuns = s.csc.freeRuns

/-- The byte offset of staging field `k` in a write whose first field is `first` (R95, R205): four bytes for the reference,
one for the length, four for each position. -/
def stagingOffset (first k : Nat) : Nat :=
  (if first = 0 ∧ 0 < k then 4 else 0) + (if first ≤ 1 ∧ 1 < k then 1 else 0) + 4 * (k - max first 2)

/-- The code of a write-once setting (R204). -/
def writeOnceCode : WriteOnceSetting → Byte
  | .siteNumber => 0x01#8
  | .areaCode => 0x02#8
  | .siteOffset => 0x03#8
  | .ringSize => 0x04#8

/-- The code of an operating setting (R204). -/
def operatingCode : OperatingSetting → Byte
  | .lockWindow => 0x10#8
  | .stepThreshold => 0x11#8
  | .emissionTolerance => 0x12#8
  | .holdoverRate => 0x13#8
  | .acquireGp => 0x14#8
  | .acquireGi => 0x15#8
  | .trackGp => 0x16#8
  | .trackGi => 0x17#8
  | .steeringCentre => 0x18#8
  | .markTolerance => 0x19#8
  | .feedGapLimit => 0x1A#8
  | .feedMuteDelay => 0x1B#8
  | .armLead => 0x1C#8
  | .loadIdleLimit => 0x1D#8
  | .checkModeInsertion => 0x1E#8
  | .checkModeSite => 0x1F#8
  | .timeMessageBaud => 0x20#8

/-- The role that a command comes from, with the echo its outcome records (R177, R182); none for a command of no role. -/
def senderOf? : Instr → Option (Role × Nat)
  | .reserve r _ => some (r, CommandKind.code .reserve)
  | .confirm r => some (r, CommandKind.code .confirm)
  | .discard r => some (r, CommandKind.code .discard)
  | .findBreak r _ => some (r, CommandKind.code .findBreak)
  | .openLoad r _ _ _ _ => some (r, CommandKind.code .openLoad)
  | .abortLoad r _ => some (r, CommandKind.code .abortLoad)
  | .retireClip r _ => some (r, CommandKind.code .retireClip)
  | .clearBooking r _ => some (r, CommandKind.code .clearBooking)
  | .forceSlate r _ _ => some (r, CommandKind.code .forceSlate)
  | .releaseSlate r _ => some (r, CommandKind.code .releaseSlate)
  | .forceMute r => some (r, CommandKind.code .forceMute)
  | .releaseMute r => some (r, CommandKind.code .releaseMute)
  | .saveSettings r => some (r, CommandKind.code .saveSettings)
  | .streamRestart r => some (r, CommandKind.code .streamRestart)
  | .clearCounters r => some (r, CommandKind.code .clearCounters)
  | .stagingWrite r _ _ => some (r, stagingObject)
  | .streamMapAdd r _ _ _ _ => some (r, mapEditObject)
  | .streamMapChange r _ _ _ _ => some (r, mapEditObject)
  | .streamMapRemove r _ _ _ _ => some (r, mapEditObject)
  | .writeOnceSettingWrite r _ _ => some (r, settingsObject)
  | .operatingSettingWrite r _ _ => some (r, settingsObject)
  | _ => none

/-- The role that gives a command or writes an object, and the bytes of the write phase after the address byte: the object
number, and the command code with its arguments or the object's written form (R176, R182, R204, R205). None for a command of
no role. -/
def writtenBytes? : Instr → Option (Role × List Byte)
  | .reserve r n => some (r, [0x00#8, 0x11#8, 0x01#8] ++ toBytes 2 n.toNat)
  | .confirm r => some (r, [0x00#8, 0x11#8, 0x02#8])
  | .discard r => some (r, [0x00#8, 0x11#8, 0x03#8])
  | .findBreak r n => some (r, [0x00#8, 0x11#8, 0x04#8] ++ toBytes 2 n.toNat)
  | .openLoad r id v n fp =>
    some (r, [0x00#8, 0x11#8, 0x05#8] ++ toBytes 4 id.toNat ++ [v] ++ toBytes 4 n.toNat ++ toBytes 4 fp.toNat)
  | .abortLoad r id => some (r, [0x00#8, 0x11#8, 0x06#8] ++ toBytes 4 id.toNat)
  | .retireClip r id => some (r, [0x00#8, 0x11#8, 0x07#8] ++ toBytes 4 id.toNat)
  | .clearBooking r n => some (r, [0x00#8, 0x11#8, 0x08#8] ++ toBytes 2 n.toNat)
  | .forceSlate r v id => some (r, [0x00#8, 0x11#8, 0x09#8, v] ++ toBytes 4 id.toNat)
  | .releaseSlate r v => some (r, [0x00#8, 0x11#8, 0x0A#8, v])
  | .forceMute r => some (r, [0x00#8, 0x11#8, 0x0B#8])
  | .releaseMute r => some (r, [0x00#8, 0x11#8, 0x0C#8])
  | .saveSettings r => some (r, [0x00#8, 0x11#8, 0x0D#8])
  | .streamRestart r => some (r, [0x00#8, 0x11#8, 0x0E#8])
  | .clearCounters r => some (r, [0x00#8, 0x11#8, 0x0F#8])
  | .stagingWrite r first data => some (r, [0x00#8, 0x10#8, first] ++ data)
  | .streamMapAdd r stream cls service clock =>
    some (r, [0x00#8, 0x20#8, 0x01#8] ++ toBytes 2 stream.toNat ++ [cls, service, clock])
  | .streamMapChange r stream cls service clock =>
    some (r, [0x00#8, 0x20#8, 0x02#8] ++ toBytes 2 stream.toNat ++ [cls, service, clock])
  | .streamMapRemove r stream cls service clock =>
    some (r, [0x00#8, 0x20#8, 0x03#8] ++ toBytes 2 stream.toNat ++ [cls, service, clock])
  | .writeOnceSettingWrite r w value => some (r, [0x00#8, 0x03#8, writeOnceCode w] ++ toBytes 4 value.toNat)
  | .operatingSettingWrite r o value => some (r, [0x00#8, 0x03#8, operatingCode o] ++ toBytes 4 value.toNat)
  | _ => none

/-- The bytes of a write phase that carries an object number and data: in check mode the check byte follows, the CRC-8 over the
address byte and every byte before it (R178). -/
def phaseBytes (checkMode : Bool) (address : BitVec 7) (body : List Byte) : List Byte :=
  if checkMode then body ++ [crc8 (BitVec.ofNat 8 (address.toNat * 2) :: body)] else body

/-- The address is a role's (R174). -/
def Mgp.Addresses (m : Mgp) (address : BitVec 7) (r : Role) : Prop :=
  (r = .insertion ∧ address = m.insertionAddress)
    ∨ (r = .site ∧ address = m.siteAddress ∧ address ≠ m.insertionAddress)

/-- The commands and writes that R176 and R182 give to the site role alone. -/
def siteOnlyCommand : Instr → Bool
  | .clearBooking _ _ => true
  | .forceSlate _ _ _ => true
  | .releaseSlate _ _ => true
  | .forceMute _ => true
  | .releaseMute _ => true
  | .saveSettings _ => true
  | .streamRestart _ => true
  | .clearCounters _ => true
  | .streamMapAdd _ _ _ _ _ => true
  | .streamMapChange _ _ _ _ _ => true
  | .streamMapRemove _ _ _ _ _ => true
  | .writeOnceSettingWrite _ _ _ => true
  | .operatingSettingWrite _ _ _ => true
  | _ => false

/-! ## Conditions that every step keeps -/

/-- Site time's tick lies in 0..26,999,999 (00_scope.md, Site time). -/
def State.ClockInRange (s : State) : Prop := s.tbu.time.tick < 27000000

/-- In HOLDOVER the estimate lies within 256 times the emission tolerance (R9, R15). -/
def State.HoldoverWithinTolerance (s : State) : Prop :=
  s.tbu.state = .holdover → s.tbu.h ≤ 256 * s.sst.live.emissionTolerance

/-- TIMING is present exactly while the TBU is not emission-fit, SCHEDULE exactly while the ESC is STOPPED, CARINH is asserted
exactly while a mute reason is present, and a packet is on the port only while CARINH is released (R56, R57, R60). -/
def State.CarrierConsistent (s : State) : Prop :=
  s.esc.mute.timing = !s.tbu.state.fit
    ∧ s.esc.mute.schedule = !s.esc.running
    ∧ (s.esc.carinh = .asserted ↔ s.esc.mute.any = true)
    ∧ (s.esc.port.isSome = true → s.esc.carinh = .released)

/-- The hand-off queue, the feed write buffer, the anchor queue, the break table, the two notice queues, the stream map, the load
buffer with the packet being framed, the clip directory and the continuity table hold no more than their places; the break table
names each break once, and the directory and the continuity table stand by rising position and stream id (R34, R35, R39, R46, R82,
R115, R121, R161, R186). -/
def State.QueuesBounded (s : State) : Prop :=
  s.fiu.handoff.length ≤ 4
    ∧ s.fiu.writeBuffer.length ≤ 16
    ∧ s.esc.anchors.length ≤ 32
    ∧ s.bpu.table.length ≤ 16
    ∧ (s.bpu.table.map (·.number)).Nodup
    ∧ (s.mgp.ports.get .insertion).notices.length ≤ 32
    ∧ (s.mgp.ports.get .site).notices.length ≤ 32
    ∧ s.sst.live.map.length ≤ 32
    ∧ (∀ l ∈ s.csc.load, l.buffer.length + s.csc.framing.places ≤ 16)
    ∧ (s.csc.directory.map (·.1)).Pairwise (· < ·)
    ∧ (∀ x ∈ s.csc.directory, 1 ≤ x.1 ∧ x.1 ≤ 64)
    ∧ s.spe.continuity.length ≤ 32
    ∧ (s.spe.continuity.map (·.stream)).Pairwise (· < ·)

/-- The packet memory is in its canonical form. -/
def State.MemoryCanonical (s : State) : Prop := Memory.wf s.csc.memory = true

/-- The blocks of the clips in a directory. -/
def clipBlocks (dir : List (Nat × Clip)) : Nat := (dir.map (fun c => c.2.blockCount)).sum

/-- The blocks of a free run list. -/
def freeBlocks (runs : List FreeRun) : Nat := (runs.map (·.count)).sum

/-- Two runs of blocks share no block. -/
abbrev FreeRun.Apart (a b : FreeRun) : Prop := a.first + a.count ≤ b.first ∨ b.first + b.count ≤ a.first

/-- The runs of blocks of the three places of R112: the feed ring region, the clips of the directory, and the free run list. -/
def State.blockRuns (s : State) : List FreeRun :=
  { first := 0, count := s.fiu.ringSize / 64 } ::
    (s.csc.directory.map (fun c => { first := c.2.firstBlock, count := c.2.blockCount }) ++ s.csc.freeRuns)

/-- Each of the 8,192 blocks belongs to exactly one run of ring, clips and free run list: the runs are not empty, lie in the
packet memory, are apart from one another and count 8,192 blocks together. The directory names each position once, and the
free runs rise with no two adjacent (R112, R115, R117). -/
def State.BlocksAccounted (s : State) : Prop :=
  (s.csc.directory.map (·.1)).Nodup
    ∧ s.fiu.ringSize / 64 + clipBlocks s.csc.directory + freeBlocks s.csc.freeRuns = 8192
    ∧ (∀ r ∈ s.blockRuns, 0 < r.count ∧ r.first + r.count ≤ 8192)
    ∧ s.blockRuns.Pairwise FreeRun.Apart
    ∧ s.csc.freeRuns.Pairwise (fun a b => a.first + a.count < b.first)

/-- The site role's hold stands exactly while a save is in progress, the insertion role is never held, and while a save is in
progress the stored image is invalid (R184, R195, R196). -/
def State.SaveConsistent (s : State) : Prop :=
  s.held .site = s.sst.save.isSome
    ∧ s.held .insertion = false
    ∧ (s.sst.save.isSome = true → s.sst.image.valid = false ∧ s.sst.imageState = .invalid)

end Machine
end Sys2Proof
end

