-- ==== Sys2Proof/Certificates/Slice0/Obligations.lean ====
section
/-! DEFINITION. The statements for the provers, each a numbered rule of spec/ or several, said of `exec` and `step`. -/

open Sys2Proof
open Sys2Proof.Machine

/-! ## The queue, reset and what stops -/

/-- A step with a command at the front of the queue is that command on the state with the queue's rest. -/
def Obligations.StepRunsFrontCommand : Prop :=
  ∀ (c : Instr) (rest : List Instr) (s : State), step (s.setPending (c :: rest)) = exec c (s.setPending rest)

/-- On an empty queue (logs 2 and 3, the model's choice): a part in reset waits; the first event due is queued; with nothing
due, one of the internal steps is queued or time goes on, as the free choice falls; and with no internal step either, the
boundary event is queued at the last tick of a second, and otherwise site time goes on by one tick (R1) with every cycle timer
(the time since the last TMSG byte, R5; the shift of a steering word, R20; the gap timer, R30; the bytes of a driven packet,
R56; the feed-out timer, R58; the idle timer of a load, R126; a save, R195) and nothing else. -/
def Obligations.StepOnEmptyQueue : Prop :=
  ∀ s : State, s.pending = [] →
    (s.inReset ≠ none → step s = .next s)
    ∧ (s.Running → ∀ c cs, s.dueCommands = c :: cs → step s = .next (s.setPending [c]))
    ∧ (s.Running → s.dueCommands = [] → s.internalCommands ≠ [] →
        (∃ c ∈ s.internalCommands, step s = .next ((s.setPending [c]).setChoices (s.choices + 1)))
        ∨ step s = .next (s.setChoices (s.choices + 1)).advance)
    ∧ (s.Running → s.dueCommands = [] → s.internalCommands = [] → s.tbu.time.tick = 26999999 →
        step s = .next (s.setPending [.siteSecondBoundary]))
    ∧ (s.Running → s.dueCommands = [] → s.internalCommands = [] → s.tbu.time.tick ≠ 26999999 →
        step s = .next { s with
          tbu := { s.tbu with
            time := { sec := s.tbu.time.sec, tick := s.tbu.time.tick + 1 }
            assembly := s.tbu.assembly.map (fun a => { a with idle := a.idle + 1 })
            shiftTicks := if s.tbu.shifting = none then s.tbu.shiftTicks else s.tbu.shiftTicks + 1 }
          fiu := { s.fiu with gapTimer := s.fiu.gapTimer.map (· + 1) }
          esc := { s.esc with
            feedOutTimer := s.esc.feedOutTimer.map (· + 1)
            port := s.esc.port.map (fun d => ⟨d.packet, min (d.sent + 1) 188⟩) }
          csc := { s.csc with load := s.csc.load.map (fun l => { l with idle := l.idle.map (· + 1) }) }
          sst := { s.sst with save := s.sst.save.map (fun v => { v with elapsed := v.elapsed + 1 }) } })

/-- While the part is in reset it takes no input (R200): every command but the reset commands leaves it as it is, except that
the model follows the level of REFOK (the model's choice, log 7); and no address is acknowledged, so that a read phase gets no
byte and leaves nothing (R174, R200). -/
def Obligations.ResetTakesNoInput : Prop :=
  (∀ (c : Instr) (s : State), s.inReset ≠ none → c ≠ .powerOn → c ≠ .resetPin → (∀ a1 a2, c ≠ .resetEnds a1 a2) →
    ∃ t, exec c s = .next t ∧ OnlyChanges [.refok] s t ∧ (c ≠ .refokFall → c ≠ .refokRise → t = s))
  ∧ ∀ (s : State) (a : BitVec 7) (sent : Nat), s.inReset ≠ none → s.readPhase a sent = (s, [])

/-- Every command answers a next state in every state, and so does every step: the part has no command that it refuses and no
fault (an access of the arbiter is of one of the memory slots of R112 and R131 whatever the state, log 28). -/
def Obligations.EveryCommandAnswersNext : Prop :=
  (∀ (c : Instr) (s : State), ∃ t, exec c s = .next t) ∧ ∀ s : State, ∃ t, step s = .next t

/-- POWER_ON and RESET_PIN hold the part in reset with its outputs as R200 gives them: CARINH asserted, the emission port idle
with its lines low (R56), IREADY low, both alert lines released, no steering word on its way and the steering lines low (R20).
The stored image, the packet memory and the word in the oscillator stay, and a save in progress leaves the image invalid
(R196, R197, R200). -/
def Obligations.ResetHoldsTheLines : Prop :=
  ∀ (s : State) (c : Instr) (src : ResetSource), (c = .powerOn ∧ src = .powerOn) ∨ (c = .resetPin ∧ src = .resetPin) →
    ∃ t, exec c s = .next t
      ∧ t.inReset = some src
      ∧ t.esc.carinh = .asserted ∧ t.esc.port = none
      ∧ t.esc.evalid = false ∧ t.esc.estart = false ∧ t.esc.ed = 0#8
      ∧ t.csc.iready = false
      ∧ (∀ r, t.alert r = false)
      ∧ t.tbu.shifting = none ∧ t.tbu.waiting = none ∧ t.tbu.loaded = s.tbu.loaded
      ∧ t.tbu.stclkRuns = false ∧ t.tbu.stdat = false ∧ t.tbu.stld = false
      ∧ t.csc.memory = s.csc.memory
      ∧ t.sst.image = s.sst.image ∧ t.sst.save = none
      ∧ (s.SaveConsistent → s.sst.save.isSome = true → t.sst.image.valid = false)
      ∧ t.refok = s.refok ∧ t.pending = s.pending ∧ t.choices = s.choices

/-- RESET_ENDS loads the settings (R194, R197, R198) and gives every block its reset state from them (R24, R41, R43, R64, R81,
R110, R112, R135, R173, R174, R190). R173 gives no value to the play positions that nothing uses and to the passes that are
none: what the Splice Engine holds for them here is the model's choice (logs 7 and 36). Second part, the model's choice (log
7): the model's reset state is what POWER_ON and RESET_ENDS make of a part whose image was never written, with straps low,
REFOK low, an oscillator that holds no word and empty packet memory. -/
def Obligations.ResetEndLoadsThePart : Prop :=
  (∀ (s : State) (src : ResetSource) (a1 a2 : Bool), s.inReset = some src →
    ∃ t, exec (.resetEnds a1 a2) s = .next t
      ∧ t.Running
      ∧ t.sst.image = s.sst.image ∧ t.csc.memory = s.csc.memory
      ∧ (s.sst.image.valid = true →
          t.sst.live = s.sst.image.content ∧ t.sst.imageState = .valid ∧ t.sst.storeInvalid = false)
      ∧ (s.sst.image.valid = false → t.sst.live = {} ∧ t.sst.imageState = .invalid ∧ t.sst.storeInvalid = true)
      ∧ t.sst.unsaved = false ∧ t.sst.save = none
      ∧ t.sst.cause = (match src with | .powerOn => .powerOn | .resetPin => .resetPin)
      ∧ t.tbu.time = { sec := 0, tick := 0 } ∧ t.tbu.state = .unset ∧ t.tbu.cause = none
      ∧ t.tbu.integrator = t.sst.live.steeringCentre * 65536 ∧ t.tbu.steer = t.sst.live.steeringCentre
      ∧ t.tbu.shifting = some (BitVec.ofInt 16 (t.sst.live.steeringCentre + 32768))
      ∧ t.tbu.held = none ∧ t.tbu.assembly = none ∧ t.tbu.h = 0 ∧ t.tbu.n = 0
      ∧ t.fiu.state = .absent ∧ t.fiu.slotCounter = 0 ∧ t.fiu.framing = .noPacket
      ∧ t.fiu.ringSize = t.sst.live.ringSize.getD 16384
      ∧ t.esc.running = false ∧ t.esc.carinh = .asserted ∧ t.esc.port = none
      ∧ t.esc.mute = { timing := true, feed := decide (t.sst.live.feedMuteDelay = 0), network := false, site := false,
                       schedule := true }
      ∧ t.ddc = {} ∧ t.bpu = {} ∧ t.spe = {}
      ∧ t.csc.directory = [] ∧ t.csc.written = [] ∧ t.csc.load = none
      ∧ t.csc.freeRuns = [{ first := t.fiu.ringSize / 64, count := 8192 - t.fiu.ringSize / 64 }]
      ∧ t.mgp.insertionAddress = (0x30#7 + (if a2 then 4#7 else 0#7) + (if a1 then 2#7 else 0#7))
      ∧ t.mgp.siteAddress = (0x31#7 + (if a2 then 4#7 else 0#7) + (if a1 then 2#7 else 0#7))
      ∧ (∀ r, (t.mgp.ports.get r).notices =
            [{ kind := .restarted, subject := .none, detail := .restart t.sst.cause t.sst.storeInvalid, time := {} }]
          ∧ (t.mgp.ports.get r).command = none ∧ (t.mgp.ports.get r).result.code = .none
          ∧ (t.mgp.ports.get r).result.seq = 0 ∧ (t.mgp.ports.get r).hold = false)
      ∧ (∀ n ∈ t.counters, n = 0))
  ∧ (∀ s : State, s.sst.image = {} → s.csc.memory = [] → s.tbu.loaded = none → s.refok = false → s.pending = [] →
      s.choices = 0 →
    ∃ t, exec .powerOn s = .next t ∧ exec (.resetEnds false false) t = .next State.reset)

/-! ## The Time Base Unit -/

/-- SITE_SECOND_BOUNDARY (R1, R15): the second advances, and with it every cycle timer counts as at any other tick (R5, R20,
R30, R56, R58, R126, R195); in HOLDOVER and EXPIRED the estimate grows and may expire, with TIME-STATE and the TIMING reason
(R9, R21, R57), in this order (log 15). Nothing else changes. `x` is the Emission Scheduler with its own cycle timers counted.
-/
def Obligations.SecondBoundaryGrowsTheEstimate : Prop :=
  ∀ (s : State) (x : Esc), s.Running → s.tbu.time.tick = 26999999 →
    x = { s.esc with
      feedOutTimer := s.esc.feedOutTimer.map (· + 1)
      port := s.esc.port.map (fun d => ⟨d.packet, min (d.sent + 1) 188⟩) } →
    ∃ t, exec .siteSecondBoundary s = .next t
      ∧ t.tbu = { s.tbu with
          time := { sec := s.tbu.time.sec + 1, tick := 0 }
          assembly := s.tbu.assembly.map (fun a => { a with idle := a.idle + 1 })
          shiftTicks := if s.tbu.shifting = none then s.tbu.shiftTicks else s.tbu.shiftTicks + 1
          state := t.tbu.state, n := t.tbu.n, h := t.tbu.h }
      ∧ t.fiu = { s.fiu with gapTimer := s.fiu.gapTimer.map (· + 1) }
      ∧ t.csc = { s.csc with load := s.csc.load.map (fun l => { l with idle := l.idle.map (· + 1) }) }
      ∧ t.sst = { s.sst with save := s.sst.save.map (fun v => { v with elapsed := v.elapsed + 1 }) }
      ∧ (s.tbu.state ≠ .holdover → s.tbu.state ≠ .expired →
          t.tbu.state = s.tbu.state ∧ t.tbu.n = s.tbu.n ∧ t.tbu.h = s.tbu.h)
      ∧ (s.tbu.state = .holdover ∨ s.tbu.state = .expired →
          t.tbu.n = min (s.tbu.n + 1) 4294967295
          ∧ t.tbu.h = min (s.tbu.h + s.sst.live.holdoverRate) 281474976710655)
      ∧ (s.tbu.state = .holdover →
          t.tbu.state = (if 256 * s.sst.live.emissionTolerance < t.tbu.h then .expired else .holdover))
      ∧ (s.tbu.state = .expired → t.tbu.state = .expired)
      ∧ (t.tbu.state = s.tbu.state → t.esc = x ∧ t.mgp = s.mgp)
      ∧ (s.CarrierConsistent → s.tbu.state = .holdover → t.tbu.state = .expired →
          MuteTaken (s.setEsc x) t .timing true ∧ t.esc.mute.timing = true ∧ t.esc.carinh = .asserted
          ∧ t.esc = { x with mute := t.esc.mute, carinh := .asserted, port := none, counters := t.esc.counters }
          ∧ Raised s t .site (noticeAt t .timeState .none (.time .expired none) :: assertNotice s t)
          ∧ Raised s t .insertion [])
      ∧ OnlyChanges [.tbu, .fiu, .esc, .csc, .mgp, .sst] s t ∧ OnlyNotifies s t

/-- PPS_EDGE in UNSET with REFOK high (R10): a held message with its tracking bit set sets the time, which acts on no slot,
fill or break by itself (log 9); any other pulse only consumes the message. PPS_EDGE with REFOK low is ignored (R3), and an
in-window pulse for a boundary already served is an extra pulse (R8): each consumes the held message and moves its counter, and
nothing else (the message of an extra pulse goes unchecked, log 10). In HOLDOVER and EXPIRED a pulse inside the lock window
whose message does not disagree (R6) counts toward relock and the third enters LOCKED (R16), and any other pulse extends or
restarts the consistent run, whose eighth pulse enters ACQUIRING (R17), with TIME-STATE before CARRIER-STATE where both are
raised (the model's order, log 15). `n` and `e` are the pulse's nearest second and phase error. -/
def Obligations.PulsesOutsideTheLoop : Prop :=
  (∀ s : State, s.Running →
    (∀ m, s.refok = true → s.tbu.state = .unset → s.tbu.held = some m → m.tracking = true →
      ∃ t, exec .ppsEdge s = .next t
        ∧ t.tbu = { s.tbu with
            held := none, time := { sec := m.seconds, tick := 0 }, state := .acquiring, lockCount := 0,
            lastServed := some m.seconds,
            counters := { s.tbu.counters with timeSteps := bump s.tbu.counters.timeSteps } }
        ∧ (s.CarrierConsistent → t.esc = s.esc
            ∧ Raised s t .site [noticeAt t .timeState .none (.time .acquiring none)])
        ∧ OnlyChanges [.tbu, .esc, .mgp] s t ∧ OnlyNotifies s t)
    ∧ (s.refok = true → s.tbu.state = .unset → (∀ m, s.tbu.held = some m → m.tracking = false) →
      exec .ppsEdge s = .next (s.setTbu { s.tbu with held := none }))
    ∧ (s.refok = false →
      exec .ppsEdge s = .next (s.setTbu { s.tbu with
        held := none, counters := { s.tbu.counters with ignoredPulses := bump s.tbu.counters.ignoredPulses } }))
    ∧ (s.refok = true → s.tbu.state ≠ .unset → (phaseError s.tbu.time).natAbs ≤ 2700000 →
        s.tbu.lastServed = some (nearestSecond s.tbu.time) →
      exec .ppsEdge s = .next (s.setTbu { s.tbu with
        held := none, counters := { s.tbu.counters with extraPulses := bump s.tbu.counters.extraPulses } })))
  ∧ (∀ (s : State) (n : Word32) (e : Int), s.Running → s.refok = true → s.tbu.state = .holdover ∨ s.tbu.state = .expired →
      n = nearestSecond s.tbu.time → e = phaseError s.tbu.time →
      (e.natAbs ≤ s.sst.live.lockWindow → s.sst.live.lockWindow ≤ 2700 → s.tbu.lastServed ≠ some n →
          (∀ m, s.tbu.held = some m → m.tracking = true → m.seconds = n) →
        (s.tbu.relockCount + 1 < 3 → exec .ppsEdge s = .next (s.setTbu { s.tbu with
          held := none, lastServed := some n, relockCount := s.tbu.relockCount + 1, runCount := 0 }))
        ∧ (3 ≤ s.tbu.relockCount + 1 → ∃ t, exec .ppsEdge s = .next t
          ∧ t.tbu = { s.tbu with
              held := none, lastServed := some n, relockCount := s.tbu.relockCount + 1, runCount := 0,
              state := .locked, cause := none, eLast := 0, n := 0, h := 0,
              outlierCount := 0, missingCount := 0, mismatchCount := 0, steerLimitRun := 0 }
          ∧ (s.CarrierConsistent → MuteTaken s t .timing false
              ∧ Raised s t .site [noticeAt s .timeState .none (.time .locked none)])
          ∧ OnlyChanges [.tbu, .esc, .mgp] s t ∧ OnlyNotifies s t))
      ∧ (∀ run d, ¬ (e.natAbs ≤ 2700000 ∧ s.tbu.lastServed = some n) →
          (s.sst.live.lockWindow < e.natAbs ∨ ∃ m, s.tbu.held = some m ∧ m.tracking = true ∧ m.seconds ≠ n) →
          d = s.tbu.time.since s.tbu.runLast →
          run = (if s.tbu.runCount = 0 then 1
            else if 27000000 - (s.sst.live.lockWindow : Int) ≤ d ∧ d ≤ 27000000 + (s.sst.live.lockWindow : Int)
              then s.tbu.runCount + 1
            else 1) →
        (run < 8 → ∃ t, exec .ppsEdge s = .next t
          ∧ t.tbu = { s.tbu with
              held := none, lastServed := (if e.natAbs ≤ 2700000 then some n else s.tbu.lastServed),
              relockCount := 0, runCount := run, runLast := s.tbu.time, counters := t.tbu.counters }
          ∧ ((∃ m, s.tbu.held = some m ∧ m.tracking = true ∧ m.seconds ≠ n) → t.tbu.counters =
              { s.tbu.counters with messageMismatches := bump s.tbu.counters.messageMismatches })
          ∧ ((∀ m, s.tbu.held = some m → m.tracking = true → m.seconds = n) → t.tbu.counters = s.tbu.counters)
          ∧ OnlyChanges [.tbu] s t)
        ∧ (8 ≤ run → ∃ t, exec .ppsEdge s = .next t
          ∧ t.tbu.state = .acquiring ∧ t.tbu.lockCount = 0 ∧ t.tbu.held = none
          ∧ t.tbu.cause = none ∧ t.tbu.eLast = 0 ∧ t.tbu.n = 0 ∧ t.tbu.h = 0
          ∧ (s.sst.live.stepThreshold < e.natAbs → s.tbu.time.tick < 27000000 →
              (∀ m, s.tbu.held = some m → m.tracking = true → m.seconds = n) →
              t.tbu.time = { sec := n, tick := 0 } ∧ t.tbu.integrator = s.tbu.integrator
              ∧ t.tbu.counters = { s.tbu.counters with timeSteps := bump s.tbu.counters.timeSteps })
          ∧ (∀ m, s.tbu.held = some m → m.tracking = true → m.seconds ≠ n → s.tbu.time.tick < 27000000 →
              nearestSecond t.tbu.time = m.seconds ∧ t.tbu.counters = { s.tbu.counters with
                timeSteps := bump s.tbu.counters.timeSteps
                messageMismatches := bump s.tbu.counters.messageMismatches })
          ∧ (e.natAbs ≤ s.sst.live.stepThreshold → t.tbu.lastLoopError = e)
          ∧ (s.CarrierConsistent → MuteTaken s t .timing true
              ∧ Raised s t .site (noticeAt t .timeState .none (.time .acquiring none) :: assertNotice s t))
          ∧ OnlyChanges [.tbu, .esc, .mgp] s t ∧ OnlyNotifies s t)))

/-- PPS_EDGE in LOCKED inside the lock window with no held message, or with one whose tracking bit is clear (R6, R12, R13,
R18): the loop runs with the track gains, in the order of R18, the outlier and missing counts become 0, and site time is not
stepped. The sixteenth loop pulse in a row whose word is saturated raises STEER-LIMIT with the limit it is at (R19, R21). A
message that agrees clears the mismatch count, and one that disagrees is counted (R6) and the third enters HOLDOVER with cause
TIME-MISMATCH. A pulse outside the lock window is an outlier: the loop does not run, and the third enters HOLDOVER with cause
REF-JUMP (R12, R14, and EXPIRED at once where the estimate is above its limit, R15). STEER-LIMIT, TIME-STATE and CARRIER-STATE
of one pulse are raised in this order (the model's, log 15). `n` and `e` are the pulse's nearest second and phase error, `w` is
the loop's word before it is limited, and `limit` the STEER-LIMIT notice where there is one. -/
def Obligations.LockedPulseRunsTheLoop : Prop :=
  (∀ (s : State) (e ec i w : Int) (limit : List Notice), s.Running → s.refok = true → s.tbu.state = .locked →
    e = phaseError s.tbu.time → e.natAbs ≤ s.sst.live.lockWindow → s.sst.live.lockWindow ≤ 2700 →
    s.tbu.lastServed ≠ some (nearestSecond s.tbu.time) → (∀ m, s.tbu.held = some m → m.tracking = false) →
    s.tbu.mismatchCount < 3 →
    ec = max (-32768) (min 32767 e) →
    i = max (-34359738368) (min 34359738367 (s.tbu.integrator - ec * 2 ^ s.sst.live.trackGi)) →
    w = convergent (i - ec * 2 ^ s.sst.live.trackGp) 65536 →
    limit = (if (w < -32768 ∨ 32767 < w) ∧ s.tbu.steerLimitRun + 1 = 16
      then [noticeAt s .steerLimit .none (.steer (decide (0 < w)))] else []) →
    ∃ t, exec .ppsEdge s = .next t
      ∧ t.tbu.held = none ∧ Raised s t .site limit
      ∧ t.tbu.integrator = i
      ∧ t.tbu.integratorSat = decide (i ≠ s.tbu.integrator - ec * 2 ^ s.sst.live.trackGi)
      ∧ t.tbu.steer = max (-32768) (min 32767 w) ∧ t.tbu.steerSat = decide (t.tbu.steer ≠ w)
      ∧ t.tbu.lastLoopError = e
      ∧ (s.tbu.shifting = none → t.tbu.shifting = some (BitVec.ofInt 16 (t.tbu.steer + 32768)))
      ∧ (s.tbu.shifting ≠ none → t.tbu.shifting = s.tbu.shifting
          ∧ t.tbu.waiting = some (BitVec.ofInt 16 (t.tbu.steer + 32768)))
      ∧ t.tbu.state = .locked ∧ t.tbu.time = s.tbu.time
      ∧ t.tbu.lastServed = some (nearestSecond s.tbu.time)
      ∧ t.tbu.outlierCount = 0 ∧ t.tbu.missingCount = 0 ∧ t.tbu.mismatchCount = s.tbu.mismatchCount
      ∧ t.tbu.steerLimitRun = (if t.tbu.steerSat then min (s.tbu.steerLimitRun + 1) (max 16 s.tbu.steerLimitRun) else 0)
      ∧ t.tbu.counters = s.tbu.counters
      ∧ OnlyChanges [.tbu, .mgp] s t ∧ OnlyNotifies s t)
  ∧ (∀ (s : State) (n : Word32) (e ec i w : Int) (limit : List Notice) (m : HeldMessage), s.Running → s.refok = true →
      s.tbu.state = .locked →
      n = nearestSecond s.tbu.time → e = phaseError s.tbu.time → s.tbu.held = some m → m.tracking = true →
      e.natAbs ≤ s.sst.live.lockWindow → s.sst.live.lockWindow ≤ 2700 → s.tbu.lastServed ≠ some n →
      ec = max (-32768) (min 32767 e) →
      i = max (-34359738368) (min 34359738367 (s.tbu.integrator - ec * 2 ^ s.sst.live.trackGi)) →
      w = convergent (i - ec * 2 ^ s.sst.live.trackGp) 65536 →
      limit = (if (w < -32768 ∨ 32767 < w) ∧ s.tbu.steerLimitRun + 1 = 16
        then [noticeAt s .steerLimit .none (.steer (decide (0 < w)))] else []) →
      ∃ t, exec .ppsEdge s = .next t
        ∧ t.tbu.integrator = i
        ∧ t.tbu.lastLoopError = e ∧ t.tbu.time = s.tbu.time ∧ t.tbu.held = none ∧ t.tbu.outlierCount = 0
        ∧ (m.seconds = n → t.tbu.state = .locked ∧ t.tbu.mismatchCount = 0 ∧ t.tbu.counters = s.tbu.counters
            ∧ t.tbu.steer = max (-32768) (min 32767 w) ∧ t.esc = s.esc ∧ Raised s t .site limit)
        ∧ (m.seconds ≠ n → t.tbu.mismatchCount = s.tbu.mismatchCount + 1
            ∧ t.tbu.counters = { s.tbu.counters with messageMismatches := bump s.tbu.counters.messageMismatches }
            ∧ (s.tbu.mismatchCount + 1 < 3 → t.tbu.state = .locked ∧ t.tbu.steer = max (-32768) (min 32767 w)
                ∧ t.esc = s.esc ∧ Raised s t .site limit)
            ∧ (3 ≤ s.tbu.mismatchCount + 1 → t.tbu.cause = some .timeMismatch ∧ t.tbu.eLast = e
                ∧ t.tbu.steer = max (-32768) (min 32767 (convergent i 65536))
                ∧ t.tbu.state = (if 256 * s.sst.live.emissionTolerance < 256 * e.natAbs then .expired else .holdover)
                ∧ (s.CarrierConsistent → t.esc.mute.timing = !t.tbu.state.fit ∧ Raised s t .site
                    (limit ++ noticeAt s .timeState .none (.time t.tbu.state (some .timeMismatch)) :: assertNotice s t))))
        ∧ OnlyChanges [.tbu, .esc, .mgp] s t ∧ OnlyNotifies s t)
  ∧ (∀ (s : State) (n : Word32) (e : Int) (mismatches : Nat), s.Running → s.refok = true → s.tbu.state = .locked →
      n = nearestSecond s.tbu.time → e = phaseError s.tbu.time → s.sst.live.lockWindow < e.natAbs →
      ¬ (e.natAbs ≤ 2700000 ∧ s.tbu.lastServed = some n) →
      mismatches = (match s.tbu.held with
        | some m => if m.tracking then (if m.seconds = n then 0 else s.tbu.mismatchCount + 1) else s.tbu.mismatchCount
        | none => s.tbu.mismatchCount) →
      ∃ t, exec .ppsEdge s = .next t
        ∧ t.tbu.integrator = s.tbu.integrator ∧ t.tbu.lastLoopError = s.tbu.lastLoopError ∧ t.tbu.time = s.tbu.time
        ∧ t.tbu.held = none ∧ t.tbu.outlierCount = s.tbu.outlierCount + 1 ∧ t.tbu.mismatchCount = mismatches
        ∧ t.tbu.counters.referenceOutliers = bump s.tbu.counters.referenceOutliers
        ∧ (e.natAbs ≤ 2700000 → t.tbu.lastServed = some n ∧ t.tbu.missingCount = 0)
        ∧ (2700000 < e.natAbs → t.tbu.lastServed = s.tbu.lastServed ∧ t.tbu.missingCount = s.tbu.missingCount)
        ∧ (s.tbu.outlierCount + 1 < 3 → mismatches < 3 → t.tbu.state = .locked ∧ t.tbu.steer = s.tbu.steer
            ∧ t.esc = s.esc ∧ t.mgp = s.mgp)
        ∧ (3 ≤ s.tbu.outlierCount + 1 → t.tbu.cause = some .refJump)
        ∧ (s.tbu.outlierCount + 1 < 3 → 3 ≤ mismatches → t.tbu.cause = some .timeMismatch)
        ∧ (3 ≤ s.tbu.outlierCount + 1 ∨ 3 ≤ mismatches →
            t.tbu.eLast = s.tbu.lastLoopError ∧ t.tbu.n = 0
            ∧ t.tbu.h = min (256 * s.tbu.lastLoopError.natAbs) 281474976710655
            ∧ t.tbu.steer = max (-32768) (min 32767 (convergent s.tbu.integrator 65536))
            ∧ t.tbu.relockCount = 0 ∧ t.tbu.runCount = 0
            ∧ t.tbu.state = (if 256 * s.sst.live.emissionTolerance < t.tbu.h then .expired else .holdover)
            ∧ (s.CarrierConsistent → t.esc.mute.timing = !t.tbu.state.fit
              ∧ Raised s t .site (noticeAt s .timeState .none (.time t.tbu.state t.tbu.cause) :: assertNotice s t)))
        ∧ OnlyChanges [.tbu, .esc, .mgp] s t ∧ OnlyNotifies s t)

/-- PPS_EDGE in ACQUIRING above the step threshold, with no message (R2, R7, R8, R11): a phase step makes site time the
pulse's nearest second, that boundary is served, supervision begins anew after it (log 1), and the loop is not updated; a step
acts on no slot, fill or break by itself (log 9). Up to the threshold, with no disagreeing message, the loop runs with the
acquire gains (R18), and the eighth pulse in a row inside the lock window enters LOCKED (R11). A disagreeing message (R6)
steps the second count, so that the pulse's nearest second is the message's, and is counted with one step in all (R2, R11).
`n` and `e` are the pulse's nearest second and phase error. -/
def Obligations.AcquiringPulseStepsTheTime : Prop :=
  (∀ s : State, s.Running → s.refok = true → s.tbu.state = .acquiring → s.ClockInRange → s.tbu.held = none →
    s.sst.live.stepThreshold < (phaseError s.tbu.time).natAbs →
    ¬ ((phaseError s.tbu.time).natAbs ≤ 2700000 ∧ s.tbu.lastServed = some (nearestSecond s.tbu.time)) →
    exec .ppsEdge s = .next (s.setTbu { s.tbu with
      time := { sec := nearestSecond s.tbu.time, tick := 0 }
      lastServed := some (nearestSecond s.tbu.time)
      lastMissing := none
      lockCount := 0
      counters := { s.tbu.counters with timeSteps := bump s.tbu.counters.timeSteps } }))
  ∧ (∀ (s : State) (n : Word32) (e : Int) (locks : Nat), s.Running → s.refok = true → s.tbu.state = .acquiring →
      n = nearestSecond s.tbu.time → e = phaseError s.tbu.time →
      ¬ (e.natAbs ≤ 2700000 ∧ s.tbu.lastServed = some n) →
      (e.natAbs ≤ s.sst.live.stepThreshold → (∀ m, s.tbu.held = some m → m.tracking = true → m.seconds = n) →
          locks = (if e.natAbs ≤ s.sst.live.lockWindow then s.tbu.lockCount + 1 else 0) →
        ∃ t, exec .ppsEdge s = .next t
          ∧ t.tbu.integrator = max (-34359738368) (min 34359738367
              (s.tbu.integrator - max (-32768) (min 32767 e) * 2 ^ s.sst.live.acquireGi))
          ∧ t.tbu.steer = max (-32768) (min 32767 (convergent
              (t.tbu.integrator - max (-32768) (min 32767 e) * 2 ^ s.sst.live.acquireGp) 65536))
          ∧ t.tbu.lastLoopError = e ∧ t.tbu.time = s.tbu.time ∧ t.tbu.held = none ∧ t.tbu.lockCount = locks
          ∧ t.tbu.counters = s.tbu.counters
          ∧ (locks < 8 → t.tbu.state = .acquiring ∧ t.esc = s.esc ∧ t.mgp = s.mgp)
          ∧ (8 ≤ locks → t.tbu.state = .locked ∧ t.tbu.outlierCount = 0 ∧ t.tbu.missingCount = 0
              ∧ t.tbu.mismatchCount = 0 ∧ t.tbu.steerLimitRun = 0
              ∧ (s.CarrierConsistent → MuteTaken s t .timing false
                ∧ Raised s t .site [noticeAt s .timeState .none (.time .locked none)]))
          ∧ OnlyChanges [.tbu, .esc, .mgp] s t ∧ OnlyNotifies s t)
      ∧ (∀ m, s.tbu.held = some m → m.tracking = true → m.seconds ≠ n → s.ClockInRange →
        ∃ t, exec .ppsEdge s = .next t
          ∧ (s.sst.live.stepThreshold < e.natAbs →
              t.tbu.time = { sec := m.seconds, tick := 0 } ∧ t.tbu.integrator = s.tbu.integrator)
          ∧ (e.natAbs ≤ s.sst.live.stepThreshold → t.tbu.lastLoopError = e ∧ t.tbu.time =
              { sec := if s.tbu.time.tick < 13500000 then m.seconds else m.seconds - 1, tick := s.tbu.time.tick })
          ∧ t.tbu.state = .acquiring ∧ t.tbu.lockCount = 0 ∧ t.tbu.held = none
          ∧ t.tbu.lastServed = some m.seconds ∧ t.tbu.lastMissing = none
          ∧ t.tbu.counters = { s.tbu.counters with
              timeSteps := bump s.tbu.counters.timeSteps
              messageMismatches := bump s.tbu.counters.messageMismatches }
          ∧ OnlyChanges [.tbu] s t))

/-- REFOK_RISE changes the level alone. REFOK_FALL (R4): nothing in UNSET, the lock count 0 in ACQUIRING, HOLDOVER with cause
REF-LOST from LOCKED (R14, and EXPIRED at once where the estimate is above its limit, R15, with TIME-STATE before
CARRIER-STATE, log 15), relock count and consistent run 0 in HOLDOVER and EXPIRED. That the level follows the line in reset
too is the model's choice (log 7). -/
def Obligations.RefokEdges : Prop :=
  (∀ s : State, exec .refokRise s = .next (s.setRefok true))
  ∧ ∀ s : State, s.Running → s.refok = true →
    ∃ t, exec .refokFall s = .next t
      ∧ t.refok = false
      ∧ (s.tbu.state = .unset → t = s.setRefok false)
      ∧ (s.tbu.state = .acquiring → t = (s.setTbu { s.tbu with lockCount := 0 }).setRefok false)
      ∧ (s.tbu.state = .holdover ∨ s.tbu.state = .expired →
          t = (s.setTbu { s.tbu with relockCount := 0, runCount := 0 }).setRefok false)
      ∧ (s.tbu.state = .locked →
          t.tbu.cause = some .refLost
          ∧ t.tbu.eLast = s.tbu.lastLoopError ∧ t.tbu.n = 0
          ∧ t.tbu.h = min (256 * s.tbu.lastLoopError.natAbs) 281474976710655
          ∧ t.tbu.steer = max (-32768) (min 32767 (convergent s.tbu.integrator 65536))
          ∧ t.tbu.relockCount = 0 ∧ t.tbu.runCount = 0
          ∧ t.tbu.integrator = s.tbu.integrator ∧ t.tbu.time = s.tbu.time
          ∧ t.tbu.state = (if 256 * s.sst.live.emissionTolerance < t.tbu.h then .expired else .holdover))
      ∧ (s.tbu.state = .locked → s.CarrierConsistent →
          t.esc.mute.timing = !t.tbu.state.fit
          ∧ Raised s t .site (noticeAt s .timeState .none (.time t.tbu.state (some .refLost)) :: assertNotice s t))
      ∧ OnlyChanges [.tbu, .esc, .mgp, .refok] s t ∧ OnlyNotifies s t

/-- MISSING_PULSE at B:2,700,000 of a boundary that is neither served nor declared missing (R8): counted, and handled by the
state (R11, R13, R16). That a boundary was declared missing is held in the model's own field (log 1). -/
def Obligations.MissingPulseByState : Prop :=
  ∀ s : State, s.Running → s.tbu.state ≠ .unset → s.tbu.time.tick = 2700000 →
    s.tbu.lastServed ≠ some s.tbu.time.sec → s.tbu.lastMissing ≠ some s.tbu.time.sec →
    ∃ t, exec .missingPulse s = .next t
      ∧ t.tbu.counters = { s.tbu.counters with missingPulses := bump s.tbu.counters.missingPulses }
      ∧ t.tbu.lastMissing = some s.tbu.time.sec ∧ t.tbu.time = s.tbu.time
      ∧ (s.tbu.state = .acquiring → t.tbu.lockCount = 0 ∧ t.tbu.state = .acquiring)
      ∧ (s.tbu.state = .locked → s.tbu.missingCount = 0 → t.tbu.missingCount = 1 ∧ t.tbu.state = .locked)
      ∧ (s.tbu.state = .locked → 1 ≤ s.tbu.missingCount →
          t.tbu.cause = some .pulseMissing ∧ t.tbu.n = 0
          ∧ t.tbu.h = min (256 * s.tbu.lastLoopError.natAbs) 281474976710655
          ∧ t.tbu.state = (if 256 * s.sst.live.emissionTolerance < t.tbu.h then .expired else .holdover))
      ∧ (s.tbu.state = .holdover ∨ s.tbu.state = .expired → t.tbu.relockCount = 0 ∧ t.tbu.state = s.tbu.state)
      ∧ OnlyChanges [.tbu, .esc, .mgp] s t ∧ OnlyNotifies s t

/-- STEERING_WORD_SENT (R20): the oscillator takes the word shifted out, and a waiting word follows at once. While a word is
shifted out, STDAT presents its bits most significant first, one for each STCLK cycle, and STLD pulses after the sixteenth (the
length of a cycle is a free value and that the pulse takes one cycle is the model's choice, log 21). The bytes of a time
message (R5): a byte other than the eighth joins the assembly, the eighth closes it and its eight bytes are checked, and a low
stop bit or a gap of more than 16 bit times abandons it (also where the byte opened it, log 11; a gap is measured from receipt
to receipt, log 33). A byte after such a gap finds the assembly abandoned and counted, whether or not
TIME_MESSAGE_INTERBYTE_TIMEOUT has run before it, and opens a new one. `u` is the part after the gap is judged, and `prior` the
assembly that the byte finds. -/
def Obligations.SerialLinesOfTheTimeBase : Prop :=
  (∀ (s : State) (w : Word16), s.Running → s.tbu.shifting = some w →
    exec .steeringWordSent s = .next (s.setTbu { s.tbu with
      loaded := some w, shifting := s.tbu.waiting, waiting := none, shiftTicks := 0 }))
  ∧ (∀ (t : Tbu) (w : Word16) (k r : Nat), t.shifting = some w → r ≤ Config.stclkTicks →
      t.shiftTicks = k * (Config.stclkTicks + 1) + r →
      (k < 16 → t.stclkRuns = true ∧ t.stdat = w.getLsbD (15 - k) ∧ t.stld = false)
      ∧ (k = 16 → t.stclkRuns = false ∧ t.stdat = false ∧ t.stld = true))
  ∧ ∀ (s u : State) (prior : List Byte) (b : Byte), s.Running →
    u = (if s.interbyteDue = true then s.setTbu { s.tbu with
        assembly := none, counters := { s.tbu.counters with badTimeMessages := bump s.tbu.counters.badTimeMessages } }
      else s) →
    (u.tbu.assembly.map (·.bytes)).getD [] = prior →
    (prior.length < 7 →
      exec (.timeMessageByte b true) s = .next (u.setTbu { u.tbu with assembly := some ⟨prior ++ [b], 0⟩ }))
    ∧ (prior.length = 7 → byteAt (prior ++ [b]) 1 = 0xA5#8 → byteAt (prior ++ [b]) 2 = 0x01#8 →
        ((prior ++ [b]).map BitVec.toNat).sum % 256 = 0 →
      exec (.timeMessage b true) s = .next (u.setTbu { u.tbu with
        assembly := none
        held := some { seconds := BitVec.ofNat 32 (ofBytes ((prior.drop 2).take 4)),
                       tracking := (byteAt prior 7).getLsbD 0 } }))
    ∧ (prior.length = 7 →
        ¬ (byteAt (prior ++ [b]) 1 = 0xA5#8 ∧ byteAt (prior ++ [b]) 2 = 0x01#8
          ∧ ((prior ++ [b]).map BitVec.toNat).sum % 256 = 0) →
      exec (.timeMessage b true) s = .next (u.setTbu { u.tbu with
        assembly := none, counters := { u.tbu.counters with badTimeMessages := bump u.tbu.counters.badTimeMessages } }))
    ∧ exec (.timeMessageByte b false) s = .next (u.setTbu { u.tbu with
        assembly := none, counters := { u.tbu.counters with badTimeMessages := bump u.tbu.counters.badTimeMessages } })
    ∧ (s.interbyteDue = true → exec .timeMessageInterbyteTimeout s = .next u)

/-! ## The Feed Intake -/

/-- FEED_PACKET_OPENS (R25) opens a packet with its first byte; SHORT_PACKET (R27) discards the open one, counted, and opens the
next. A short packet takes no slot number, writes nothing, and does not restart the gap timer; in ON it joins the bad run, and
the fourth makes the feed LOST (R29). -/
def Obligations.FeedPacketOpensAndShort : Prop :=
  ∀ (s : State) (b : Byte) (f : Bool), s.Running →
    ((∀ bytes g, s.fiu.framing ≠ .opened bytes g) →
      exec (.feedPacketOpens b f) s = .next (s.setFiu { s.fiu with framing := .opened [b] f }))
    ∧ (∀ bytes g, s.fiu.framing = .opened bytes g →
      ∃ t, exec (.shortPacket b f) s = .next t
        ∧ t.fiu.framing = .opened [b] f
        ∧ t.fiu.counters.shortPackets = bump s.fiu.counters.shortPackets
        ∧ t.fiu.slotCounter = s.fiu.slotCounter ∧ t.fiu.writeBuffer = s.fiu.writeBuffer
        ∧ t.fiu.handoff = s.fiu.handoff
        ∧ t.fiu.gapTimer = s.fiu.gapTimer ∧ t.fiu.gapLimit = s.fiu.gapLimit
        ∧ (s.fiu.state = .absent ∨ s.fiu.state = .lost → t.fiu.state = s.fiu.state)
        ∧ (s.fiu.state = .syncing → t.fiu.state = .syncing ∧ t.fiu.goodRun = 0)
        ∧ (s.fiu.state = .on → s.fiu.badRun + 1 < 4 → t.fiu.state = .on ∧ t.fiu.badRun = s.fiu.badRun + 1)
        ∧ (s.fiu.state = .on → 4 ≤ s.fiu.badRun + 1 →
            t.fiu.state = .lost ∧ t.fiu.counters.feedLosses = bump s.fiu.counters.feedLosses)
        ∧ (s.fiu.state ≠ .on → t.esc = s.esc ∧ t.mgp = s.mgp)
        ∧ OnlyChanges [.fiu, .esc, .mgp] s t ∧ OnlyNotifies s t)

/-- LONG_PACKET (R28): the first excess byte after a completion counts the packet long, further ones do not, and excess bytes
change nothing else: not the completed packet, not the gap timer, not the feed state. -/
def Obligations.ExcessBytesCountOnce : Prop :=
  ∀ s : State, s.Running →
    (s.fiu.framing = .completed →
      exec .longPacket s = .next (s.setFiu { s.fiu with
        framing := .excess, counters := { s.fiu.counters with longPackets := bump s.fiu.counters.longPackets } }))
    ∧ (s.fiu.framing = .excess → exec .longPacket s = .next s)

/-- PACKET_COMPLETE (R26, R30, R32, R33, R34, R39): the 188th byte of the open packet gives the packet its slot number, restarts
the gap timer, puts its entry in the feed write buffer or counts an intake overrun, and hands a control packet on or counts
its loss. -/
def Obligations.PacketCompletes : Prop :=
  ∀ (s : State) (head rest packet : List Byte) (f0 f : Bool) (v : Verdict), s.Running → s.fiu.framing = .opened head f0 →
    (head ++ rest).length = 188 →
    packet = heldPacket (head ++ rest) (f0 || f) → v = classify s.sst.live.map packet →
    ∃ t, exec (.packetComplete rest f) s = .next t
      ∧ t.fiu.framing = .completed
      ∧ t.fiu.slotCounter = s.fiu.slotCounter + 1
      ∧ t.fiu.gapTimer = some 0 ∧ t.fiu.gapLimit = s.sst.live.feedGapLimit * 27000
      ∧ (s.fiu.writeBuffer.length < 16 →
          t.fiu.writeBuffer = s.fiu.writeBuffer ++
            [{ slot := s.fiu.slotCounter, packet := packet,
               info := { tag := s.fiu.slotCounter.toNat % 65536, void := v.void, service := v.serviceNumber,
                         clockBearing := v.clockBearing, check := crc8 packet } }]
          ∧ t.fiu.counters.intakeOverruns = s.fiu.counters.intakeOverruns)
      ∧ (16 ≤ s.fiu.writeBuffer.length →
          t.fiu.writeBuffer = s.fiu.writeBuffer
          ∧ t.fiu.counters.intakeOverruns = bump s.fiu.counters.intakeOverruns)
      ∧ (v = .control → s.fiu.handoff.length < 4 → t.fiu.handoff = s.fiu.handoff ++ [⟨packet, s.fiu.slotCounter⟩])
      ∧ (v = .control → 4 ≤ s.fiu.handoff.length →
          t.fiu.handoff = s.fiu.handoff ∧ t.fiu.counters.handoffLosses = bump s.fiu.counters.handoffLosses)
      ∧ (v ≠ .control → t.fiu.handoff = s.fiu.handoff ∧ t.fiu.counters.handoffLosses = s.fiu.counters.handoffLosses)
      ∧ (v = .bad → t.fiu.counters.badPackets = bump s.fiu.counters.badPackets)
      ∧ (v = .drop → t.fiu.counters.droppedPackets = bump s.fiu.counters.droppedPackets)
      ∧ (v ≠ .bad → (f0 || f) = true → t.fiu.counters.erroredPackets = bump s.fiu.counters.erroredPackets)
      ∧ OnlyChanges [.fiu, .esc, .mgp] s t ∧ OnlyNotifies s t

/-- How completed packets move the feed state (R29, R31, R58): eight good packets in a row turn it ON and clear FEED, four bad
in a row turn ON into LOST and start the feed-out timer, and each change raises FEED-STATE, before the CARRIER-STATE of a
delay of 0 (log 15). -/
def Obligations.PacketsMoveTheFeedState : Prop :=
  ∀ (s : State) (head rest : List Byte) (f0 f : Bool), s.Running → s.CarrierConsistent → s.fiu.framing = .opened head f0 →
    (head ++ rest).length = 188 →
    ∃ t, exec (.packetComplete rest f) s = .next t
      ∧ (byteAt (head ++ rest) 1 = 0x47#8 →
          (s.fiu.state = .absent ∨ s.fiu.state = .lost →
            t.fiu.state = .syncing ∧ t.fiu.goodRun = 1 ∧ t.esc = s.esc
            ∧ Raised s t .site [noticeAt s .feedState .none (.feed .syncing)])
          ∧ (s.fiu.state = .syncing → s.fiu.goodRun + 1 < 8 →
            t.fiu.state = .syncing ∧ t.fiu.goodRun = s.fiu.goodRun + 1 ∧ t.esc = s.esc ∧ t.mgp = s.mgp)
          ∧ (s.fiu.state = .syncing → 8 ≤ s.fiu.goodRun + 1 →
            t.fiu.state = .on ∧ t.fiu.badRun = 0 ∧ t.esc.feedOutTimer = none ∧ t.esc.mute.feed = false
            ∧ MuteTaken s t .feed false
            ∧ Raised s t .site [noticeAt s .feedState .none (.feed .on)])
          ∧ (s.fiu.state = .on → t.fiu.state = .on ∧ t.fiu.badRun = 0 ∧ t.esc = s.esc ∧ t.mgp = s.mgp))
      ∧ (byteAt (head ++ rest) 1 ≠ 0x47#8 →
          (s.fiu.state = .absent ∨ s.fiu.state = .lost → t.fiu.state = s.fiu.state ∧ t.esc = s.esc ∧ t.mgp = s.mgp)
          ∧ (s.fiu.state = .syncing → t.fiu.state = .syncing ∧ t.fiu.goodRun = 0 ∧ t.esc = s.esc ∧ t.mgp = s.mgp)
          ∧ (s.fiu.state = .on → s.fiu.badRun + 1 < 4 →
            t.fiu.state = .on ∧ t.fiu.badRun = s.fiu.badRun + 1 ∧ t.esc = s.esc ∧ t.mgp = s.mgp)
          ∧ (s.fiu.state = .on → 4 ≤ s.fiu.badRun + 1 →
            t.fiu.state = .lost ∧ t.fiu.counters.feedLosses = bump s.fiu.counters.feedLosses
            ∧ (s.sst.live.feedMuteDelay ≠ 0 → t.esc = { s.esc with feedOutTimer := some 0 }
                ∧ Raised s t .site [noticeAt s .feedState .none (.feed .lost)])
            ∧ (s.sst.live.feedMuteDelay = 0 → t.esc.feedOutTimer = none ∧ MuteTaken s t .feed true
                ∧ Raised s t .site (noticeAt s .feedState .none (.feed .lost) :: assertNotice s t))))
      ∧ OnlyChanges [.fiu, .esc, .mgp] s t

/-- GAP_EXPIRY (R30) and FEED_OUT_TIMER_EXPIRY (R58): a timer that has reached its limit stops; the gap turns ON into LOST and
SYNCING into ABSENT, and the feed-out timer sets FEED, which asserts CARINH. -/
def Obligations.FeedTimersExpire : Prop :=
  ∀ (s : State) (n : Nat), s.Running →
    (s.fiu.gapTimer = some n → s.fiu.gapLimit ≤ n →
      ∃ t, exec .gapExpiry s = .next t
        ∧ t.fiu.gapTimer = none
        ∧ (s.fiu.state = .on → t.fiu.state = .lost ∧ t.fiu.counters.feedLosses = bump s.fiu.counters.feedLosses
            ∧ (s.sst.live.feedMuteDelay ≠ 0 → t.esc = { s.esc with feedOutTimer := some 0 }
                ∧ Raised s t .site [noticeAt s .feedState .none (.feed .lost)]))
        ∧ (s.fiu.state = .syncing → t.fiu.state = .absent ∧ t.fiu.goodRun = 0 ∧ t.esc = s.esc
            ∧ Raised s t .site [noticeAt s .feedState .none (.feed .absent)])
        ∧ (s.fiu.state = .absent ∨ s.fiu.state = .lost → t = s.setFiu { s.fiu with gapTimer := none })
        ∧ OnlyChanges [.fiu, .esc, .mgp] s t ∧ OnlyNotifies s t)
    ∧ (s.CarrierConsistent → s.esc.feedOutTimer = some n → s.sst.live.feedMuteDelay * 27000 ≤ n →
      ∃ t, exec .feedOutTimerExpiry s = .next t
        ∧ t.esc.feedOutTimer = none ∧ MuteTaken s t .feed true ∧ t.esc.carinh = .asserted
        ∧ Raised s t .site (assertNotice s t)
        ∧ OnlyChanges [.esc, .mgp] s t ∧ OnlyNotifies s t)

/-- FEED_WRITE (R40): the ring write rule on the head entry of the feed write buffer. A stored entry replaces the 192 bytes of
ring slot s mod R and marks it written, and no other byte of memory; a late or overrunning entry writes nothing and is
counted. -/
def Obligations.RingWriteRule : Prop :=
  ∀ (s : State) (e : FeedEntry) (rest : List FeedEntry) (i : Nat), s.Running → s.grant? = some .feedWrite →
    s.fiu.writeBuffer = e :: rest → i = e.slot.toNat % s.fiu.ringSize → i < 524288 →
    ∃ t, exec .feedWrite s = .next t
      ∧ t.fiu.writeBuffer = rest ∧ t.csc.marker = .feed
      ∧ ((s.esc.running = false ∨ (∃ f, s.esc.fetchPos = some f ∧ 0 ≤ sdiff e.slot f
            ∧ sdiff e.slot f < (s.fiu.ringSize : Int))) →
          (∀ j, j < 192 → Memory.read t.csc.memory (192 * i + j) = (slotImage e.packet e.info).getD j 0#8)
          ∧ (∀ a, a < 192 * i ∨ 192 * i + 192 ≤ a → Memory.read t.csc.memory a = Memory.read s.csc.memory a)
          ∧ t.csc.written = markSlot i s.csc.written
          ∧ t.fiu = { s.fiu with writeBuffer := rest })
      ∧ (∀ f, s.esc.running = true → s.esc.fetchPos = some f → sdiff e.slot f < 0 →
          t.csc = { s.csc with marker := .feed }
          ∧ t.fiu = { s.fiu with writeBuffer := rest, counters := { s.fiu.counters with
              latePackets := bump s.fiu.counters.latePackets } })
      ∧ (∀ f, s.esc.running = true → s.esc.fetchPos = some f → 0 ≤ sdiff e.slot f →
            (s.fiu.ringSize : Int) ≤ sdiff e.slot f →
          t.csc = { s.csc with marker := .feed }
          ∧ t.fiu = { s.fiu with writeBuffer := rest, counters := { s.fiu.counters with
              ringOverruns := bump s.fiu.counters.ringOverruns } })
      ∧ t.csc.directory = s.csc.directory ∧ t.csc.reads = s.csc.reads ∧ t.csc.load = s.csc.load
      ∧ OnlyChanges [.fiu, .csc] s t

/-! ## The Directive Decoder -/

/-- TAKE_CONTROL_PACKET (R66 to R69): the head of the hand-off queue becomes the packet in hand, and is checked as a whole in
the order of R67 and then by its sequence count. UNKNOWN_DIRECTIVE skips a directive and counts it; DIRECTIVE_OVERRUN counts
and ends the handling of the packet (R69). -/
def Obligations.ControlPacketIsParsed : Prop :=
  (∀ (s : State) (c : ControlPacket) (rest : List ControlPacket), s.Running → s.ddc.inHand = none → s.fiu.handoff = c :: rest →
    ∃ t, exec .takeControlPacket s = .next t
      ∧ t.fiu = { s.fiu with handoff := rest }
      ∧ (errorMark c.packet = true →
          t.ddc = { s.ddc with counters := { s.ddc.counters with errored := bump s.ddc.counters.errored } })
      ∧ (errorMark c.packet = false → (scrambling c.packet ≠ 0 ∨ adaptation c.packet ≠ 1) →
          t.ddc = { s.ddc with counters := { s.ddc.counters with formatRefused := bump s.ddc.counters.formatRefused } })
      ∧ (errorMark c.packet = false → scrambling c.packet = 0 → adaptation c.packet = 1 →
          (crc32 (payloadBytes c.packet 1 180)).toNat ≠ ofBytes (payloadBytes c.packet 181 4) →
          t.ddc = { s.ddc with counters := { s.ddc.counters with checkFailures := bump s.ddc.counters.checkFailures } })
      ∧ (errorMark c.packet = false → scrambling c.packet = 0 → adaptation c.packet = 1 →
          (crc32 (payloadBytes c.packet 1 180)).toNat = ofBytes (payloadBytes c.packet 181 4) →
          (payloadByte c.packet 1 ≠ 0x01#8 →
            t.ddc = { s.ddc with counters := { s.ddc.counters with formatRefused := bump s.ddc.counters.formatRefused } })
          ∧ (payloadByte c.packet 1 = 0x01#8 → s.ddc.lastSeq = some (packetSequence c.packet) → t.ddc = s.ddc)
          ∧ (payloadByte c.packet 1 = 0x01#8 → s.ddc.lastSeq ≠ some (packetSequence c.packet) →
            t.ddc.lastSeq = some (packetSequence c.packet)
            ∧ t.ddc.counters.accepted = bump s.ddc.counters.accepted
            ∧ (∀ l, s.ddc.lastSeq = some l → packetSequence c.packet ≠ l + 1 →
                t.ddc.counters.missed = bump s.ddc.counters.missed)
            ∧ (payloadByte c.packet 4 = 0#8 → t.ddc.inHand = none)
            ∧ (payloadByte c.packet 4 ≠ 0#8 → t.ddc.inHand =
                some { packet := c.packet, slot := c.slot, pos := 5, left := (payloadByte c.packet 4).toNat })))
      ∧ OnlyChanges [.fiu, .ddc] s t)
  ∧ (∀ (s : State) (h : InHand), s.Running → s.ddc.inHand = some h →
    (∀ d, h.directive? = some d →
        (d.kind ≠ 0x01#8 ∧ d.kind ≠ 0x10#8 ∧ d.kind ≠ 0x11#8 ∧ d.kind ≠ 0x12#8 ∧ d.kind ≠ 0x20#8) →
      exec .unknownDirective s = .next (s.setDdc { s.ddc with
        inHand := if h.left ≤ 1 then none else some { h with pos := h.pos + 2 + d.body.length, left := h.left - 1 }
        counters := { s.ddc.counters with unknown := bump s.ddc.counters.unknown } }))
    ∧ ((180 < h.pos + 1 ∨ 180 < h.pos + 1 + (payloadByte h.packet (h.pos + 1)).toNat) →
      exec .directiveOverrun s = .next (s.setDdc { s.ddc with
        inHand := none, counters := { s.ddc.counters with overruns := bump s.ddc.counters.overruns } })))

/-- SITE_MUTE (R59, R70, R71, R78): a well-formed order for this site sets or clears NETWORK; one for another site and a
malformed one are counted. In each case parsing goes on. -/
def Obligations.SiteMuteOrder : Prop :=
  ∀ (s : State) (h : InHand) (d : Directive), s.Running → s.CarrierConsistent → s.ddc.inHand = some h →
    h.directive? = some d → d.kind = 0x20#8 →
    ∃ t, exec .siteMute s = .next t
      ∧ t.ddc.inHand = h.advance d.body.length
      ∧ (d.body.length = 3 → (byteAt d.body 3 = 0#8 ∨ byteAt d.body 3 = 1#8) →
          (bodyNum d.body 1 2 = 0xFFFF ∨ s.sst.live.siteNumber = some (bodyNum d.body 1 2)) →
          MuteTaken s t .network (byteAt d.body 3 == 1#8) ∧ Raised s t .site (assertNotice s t)
          ∧ t.ddc.counters = s.ddc.counters)
      ∧ (d.body.length = 3 → (byteAt d.body 3 = 0#8 ∨ byteAt d.body 3 = 1#8) →
          bodyNum d.body 1 2 ≠ 0xFFFF → s.sst.live.siteNumber ≠ some (bodyNum d.body 1 2) →
          t.esc = s.esc ∧ t.mgp = s.mgp
          ∧ t.ddc.counters = { s.ddc.counters with otherSites := bump s.ddc.counters.otherSites })
      ∧ ((d.body.length ≠ 3 ∨ (byteAt d.body 3 ≠ 0#8 ∧ byteAt d.body 3 ≠ 1#8)) →
          t.esc = s.esc ∧ t.mgp = s.mgp
          ∧ t.ddc.counters = { s.ddc.counters with malformed := bump s.ddc.counters.malformed })
      ∧ OnlyChanges [.ddc, .esc, .mgp] s t ∧ OnlyNotifies s t

/-- BREAK_NOTICE for a number not in the table (R72, R74, R75, R83, R85, R86): refused INCOMPLETE, LATE, OVERLAP or, in a table
full of unfinished entries, PLAN-FULL in that order, otherwise an entry is made, in FALLBACK with reason LATE where its arm
time has been reached; in a full table the finished entry with the earliest end, and then the lowest number, makes room, and a
reservation that named it is orphaned (R87). For a number in the table the notice is a revision (R88 to R90): ignored by a
finished entry, refused INVALID, LATE or OVERLAP in the order of R88, and otherwise applied, with BREAK-REVISED where a value
changes, followed by the arming, the end or the pending closure that the new values call for. A revision of an ARMED entry that
changes only the plan recomputes its arm time too (the model's reading, log 30), and an entry that a revision returns to BOOKED
is judged by site time as it stands (the model's choice, log 35). A malformed notice (R70) and one for another area (R71) are
counted and not delivered. Times are the notice's plus the site offset, compared across the wrap of the second count as break
times are (log 34). `start`, `finish`, `plan` and `policy` of a revision are the merged values, `m` the present mask, and `o`
the places of its fields. -/
def Obligations.FirstNoticeMakesAnEntry : Prop :=
  (∀ (s : State) (h : InHand) (d : Directive) (f : NoticeFields), s.Running → s.ddc.inHand = some h →
    h.directive? = some d → d.kind = 0x10#8 → parseNotice? d.body = some f →
    (f.area = 0#8 ∨ s.sst.live.areaCode = some f.area.toNat) → s.findBreak? f.number = none →
    ∃ t, exec .breakNotice s = .next t
      ∧ t.ddc.inHand = h.advance d.body.length
      ∧ ((f.start = none ∨ f.finish = none ∨ f.policy = none) →
          t.bpu = s.bpu
          ∧ t.ddc.counters = { s.ddc.counters with incompleteNotices := bump s.ddc.counters.incompleteNotices }
          ∧ Raised s t .site [noticeAt s .noticeRefused (.breakNumber f.number) (.refusal .incomplete)])
      ∧ (∀ a b p start finish, f.start = some a → f.finish = some b → f.policy = some p →
          start = a.add (s.sst.live.siteOffset.getD 0) → finish = b.add (s.sst.live.siteOffset.getD 0) →
          (s.tbu.time.before start = false →
            t.bpu = { s.bpu with counters := { s.bpu.counters with noticesRefused := bump s.bpu.counters.noticesRefused } }
            ∧ Raised s t .site [noticeAt s .noticeRefused (.breakNumber f.number) (.refusal .late)])
          ∧ (s.tbu.time.before start = true → overlapsOther s.bpu.table f.number f.service start finish = true →
            t.bpu = { s.bpu with counters := { s.bpu.counters with noticesRefused := bump s.bpu.counters.noticesRefused } }
            ∧ Raised s t .site [noticeAt s .noticeRefused (.breakNumber f.number) (.refusal .overlap)])
          ∧ (s.tbu.time.before start = true → overlapsOther s.bpu.table f.number f.service start finish = false →
              s.bpu.table.length < 16 →
            (∀ n, n ≠ f.number → t.findBreak? n = s.findBreak? n)
            ∧ t.bpu.staging = s.bpu.staging ∧ t.bpu.counters = s.bpu.counters
            ∧ (s.tbu.time.before (start.add (-((s.sst.live.armLead * 27000 : Nat) : Int))) = true →
                t.findBreak? f.number = some
                  { number := f.number, service := f.service, area := f.area, start := start, finish := finish,
                    arm := start.add (-((s.sst.live.armLead * 27000 : Nat) : Int)), plan := f.plan, policy := p,
                    state := .announced }
                ∧ RaisedBoth s t [noticeAt s .breakAnnounced (.breakNumber f.number) .none])
            ∧ (s.tbu.time.before (start.add (-((s.sst.live.armLead * 27000 : Nat) : Int))) = false →
                t.findBreak? f.number = some
                  { number := f.number, service := f.service, area := f.area, start := start, finish := finish,
                    arm := start.add (-((s.sst.live.armLead * 27000 : Nat) : Int)), plan := f.plan, policy := p,
                    state := .fallback, reason := some .late }
                ∧ RaisedBoth s t [noticeAt s .breakAnnounced (.breakNumber f.number) .none,
                    noticeAt s .breakFallback (.breakNumber f.number) (.reason .late)]))
          ∧ (s.tbu.time.before start = true → overlapsOther s.bpu.table f.number f.service start finish = false →
              16 ≤ s.bpu.table.length →
            ((∀ x ∈ s.bpu.table, x.state ≠ .ended ∧ x.state ≠ .cancelled) →
              t.bpu = { s.bpu with counters := { s.bpu.counters with noticesRefused := bump s.bpu.counters.noticesRefused } }
              ∧ Raised s t .site [noticeAt s .noticeRefused (.breakNumber f.number) (.refusal .planFull)])
            ∧ (∀ v ∈ s.bpu.table, (v.state = .ended ∨ v.state = .cancelled) →
                (∀ x ∈ s.bpu.table, (x.state = .ended ∨ x.state = .cancelled) → x ≠ v →
                  v.finish.before x.finish = true ∨ (v.finish = x.finish ∧ v.number.toNat < x.number.toNat)) →
              (∀ arm late e, arm = start.add (-((s.sst.live.armLead * 27000 : Nat) : Int)) → late = !s.tbu.time.before arm →
                e = { number := f.number, service := f.service, area := f.area, start := start, finish := finish, arm := arm,
                      plan := f.plan, policy := p, state := if late then .fallback else .announced,
                      reason := if late then some .late else none } →
                t.findBreak? f.number = some e
                ∧ t.bpu.table = insertBreak e (s.bpu.table.filter (fun x => x.number ≠ v.number))
                ∧ RaisedBoth s t (noticeAt s .breakAnnounced (.breakNumber f.number) .none ::
                    (if late then [noticeAt s .breakFallback (.breakNumber f.number) (.reason .late)] else [])))
              ∧ t.findBreak? v.number = none
              ∧ t.bpu.counters = s.bpu.counters
              ∧ (∀ r, t.bpu.staging.get r = { s.bpu.staging.get r with reservation :=
                  match (s.bpu.staging.get r).reservation with
                  | .held n rev => if n = v.number then .orphaned v.number else .held n rev
                  | .orphaned n => .orphaned n
                  | .none => .none })
              ∧ t.csc = s.csc)))
      ∧ OnlyChanges [.ddc, .bpu, .csc, .mgp] s t ∧ OnlyNotifies s t)
  ∧ (∀ (s : State) (h : InHand) (d : Directive) (f : NoticeFields) (e : BreakEntry) (start finish : SiteTime)
      (plan : Option Word32) (policy : Policy), s.Running → s.ddc.inHand = some h →
      h.directive? = some d → d.kind = 0x10#8 → parseNotice? d.body = some f →
      (f.area = 0#8 ∨ s.sst.live.areaCode = some f.area.toNat) → s.findBreak? f.number = some e →
      start = (f.start.map (·.add (s.sst.live.siteOffset.getD 0))).getD e.start →
      finish = (f.finish.map (·.add (s.sst.live.siteOffset.getD 0))).getD e.finish →
      plan = (f.plan.map some).getD e.plan → policy = f.policy.getD e.policy →
    ∃ t, exec .breakNotice s = .next t
      ∧ t.ddc = { s.ddc with inHand := h.advance d.body.length }
      ∧ ((e.state = .ended ∨ e.state = .cancelled) → t.bpu = s.bpu ∧ t.csc = s.csc ∧ t.mgp = s.mgp)
      ∧ (e.state ≠ .ended → e.state ≠ .cancelled →
        (∀ why,
            ((f.service ≠ e.service ∧ why = .invalid)
              ∨ (f.service = e.service ∧ start.before finish = false ∧ why = .invalid)
              ∨ (f.service = e.service ∧ start.before finish = true
                  ∧ (e.state = .announced ∨ e.state = .booked ∨ e.state = .armed) ∧ start ≠ e.start
                  ∧ s.tbu.time.before start = false ∧ why = .late)
              ∨ (f.service = e.service ∧ start.before finish = true
                  ∧ ¬ ((e.state = .announced ∨ e.state = .booked ∨ e.state = .armed) ∧ start ≠ e.start
                    ∧ s.tbu.time.before start = false)
                  ∧ overlapsOther s.bpu.table e.number e.service (if e.state = .active then e.start else start) finish = true
                  ∧ why = .overlap)) →
            t.bpu = { s.bpu with counters := { s.bpu.counters with noticesRefused := bump s.bpu.counters.noticesRefused } }
            ∧ t.csc = s.csc ∧ Raised s t .insertion []
            ∧ Raised s t .site [noticeAt s .noticeRefused (.breakNumber f.number) (.refusal why)])
        ∧ (f.service = e.service → start.before finish = true →
            ¬ ((e.state = .announced ∨ e.state = .booked ∨ e.state = .armed) ∧ start ≠ e.start
              ∧ s.tbu.time.before start = false) →
            overlapsOther s.bpu.table e.number e.service (if e.state = .active then e.start else start) finish = false →
          (e.state ≠ .active → start = e.start → finish = e.finish → plan = e.plan → policy = e.policy → f.area = e.area →
            t.bpu = s.bpu ∧ t.csc = s.csc ∧ t.mgp = s.mgp)
          ∧ (∀ changed, e.state = .active → changed = decide (finish ≠ e.finish ∨ f.area ≠ e.area) →
              t.findBreak? f.number = some { e with
                finish := finish, area := f.area, revision := if changed then e.revision + 1 else e.revision
                closure := if finish ≠ e.finish ∧ s.fetchReached finish = true then some (e.closure.getD .shortened)
                  else e.closure }
              ∧ t.bpu.counters = (if start ≠ e.start ∨ policy ≠ e.policy ∨ plan ≠ e.plan
                  then { s.bpu.counters with lateRevisions := bump s.bpu.counters.lateRevisions } else s.bpu.counters)
              ∧ t.csc = s.csc
              ∧ RaisedBoth s t (if changed
                  then [noticeAt s .breakRevised (.breakNumber f.number) (.revision (e.revision + 1))] else []))
          ∧ (∀ new rearmed, e.state ≠ .active →
              ¬ (start = e.start ∧ finish = e.finish ∧ plan = e.plan ∧ policy = e.policy ∧ f.area = e.area) →
              rearmed = decide (e.state = .armed ∧ (start ≠ e.start ∨ plan ≠ e.plan)) →
              new = { e with
                start := start, finish := finish, area := f.area, plan := plan, policy := policy
                arm := if start ≠ e.start ∨ rearmed = true
                  then start.add (-((s.sst.live.armLead * 27000 : Nat) : Int)) else e.arm
                state := if rearmed then .booked else e.state
                revision := e.revision + 1 } →
              (e.state = .fallback → e.windowOpen = true →
                t.findBreak? f.number = some
                  (if finish ≠ e.finish ∧ s.fetchReached finish = true
                    then { new with closure := some (e.closure.getD .shortened) } else new)
                ∧ t.csc = s.csc
                ∧ RaisedBoth s t [noticeAt s .breakRevised (.breakNumber f.number) (.revision (e.revision + 1))])
              ∧ (¬ (e.state = .fallback ∧ e.windowOpen = true) →
                ∃ u w x,
                  u.bpu = { s.bpu with table := (if start = e.start
                    then s.bpu.table.map (fun y => if y.number = f.number then new else y)
                    else insertBreak new (s.bpu.table.filter (fun y => y.number ≠ f.number))) }
                  ∧ RaisedBoth s u [noticeAt s .breakRevised (.breakNumber f.number) (.revision (e.revision + 1))]
                  ∧ OnlyChanges [.bpu, .mgp] s u ∧ OnlyNotifies s u
                  ∧ ((new.arm ≠ e.arm ∨ rearmed = true) →
                      exec (.armTimeReached f.number) u = .next w ∧ exec (.endReached f.number) w = .next x)
                  ∧ (new.arm = e.arm → rearmed = false → finish ≠ e.finish → exec (.endReached f.number) u = .next x)
                  ∧ (new.arm = e.arm → rearmed = false → finish = e.finish → x = u)
                  ∧ t.bpu = x.bpu ∧ t.csc = x.csc ∧ t.mgp = x.mgp))))
      ∧ OnlyChanges [.ddc, .bpu, .csc, .mgp] s t ∧ OnlyNotifies s t)
  ∧ (∀ (s : State) (h : InHand) (d : Directive) (m : Byte) (o : Nat → Nat), s.Running → s.ddc.inHand = some h →
      h.directive? = some d → d.kind = 0x10#8 → m = byteAt d.body 5 →
      o = (fun k => (if m.getLsbD 0 ∧ 0 < k then 8 else 0) + (if m.getLsbD 1 ∧ 1 < k then 8 else 0)
        + (if m.getLsbD 2 ∧ 2 < k then 4 else 0) + (if m.getLsbD 3 ∧ 3 < k then 1 else 0)) →
      ((d.body.length < 5 ∨ d.body.length ≠ 5 + o 4 ∨ 16 ≤ m.toNat
          ∨ (byteAt d.body 3).toNat < 1 ∨ 4 < (byteAt d.body 3).toNat
          ∨ (m.getLsbD 0 = true ∧ 27000000 ≤ bodyNum d.body 10 4)
          ∨ (m.getLsbD 1 = true ∧ 27000000 ≤ bodyNum d.body (10 + o 1) 4)
          ∨ (m.getLsbD 0 = true ∧ m.getLsbD 1 = true ∧ (bodyTime d.body 6).before (bodyTime d.body 14) = false)
          ∨ (m.getLsbD 3 = true ∧ 1 < (byteAt d.body (6 + o 3)).toNat)) →
        exec .breakNotice s = .next (s.setDdc { s.ddc with
          inHand := h.advance d.body.length
          counters := { s.ddc.counters with malformed := bump s.ddc.counters.malformed } }))
      ∧ (∀ f, parseNotice? d.body = some f → f.area ≠ 0#8 → s.sst.live.areaCode ≠ some f.area.toNat →
        exec .breakNotice s = .next (s.setDdc { s.ddc with
          inHand := h.advance d.body.length
          counters := { s.ddc.counters with otherAreas := bump s.ddc.counters.otherAreas } })))

/-- BREAK_CANCEL (R76, R91) on the entry with its number, and RETURN_NOW (R77, R92) on the entry of its service with a window
to close, each for an area that passes the filter (R71). A return closes a blank window whatever the policy has become (log
29). A malformed order (R70) and one for another area are counted and not delivered. -/
def Obligations.CancelAndReturnNow : Prop :=
  ∀ (s : State) (h : InHand) (d : Directive), s.Running → s.ddc.inHand = some h → h.directive? = some d →
    (∀ n, d.kind = 0x11#8 → d.body.length = 3 → n = BitVec.ofNat 16 (bodyNum d.body 1 2) →
        (byteAt d.body 3 = 0#8 ∨ s.sst.live.areaCode = some (byteAt d.body 3).toNat) →
      ∃ t, exec .breakCancel s = .next t
        ∧ t.ddc = { s.ddc with inHand := h.advance d.body.length }
        ∧ (s.findBreak? n = none →
            t.bpu = { s.bpu with counters := { s.bpu.counters with unknownCancels := bump s.bpu.counters.unknownCancels } })
        ∧ (∀ e, s.findBreak? n = some e →
            ((e.state = .ended ∨ e.state = .cancelled) → t.bpu = s.bpu)
            ∧ ((e.state = .active ∨ (e.state = .fallback ∧ e.windowOpen = true)) →
                t.findBreak? n = some { e with closure := some .cancelled } ∧ t.csc = s.csc ∧ t.mgp = s.mgp)
            ∧ ((e.state = .announced ∨ e.state = .booked ∨ e.state = .armed
                  ∨ (e.state = .fallback ∧ e.windowOpen = false)) →
                t.findBreak? n =
                  some { e with state := .cancelled, outcome := some .cancelled, closure := none, windowOpen := false }
                ∧ t.csc = (s.dropPins e.pinned).csc
                ∧ RaisedBoth s t [noticeAt s .breakEnded (.breakNumber n) (.ended .cancelled)]))
        ∧ (∀ m, m ≠ n → t.findBreak? m = s.findBreak? m)
        ∧ OnlyChanges [.ddc, .bpu, .csc, .mgp] s t ∧ OnlyNotifies s t)
    ∧ (∀ v, d.kind = 0x12#8 → d.body.length = 2 → Service.ofNat? (byteAt d.body 1).toNat = some v →
        (byteAt d.body 2 = 0#8 ∨ s.sst.live.areaCode = some (byteAt d.body 2).toNat) →
      ∃ t, exec .returnNow s = .next t
        ∧ t.ddc = { s.ddc with inHand := h.advance d.body.length }
        ∧ (∀ e, openEntry? s.bpu.table v = some e →
            t.bpu = { s.bpu with table := s.bpu.table.map (fun x =>
              if x.number = e.number then { x with closure := some (x.closure.getD .shortened) } else x) })
        ∧ ((∀ e ∈ s.bpu.table, e.service = v → e.state ≠ .active ∧ ¬ (e.state = .fallback ∧ e.windowOpen = true)) →
            t.bpu = { s.bpu with counters := { s.bpu.counters with returnsIgnored := bump s.bpu.counters.returnsIgnored } })
        ∧ OnlyChanges [.ddc, .bpu] s t)
    ∧ (d.kind = 0x11#8 → d.body.length ≠ 3 →
        exec .breakCancel s = .next (s.setDdc { s.ddc with
          inHand := h.advance d.body.length
          counters := { s.ddc.counters with malformed := bump s.ddc.counters.malformed } }))
    ∧ (d.kind = 0x11#8 → d.body.length = 3 → byteAt d.body 3 ≠ 0#8 → s.sst.live.areaCode ≠ some (byteAt d.body 3).toNat →
        exec .breakCancel s = .next (s.setDdc { s.ddc with
          inHand := h.advance d.body.length
          counters := { s.ddc.counters with otherAreas := bump s.ddc.counters.otherAreas } }))
    ∧ (d.kind = 0x12#8 → (d.body.length ≠ 2 ∨ (byteAt d.body 1).toNat < 1 ∨ 4 < (byteAt d.body 1).toNat) →
        exec .returnNow s = .next (s.setDdc { s.ddc with
          inHand := h.advance d.body.length
          counters := { s.ddc.counters with malformed := bump s.ddc.counters.malformed } }))
    ∧ (d.kind = 0x12#8 → d.body.length = 2 → 1 ≤ (byteAt d.body 1).toNat → (byteAt d.body 1).toNat ≤ 4 →
        byteAt d.body 2 ≠ 0#8 → s.sst.live.areaCode ≠ some (byteAt d.body 2).toNat →
        exec .returnNow s = .next (s.setDdc { s.ddc with
          inHand := h.advance d.body.length
          counters := { s.ddc.counters with otherAreas := bump s.ddc.counters.otherAreas } }))

/-- EMISSION_MARK (R44, R45, R48, R70, R73): with the feed ON, the first usable mark starts the schedule with its anchor and
the first slot that passes the two tests of R50 (found in the closed form of log 12, with the times of log 40 after 2^32
skipped slots), and an unusable mark is refused; with the feed not ON the mark is counted. On a schedule that runs, a mark not
after the newest anchor is refused, one that meets a full queue overflows, and any other is appended with the anchors that the
fetch position has passed removed (R46, R51); its disagreement with the newest anchor's schedule beyond the mark tolerance is a
schedule step with MARK-STEP, and its sequence and count are compared with the newest anchor's (R47). -/
def Obligations.FirstMarkStartsTheSchedule : Prop :=
  ∀ (s : State) (h : InHand) (d : Directive), s.Running → s.ddc.inHand = some h → h.directive? = some d → d.kind = 0x01#8 →
    ∃ t, exec .emissionMark s = .next t
      ∧ t.ddc.inHand = h.advance d.body.length
      ∧ (parseMark? d.body = none → t.esc = s.esc
          ∧ t.ddc.counters = { s.ddc.counters with malformed := bump s.ddc.counters.malformed })
      ∧ ((d.body.length ≠ 15 ∨ bodyNum d.body 2 2 = 0) → parseMark? d.body = none)
      ∧ (∀ m, parseMark? d.body = some m → s.fiu.state ≠ .on → t.esc = s.esc
          ∧ t.ddc.counters = { s.ddc.counters with marksWithoutFeed := bump s.ddc.counters.marksWithoutFeed })
      ∧ (∀ m, parseMark? d.body = some m → s.fiu.state = .on →
          (m.rate < 1000000 ∨ 60000000 < m.rate ∨ 27000000 ≤ m.ticks) →
          t.esc = { s.esc with counters := { s.esc.counters with marksRefused := bump s.esc.counters.marksRefused } })
      ∧ (∀ m a k, parseMark? d.body = some m → s.fiu.state = .on →
          1000000 ≤ m.rate → m.rate ≤ 60000000 → m.ticks < 27000000 → s.esc.anchors = [] →
          a = { ref := h.slot + 1,
                time := SiteTime.add { sec := m.sec, tick := m.ticks } (s.sst.live.siteOffset.getD 0),
                period := 40608000000 * 16777216 / m.rate, seq := m.seq } →
          k = skipsUnder a a.ref s.tbu.time s.esc.lastEmission →
          t.esc.running = true ∧ t.esc.anchors = [a] ∧ t.esc.mute.schedule = false
          ∧ t.esc.next = some (a.slotTimes (a.ref + BitVec.ofNat 32 k))
          ∧ (firstWaiting? s.csc.reads = none → t.esc.fetchPos = some (a.ref + BitVec.ofNat 32 k))
          ∧ t.esc.counters.skippedSlots = bumpBy s.esc.counters.skippedSlots k
          ∧ t.ddc.counters = s.ddc.counters)
      ∧ (∀ m a newest, parseMark? d.body = some m → s.fiu.state = .on →
          1000000 ≤ m.rate → m.rate ≤ 60000000 → m.ticks < 27000000 → s.esc.anchors.getLast? = some newest →
          a = { ref := h.slot + 1,
                time := SiteTime.add { sec := m.sec, tick := m.ticks } (s.sst.live.siteOffset.getD 0),
                period := 40608000000 * 16777216 / m.rate, seq := m.seq } →
          (sdiff a.ref newest.ref ≤ 0 → t.mgp = s.mgp
            ∧ t.esc = { s.esc with counters := { s.esc.counters with marksRefused := bump s.esc.counters.marksRefused } })
          ∧ (0 < sdiff a.ref newest.ref → 32 ≤ s.esc.anchors.length → t.mgp = s.mgp
            ∧ t.esc = { s.esc with counters := { s.esc.counters with anchorOverflows := bump s.esc.counters.anchorOverflows } })
          ∧ (∀ between disagreement stepped, 0 < sdiff a.ref newest.ref → s.esc.anchors.length < 32 →
              between = (a.ref - newest.ref).toNat →
              disagreement = a.time.since newest.time * 16777216 - ((between * newest.period : Nat) : Int) →
              stepped = decide (s.sst.live.markTolerance * 16777216 < disagreement.natAbs) →
            t.esc = { s.esc with
              anchors := t.esc.anchors, fetchPos := t.esc.fetchPos,
              counters := { s.esc.counters with
                scheduleSteps := (if stepped then bump s.esc.counters.scheduleSteps else s.esc.counters.scheduleSteps),
                markCountMismatches := (if m.seq = newest.seq + 1 ∧ m.count ≠ between
                  then bump s.esc.counters.markCountMismatches else s.esc.counters.markCountMismatches),
                markSequenceGaps := (if m.seq = newest.seq + 1 then s.esc.counters.markSequenceGaps
                  else bump s.esc.counters.markSequenceGaps) } }
            ∧ (s.esc.next = none → t.esc.anchors = s.esc.anchors ++ [a] ∧ t.esc.fetchPos = s.esc.fetchPos)
            ∧ (∀ n f, s.esc.next = some n → f = (firstWaiting? s.csc.reads).getD n.slot →
                t.esc.fetchPos = some f ∧ AnchorsPassed f (s.esc.anchors ++ [a]) t.esc.anchors)
            ∧ Raised s t .site (if stepped then [noticeAt s .markStep .none (.mark m.seq)] else [])
            ∧ Raised s t .insertion [])
          ∧ t.ddc.counters = s.ddc.counters)
      ∧ OnlyChanges [.ddc, .esc, .mgp] s t ∧ OnlyNotifies s t

/-! ## The Emission Scheduler -/

/-- R50 over a run of slots under one anchor: the closed form that counts the skipped slots (the model's own, log 12) gives the
number of slots before the first one that passes both tests, which are that the slot's fetch time is not earlier than site time
and that its instant lies at least 188 ticks after the last emission instant. Second part: while slot numbers and second counts
do not wrap (log 34), the two tests in units of 2^-24 tick are the tests on the slot's own fetch time and instant (R49); how
they part once slot numbers wrap is log 40. Third part: over several anchors the accepted slot is the examined slot with the
skipped ones added. -/
def Obligations.SkippedSlotsFailTheTests : Prop :=
  (∀ (a : Anchor) (slot : Word32) (now : SiteTime) (last : Option SiteTime) (k j : Nat) (e : ExactTime),
    0 < a.period → k = skipsUnder a slot now last → e = a.exactTime slot →
    (j = k → (fetchLead a.period : Int) * 16777216 - 16777216 < e.unitsSince now + j * a.period
        ∧ ∀ t, last = some t → 187 * 16777216 < e.unitsSince t + j * a.period)
    ∧ (j < k → e.unitsSince now + j * a.period ≤ (fetchLead a.period : Int) * 16777216 - 16777216
        ∨ ∃ t, last = some t ∧ e.unitsSince t + j * a.period ≤ 187 * 16777216))
  ∧ (∀ (a : Anchor) (slot : Word32) (now : SiteTime) (j : Nat) (e : ExactTime) (n : NextSlot),
    a.time.tick < 27000000 → now.tick < 27000000 → e = a.exactTime slot →
    n = a.slotTimes (slot + BitVec.ofNat 32 j) → (slot - a.ref).toNat + j < 4294967296 →
    (e.unitsSince now).natAbs < 1073741824 * (27000000 * 16777216) →
    j * a.period < 536870912 * (27000000 * 16777216) → a.period < 27000000 * 16777216 →
    n.slot = slot + BitVec.ofNat 32 j
    ∧ (n.fetchTime.before now = false ↔
        (fetchLead a.period : Int) * 16777216 - 16777216 < e.unitsSince now + j * a.period)
    ∧ (188 ≤ n.instant.since now ↔ 187 * 16777216 < e.unitsSince now + j * a.period))
  ∧ ∀ (now : SiteTime) (last : Option SiteTime) (slot : Word32) (anchors : List Anchor) (n : NextSlot) (k : Nat),
    firstAccepted now last slot anchors = some (n, k) → n.slot = slot + BitVec.ofNat 32 k

/-- FETCH_REQUEST (R50, R51): the accepted slot joins the requested slots, its ring read joins the fetch reads, its instant
becomes the last emission instant, and the next accepted slot is found with the slots skipped before it counted (in the closed
form of log 12, with the times of log 40 after 2^32 skipped slots, times being compared across the wrap of the second count as
break times are, log 34). The fetch position is then the first slot whose ring read waits, and the anchors that it has passed
are removed (R46). -/
def Obligations.FetchIsRequested : Prop :=
  ∀ (s : State) (n : NextSlot), s.Running → s.esc.running = true → s.esc.next = some n →
    s.tbu.time.before n.fetchTime = false →
    ∃ t, exec .fetchRequest s = .next t
      ∧ t.esc.requested = s.esc.requested ++
          [{ slot := n.slot, exact := n.exact, instant := n.instant, period := n.period, done := false }]
      ∧ t.csc = { s.csc with reads := s.csc.reads ++ [.ring n.slot true] }
      ∧ (s.esc.lastEmission = none → t.esc.lastEmission = some n.instant)
      ∧ (∀ l, s.esc.lastEmission = some l → t.esc.lastEmission = some (l.later n.instant))
      ∧ (∀ m k, firstAccepted s.tbu.time t.esc.lastEmission (n.slot + 1) (anchorsFrom (n.slot + 1) s.esc.anchors)
            = some (m, k) →
          t.esc.next = some m ∧ t.esc.counters = { s.esc.counters with
            skippedSlots := bumpBy s.esc.counters.skippedSlots k }
          ∧ t.esc.fetchPos = some ((firstWaiting? s.csc.reads).getD n.slot)
          ∧ AnchorsPassed ((firstWaiting? s.csc.reads).getD n.slot) s.esc.anchors t.esc.anchors)
      ∧ (s.esc.anchors ≠ [] → ∃ m k,
          firstAccepted s.tbu.time t.esc.lastEmission (n.slot + 1) (anchorsFrom (n.slot + 1) s.esc.anchors) = some (m, k))
      ∧ AnchorsPassed (n.slot + 1) s.esc.anchors (anchorsFrom (n.slot + 1) s.esc.anchors)
      ∧ t.esc.running = true ∧ t.esc.fills = s.esc.fills ∧ t.esc.mute = s.esc.mute ∧ t.esc.carinh = s.esc.carinh
      ∧ t.esc.port = s.esc.port
      ∧ OnlyChanges [.esc, .csc] s t

/-- RING_READ_TAKEN (R51, R114, R131) reads the 192 bytes and the written mark of the slot's ring slot; RING_READ_COMPLETE
(R52, R53, R153) judges them for a requested slot: absent, void, memory fault, or a packet of no service, whose content joins
the pending list. The fetch position passes to the first slot whose ring read still waits, or else to the next slot, and the
anchors that it has passed are removed (R46). -/
def Obligations.RingReadIsJudged : Prop :=
  ∀ (s : State), s.Running →
    (∀ slot live rest i, s.csc.taken = none → s.csc.reads = .ring slot live :: rest →
        i = slot.toNat % s.fiu.ringSize → i < 524288 →
      ∃ t, exec .ringReadTaken s = .next t
        ∧ t.csc.taken = some (.ring slot live (s.csc.written.contains i)
            ((List.range 192).map (fun j => Memory.read s.csc.memory (192 * i + j))))
        ∧ t.csc.reads = rest ∧ t.csc.memory = s.csc.memory ∧ t.csc.directory = s.csc.directory
        ∧ t.esc = { s.esc with fetchPos := t.esc.fetchPos, anchors := t.esc.anchors }
        ∧ (∀ n f, s.esc.next = some n → f = (firstWaiting? rest).getD n.slot →
            t.esc.fetchPos = some f ∧ AnchorsPassed f s.esc.anchors t.esc.anchors)
        ∧ (s.esc.next = none → t.esc = s.esc)
        ∧ OnlyChanges [.esc, .csc] s t)
    ∧ (∀ slot live mark bytes, s.csc.taken = some (.ring slot live mark bytes) →
        (live = false ∨ ∀ q ∈ s.esc.requested, q.slot ≠ slot) →
      exec .ringReadComplete s = .next (s.setCsc { s.csc with taken := none }))
    ∧ (∀ slot mark bytes q info, s.csc.taken = some (.ring slot true mark bytes) →
        s.esc.requested.find? (fun x => x.slot == slot) = some q → info = slotInfo bytes →
      ∃ t, exec .ringReadComplete s = .next t
        ∧ t.csc.taken = none
        ∧ t.esc.requested = s.esc.requested.map (fun x => if x.slot = slot then { x with done := true } else x)
        ∧ t.spe.fetchInstant = some q.exact
        ∧ ((mark = false ∨ info.tag ≠ slot.toNat % 65536) →
            t.esc.counters = { s.esc.counters with absentSlots := bump s.esc.counters.absentSlots }
            ∧ t.spe.pendingSlots = s.spe.pendingSlots ++ [⟨slot, q.instant, .null⟩])
        ∧ (mark = true → info.tag = slot.toNat % 65536 → info.void = true →
            t.esc.counters = s.esc.counters
            ∧ t.spe.pendingSlots = s.spe.pendingSlots ++ [⟨slot, q.instant, .null⟩])
        ∧ (mark = true → info.tag = slot.toNat % 65536 → info.void = false → info.check ≠ crc8 (bytes.take 188) →
            t.esc.counters =
              { s.esc.counters with emissionMemoryFaults := bump s.esc.counters.emissionMemoryFaults }
            ∧ t.spe.pendingSlots = s.spe.pendingSlots ++ [⟨slot, q.instant, .null⟩])
        ∧ (mark = true → info.tag = slot.toNat % 65536 → info.void = false → info.check = crc8 (bytes.take 188) →
            serviceOf? s.sst.live.map (streamId (bytes.take 188)) = none →
            t.esc.counters = s.esc.counters
            ∧ t.spe.pendingSlots = s.spe.pendingSlots ++ [⟨slot, q.instant, .stored (bytes.take 188) info⟩])
        ∧ t.csc.memory = s.csc.memory
        ∧ OnlyChanges [.esc, .bpu, .csc, .spe, .mgp] s t ∧ OnlyNotifies s t)

/-- The hand-off of a target-service slot in the window of an ARMED entry, with no window open (R106, R153, R154, R157, R158):
the entry becomes ACTIVE, the service's window is CLIP, BREAK-STARTED goes to both roles, the first packet of the first booked
clip is chosen for the slot and its read is asked of the Clip Store Controller. In a window that stays open each
target-service slot takes the next packet of the list, with a clip that begins counted (R157), the null packet and an underrun
once the list is exhausted (R159), or the null packet alone in a blank window, which a FALLBACK entry under BLANK opens
(R155). A window that is to close closes at the slot whatever it takes: the entry ends with its outcome, its overrun counted
and its pins released, and the streams are marked returning (R107, R108, R156, R162). Under a slate the slot takes the slate's
next packet, in a loop (R169). Each clause names one service's window and leaves the other services' windows closed. `v` is
the slot's service. -/
def Obligations.HandOffStartsTheBreak : Prop :=
  (∀ (s : State) (slot : Word32) (bytes : List Byte) (q : Requested) (v : Service) (e : BreakEntry) (id : Word32) (p : Nat)
    (c : Clip), s.Running → s.csc.taken = some (.ring slot true true bytes) →
    s.esc.requested.find? (fun x => x.slot == slot) = some q →
    (slotInfo bytes).tag = slot.toNat % 65536 → (slotInfo bytes).void = false →
    (slotInfo bytes).check = crc8 (bytes.take 188) →
    serviceOf? s.sst.live.map (streamId (bytes.take 188)) = some v →
    (∀ w, (s.spe.services.get w).window = .none) → (s.spe.services.get v).slate = none →
    opens? s.bpu.table v q.exact = some e → e.state = .armed → noOtherOpen s.bpu.table v e.number = true →
    s.findBreak? e.number = some e → e.clips.head? = some id → findClip? s.csc.directory id = some (p, c) → 1 < c.stored →
    ∃ t, exec .ringReadComplete s = .next t
      ∧ t.findBreak? e.number = some { e with state := .active, started := bump e.started }
      ∧ (∀ n, n ≠ e.number → t.findBreak? n = s.findBreak? n)
      ∧ t.spe.services = s.spe.services.set v { s.spe.services.get v with
          window := .clip e.number, listPos := 1, packetPos := 1, resumeDue := false }
      ∧ t.spe.pendingSlots = s.spe.pendingSlots ++ [⟨slot, q.instant, .clip
          { service := v, clip := id, packet := 0, slate := false, passStart := true, firstStamp := c.firstStamp,
            read := .waiting }⟩]
      ∧ t.csc = { s.csc with taken := none, reads := s.csc.reads ++ [.clip slot true p c.id 0 (64 * c.firstBlock)] }
      ∧ RaisedBoth s t [noticeAt s .breakStarted (.breakNumber e.number) .startedClip]
      ∧ OnlyChanges [.esc, .bpu, .csc, .spe, .mgp] s t ∧ OnlyNotifies s t)
  ∧ (∀ (s : State) (slot : Word32) (bytes : List Byte) (q : Requested) (v : Service) (n : Word16) (e : BreakEntry),
    s.Running → TargetRead s slot bytes q v → (∀ w, w ≠ v → (s.spe.services.get w).window = .none) →
    (s.spe.services.get v).slate = none → (s.spe.services.get v).window.number? = some n → s.findBreak? n = some e →
    closesAt e q.exact = false →
    ∃ t, exec .ringReadComplete s = .next t
      ∧ ((s.spe.services.get v).window = .clip n →
        (∀ id p c x, x = s.spe.services.get v → e.clips[x.listPos - 1]? = some id →
            findClip? s.csc.directory id = some (p, c) →
          t.bpu = { s.bpu with table := s.bpu.table.map (fun y =>
            if y.number = n ∧ x.packetPos = 0 then { y with started := bump y.started } else y) }
          ∧ t.spe.services = s.spe.services.set v { x with
              listPos := if x.packetPos + 1 < c.stored then x.listPos else x.listPos + 1
              packetPos := if x.packetPos + 1 < c.stored then x.packetPos + 1 else 0
              resumeDue := false }
          ∧ t.spe.pendingSlots = s.spe.pendingSlots ++ [⟨slot, q.instant, .clip
              { service := v, clip := id, packet := x.packetPos, slate := false,
                passStart := decide (x.packetPos = 0) || x.resumeDue, firstStamp := c.firstStamp, read := .waiting }⟩]
          ∧ HandedOff s t slot q (if x.packetPos < c.stored
              then [.clip slot true p c.id x.packetPos (64 * c.firstBlock + x.packetPos)] else []))
        ∧ (e.clips[(s.spe.services.get v).listPos - 1]? = none →
          t.bpu = { s.bpu with table := s.bpu.table.map (fun y =>
            if y.number = n then { y with underrun := bump y.underrun } else y) }
          ∧ t.spe.services = s.spe.services
          ∧ t.spe.pendingSlots = s.spe.pendingSlots ++ [⟨slot, q.instant, .null⟩]
          ∧ HandedOff s t slot q []))
      ∧ ((s.spe.services.get v).window = .blank n →
          t.bpu = s.bpu ∧ t.spe.services = s.spe.services
          ∧ t.spe.pendingSlots = s.spe.pendingSlots ++ [⟨slot, q.instant, .null⟩]
          ∧ HandedOff s t slot q [])
      ∧ t.csc.directory = s.csc.directory
      ∧ OnlyChanges [.esc, .bpu, .csc, .spe] s t)
  ∧ (∀ (s : State) (slot : Word32) (bytes : List Byte) (q : Requested) (v : Service) (e : BreakEntry),
    s.Running → TargetRead s slot bytes q v → (∀ w, (s.spe.services.get w).window = .none) →
    (s.spe.services.get v).slate = none → opens? s.bpu.table v q.exact = some e → e.state = .fallback →
    ∃ t, exec .ringReadComplete s = .next t
      ∧ (noOtherOpen s.bpu.table v e.number = true →
          t.bpu = { s.bpu with table := s.bpu.table.map (fun y =>
            if y.number = e.number then { y with windowOpen := true } else y) }
          ∧ t.spe.services = s.spe.services.set v { s.spe.services.get v with window := .blank e.number }
          ∧ t.spe.counters = s.spe.counters
          ∧ t.spe.pendingSlots = s.spe.pendingSlots ++ [⟨slot, q.instant, .null⟩]
          ∧ RaisedBoth s t [noticeAt s .breakStarted (.breakNumber e.number) .startedBlank])
      ∧ (noOtherOpen s.bpu.table v e.number = false →
          t.bpu = s.bpu ∧ t.spe.services = s.spe.services
          ∧ t.spe.counters = { s.spe.counters with requestsRefused := bump s.spe.counters.requestsRefused }
          ∧ t.spe.pendingSlots = s.spe.pendingSlots ++ [⟨slot, q.instant, .stored (bytes.take 188) (slotInfo bytes)⟩]
          ∧ t.mgp = s.mgp)
      ∧ HandedOff s t slot q [] ∧ t.csc.directory = s.csc.directory
      ∧ OnlyChanges [.esc, .bpu, .csc, .spe, .mgp] s t ∧ OnlyNotifies s t)
  ∧ (∀ (s : State) (slot : Word32) (bytes : List Byte) (q : Requested) (v u : Service) (n : Word16) (e : BreakEntry)
      (o : BreakOutcome) (left : Nat), s.Running → TargetRead s slot bytes q v →
    (∀ w, w ≠ u → (s.spe.services.get w).window = .none) → (s.spe.services.get v).slate = none →
    (s.spe.services.get u).window.number? = some n → s.findBreak? n = some e →
    (e.closure ≠ none ∨ q.exact.time.before e.finish = false) → opens? s.bpu.table v q.exact = none →
    o = (match e.closure with
      | some .shortened => .shortened
      | some .cancelled => .cancelled
      | none => if e.state = .active then .played else .fallbackBlank) →
    left = (if e.state = .active
      then packetsFrom s.csc.directory (e.clips.drop ((s.spe.services.get u).listPos - 1)) - (s.spe.services.get u).packetPos
      else 0) →
    ∃ t, exec .ringReadComplete s = .next t
      ∧ t.findBreak? n = some { e with
          state := .ended, outcome := some o, closure := none, windowOpen := false,
          overrun := min (e.overrun + left) 4294967295 }
      ∧ (∀ m, m ≠ n → t.findBreak? m = s.findBreak? m)
      ∧ t.bpu.staging = s.bpu.staging ∧ t.bpu.counters = s.bpu.counters
      ∧ t.csc.directory = (s.dropPins e.pinned).csc.directory
      ∧ t.spe.services = s.spe.services.set u { s.spe.services.get u with window := .none }
      ∧ t.spe.continuity = s.spe.continuity.map (fun c =>
          if serviceOf? s.sst.live.map c.stream = some u then { c with returning := true } else c)
      ∧ t.spe.pendingSlots = s.spe.pendingSlots ++ [⟨slot, q.instant, .stored (bytes.take 188) (slotInfo bytes)⟩]
      ∧ RaisedBoth s t [noticeAt s .breakEnded (.breakNumber n) (.ended o)]
      ∧ HandedOff s t slot q []
      ∧ OnlyChanges [.esc, .bpu, .csc, .spe, .mgp] s t ∧ OnlyNotifies s t)
  ∧ (∀ (s : State) (slot : Word32) (bytes : List Byte) (q : Requested) (v : Service) (id : Word32) (p : Nat) (c : Clip)
      (k : Nat), s.Running → TargetRead s slot bytes q v → (∀ w, (s.spe.services.get w).window = .none) →
    opens? s.bpu.table v q.exact = none → (s.spe.services.get v).slate = some id →
    findClip? s.csc.directory id = some (p, c) → k = (s.spe.services.get v).slatePos →
    ∃ t, exec .ringReadComplete s = .next t
      ∧ t.bpu = s.bpu
      ∧ t.spe.services = s.spe.services.set v { s.spe.services.get v with
          slatePos := if k + 1 < c.stored then k + 1 else 0 }
      ∧ t.spe.pendingSlots = s.spe.pendingSlots ++ [⟨slot, q.instant, .clip
          { service := v, clip := id, packet := k, slate := true, passStart := decide (k = 0), firstStamp := c.firstStamp,
            read := .waiting }⟩]
      ∧ HandedOff s t slot q (if k < c.stored then [.clip slot true p c.id k (64 * c.firstBlock + k)] else [])
      ∧ t.csc.directory = s.csc.directory
      ∧ OnlyChanges [.esc, .csc, .spe] s t)

/-- SLOT_EMISSION (R53, R54, R60, R160) of the oldest requested slot, with no fill instant before its own (where one is before,
the fill comes first, and SLOT_EMISSION is no event and changes nothing, the model's reading, log 1; instants are compared
across the wrap of the second count as break times are, log 34): a slot whose read has not completed is a null packet and fetch
late; a slot whose content is null is a null packet. The packet is driven where CARINH is released or its release was pending,
which takes place here with CARRIER-STATE. After the slot, fill is placed up to the next slot to be emitted (R55). A programme
packet sets its service's tracker (R164) and the continuity table (R161), where a new entry takes the place of the lowest
stream that is no SERVICE stream in a table of 32, and, on a returning stream, the discontinuity mark or a continuity break
(R162), also where the stream has left the map since (the model's choice, log 38) or the packet was handed before a window that
is open (log 39). A clip packet whose read has not completed, or was faulty, goes out as the null packet (R158); any other goes
out with the offset of its pass added to its stamps (R165 to R167; held per service and kind of stamp, the model's reading, log
22) and its stream's next count (R163), and sets the resume stamp, the table and the tracker (R161, R164, R165), a packet whose
adaptation area does not fit going out as stored with its own count in the table (log 31); the offset of a pass is fixed at its
start slot. `P` is the period of the next slot, `T` its instant, `x` the service before the emission and `y` after the pass is
begun. -/
def Obligations.SlotIsEmitted : Prop :=
  (∀ (s : State) (q : Requested) (rest : List Requested) (f : FillRun) (fs : List FillRun), s.Running →
    s.esc.requested = q :: rest → s.esc.fills = f :: fs → f.instant.before q.instant = true →
    exec .slotEmission s = .next s)
  ∧ ∀ (s : State) (q : Requested) (rest : List Requested), s.Running → s.esc.requested = q :: rest →
    (∀ f fs, s.esc.fills = f :: fs → f.instant.before q.instant = false) →
    s.tbu.time.before q.instant = false →
    ∃ t, exec .slotEmission s = .next t
      ∧ t.esc.requested = rest
      ∧ (s.esc.carinh = .asserted → t.esc.carinh = .asserted ∧ t.esc.port = s.esc.port ∧ t.mgp = s.mgp
          ∧ t.esc.lastDriven = s.esc.lastDriven)
      ∧ (s.esc.carinh ≠ .asserted → t.esc.carinh = .released ∧ t.esc.lastDriven = some q.instant
          ∧ ∃ packet, t.esc.port = some ⟨packet, 0⟩)
      ∧ (s.esc.carinh = .pending → Raised s t .site [noticeAt s .carrierState .none (.mute .empty)])
      ∧ (s.esc.carinh = .released → t.mgp = s.mgp)
      ∧ (q.done = false → t.spe = s.spe ∧ t.esc.counters = { s.esc.counters with fetchLate := bump s.esc.counters.fetchLate }
          ∧ (s.esc.carinh ≠ .asserted → t.esc.port = some ⟨nullPacket, 0⟩))
      ∧ (∀ instant ps, q.done = true → s.spe.pendingSlots = ⟨q.slot, instant, .null⟩ :: ps →
          t.spe = { s.spe with pendingSlots := ps } ∧ t.esc.counters = s.esc.counters
          ∧ (s.esc.carinh ≠ .asserted → t.esc.port = some ⟨nullPacket, 0⟩))
      ∧ (∀ instant packet info ps, q.done = true → s.spe.pendingSlots = ⟨q.slot, instant, .stored packet info⟩ :: ps →
          (∀ c ∈ s.spe.continuity, c.stream = streamId packet → c.returning = false) →
          t.spe.pendingSlots = ps ∧ t.esc.counters = s.esc.counters
          ∧ (s.esc.carinh ≠ .asserted → t.esc.port = some ⟨packet, 0⟩))
      ∧ ((rest = [] ∧ s.esc.next = none) → t.esc.fills = s.esc.fills ∧ t.esc.lastEmission = s.esc.lastEmission)
      ∧ (∀ T P units, ((∃ r rs, rest = r :: rs ∧ T = r.instant ∧ P = r.period)
            ∨ (rest = [] ∧ ∃ n, s.esc.next = some n ∧ T = n.instant ∧ P = n.period)) → 0 < P →
          units = T.since q.instant * 16777216 →
          (units ≤ ((2 * P : Nat) : Int) → t.esc.fills = s.esc.fills ∧ t.esc.lastEmission = s.esc.lastEmission)
          ∧ (((2 * P : Nat) : Int) < units → ∃ count : Nat,
              (∀ k, (0 < k ∧ k ≤ count) ↔ (0 < k ∧ ((ceilUnits (k * P) * 16777216 : Nat) : Int) ≤ units - (P : Int)))
              ∧ (count = 0 → t.esc.fills = s.esc.fills ∧ t.esc.lastEmission = s.esc.lastEmission)
              ∧ (0 < count → t.esc.fills = s.esc.fills ++ [{ base := q.instant, period := P, next := 1, last := count }]
                ∧ (s.esc.lastEmission = none → t.esc.lastEmission = some (q.instant.add (ceilUnits (count * P))))
                ∧ (∀ l, s.esc.lastEmission = some l →
                    t.esc.lastEmission = some (l.later (q.instant.add (ceilUnits (count * P))))))))
      ∧ (∀ instant packet info ps, q.done = true → s.spe.pendingSlots = ⟨q.slot, instant, .stored packet info⟩ :: ps →
          (info.clockBearing = true → carriesStamp packet = true → ∀ v, Service.ofNat? info.service = some v →
              t.spe.services = s.spe.services.set v { s.spe.services.get v with
                tracker := some ⟨stampValue packet, q.instant⟩ })
          ∧ ((info.clockBearing = false ∨ carriesStamp packet = false ∨ Service.ofNat? info.service = none) →
              t.spe.services = s.spe.services)
          ∧ (∀ c, continuityOf? s.spe.continuity (streamId packet) = some c → c.returning = true →
              (continuityCount packet = expectedCount c.count packet →
                t.spe.counters = s.spe.counters ∧ (s.esc.carinh ≠ .asserted → t.esc.port = some ⟨packet, 0⟩))
              ∧ (continuityCount packet ≠ expectedCount c.count packet → hasMarkRoom packet = true →
                t.spe.counters = { s.spe.counters with discontinuityMarksSet := bump s.spe.counters.discontinuityMarksSet }
                ∧ (s.esc.carinh ≠ .asserted → t.esc.port = some ⟨setByte packet 6 (byteAt packet 6 ||| 0x80#8), 0⟩))
              ∧ (continuityCount packet ≠ expectedCount c.count packet → hasMarkRoom packet = false →
                t.spe.counters = { s.spe.counters with continuityBreaks := bump s.spe.counters.continuityBreaks }
                ∧ (s.esc.carinh ≠ .asserted → t.esc.port = some ⟨packet, 0⟩)))
          ∧ ((serviceOf? s.sst.live.map (streamId packet)).isSome = true →
              s.spe.continuity.length < 32 ∨ (continuityOf? s.spe.continuity (streamId packet)).isSome = true →
              ∀ k, (continuityOf? t.spe.continuity k) = (if k = streamId packet
                then some { stream := k, count := continuityCount packet, returning := false }
                else continuityOf? s.spe.continuity k))
          ∧ (∀ gone ∈ s.spe.continuity, s.QueuesBounded →
              (serviceOf? s.sst.live.map (streamId packet)).isSome = true → s.spe.continuity.length = 32 →
              continuityOf? s.spe.continuity (streamId packet) = none → serviceOf? s.sst.live.map gone.stream = none →
              (∀ x ∈ s.spe.continuity, serviceOf? s.sst.live.map x.stream = none → gone.stream ≤ x.stream) →
              ∀ k, (continuityOf? t.spe.continuity k) = (if k = streamId packet
                then some { stream := k, count := continuityCount packet, returning := false }
                else if k = gone.stream then none
                else continuityOf? s.spe.continuity k))
          ∧ ((serviceOf? s.sst.live.map (streamId packet)) = none →
              continuityOf? s.spe.continuity (streamId packet) = none → t.spe.continuity = s.spe.continuity))
      ∧ (∀ instant c ps x y out, q.done = true → s.spe.pendingSlots = ⟨q.slot, instant, .clip c⟩ :: ps →
          x = s.spe.services.get c.service →
          y = (let offset := (match x.tracker with
                  | some tr => passOffset tr q.instant (if c.packet = 0 then c.firstStamp.getD 0
                      else (x.resumeStamp.getD (c.firstStamp.getD 0)))
                  | none => 0)
               { x with
                  slateOffset := if c.passStart = true ∧ c.slate = true then offset else x.slateOffset
                  breakOffset := if c.passStart = true ∧ c.slate = false then offset else x.breakOffset
                  resumeStamp := if c.slate = false ∧ c.packet = 0 then none else x.resumeStamp }) →
          t.spe.pendingSlots = ps
          ∧ t.spe.counters.unrebasedPasses = (if c.passStart = true ∧ x.tracker = none
              then bump s.spe.counters.unrebasedPasses else s.spe.counters.unrebasedPasses)
          ∧ (c.read = .waiting → t.spe.services = s.spe.services.set c.service y ∧ t.spe.continuity = s.spe.continuity
              ∧ t.spe.counters.clipReadsLate = bump s.spe.counters.clipReadsLate
              ∧ (s.esc.carinh ≠ .asserted → t.esc.port = some ⟨nullPacket, 0⟩))
          ∧ (c.read = .done .faulty → t.spe.services = s.spe.services.set c.service y ∧ t.spe.continuity = s.spe.continuity
              ∧ t.spe.counters.clipReadsLate = s.spe.counters.clipReadsLate
              ∧ (s.esc.carinh ≠ .asserted → t.esc.port = some ⟨nullPacket, 0⟩))
          ∧ (∀ packet info, c.read = .done (.good packet info) →
              out = emittedClip s.spe.continuity (if c.slate then y.slateOffset else y.breakOffset) packet →
              (s.esc.carinh ≠ .asserted → t.esc.port = some ⟨out, 0⟩)
              ∧ t.spe.continuity = updateContinuity s.sst.live.map s.spe.continuity (streamId packet) (continuityCount out) true
              ∧ t.spe.counters.scrambledUnitStamps = (if unitStart packet = true ∧ scrambling packet ≠ 0
                  then bump s.spe.counters.scrambledUnitStamps else s.spe.counters.scrambledUnitStamps)
              ∧ ((info.clockBearing = true ∧ carriesStamp packet = true) → t.spe.services = s.spe.services.set c.service { y with
                  resumeStamp := if c.slate = true then y.resumeStamp else some (stampValue packet)
                  tracker := some ⟨stampValue out, q.instant⟩ })
              ∧ (¬ (info.clockBearing = true ∧ carriesStamp packet = true) →
                  t.spe.services = s.spe.services.set c.service y)))
      ∧ t.esc.mute = s.esc.mute ∧ t.esc.next = s.esc.next ∧ t.esc.anchors = s.esc.anchors
      ∧ OnlyChanges [.esc, .spe, .mgp] s t ∧ OnlyNotifies s t

/-- FILL_EMISSION (R55) drives a null packet at the first fill instant where no requested slot comes first, counted; where the
oldest requested slot is not after it, that slot comes first, and FILL_EMISSION is no event and changes nothing (the model's
reading, log 1). Instants are compared across the wrap of the second count as break times are (log 34). DRIVEN_PACKET_END (R56)
makes the port idle after the 188th byte. EVALID is high with each of the packet's 188 bytes on ED0 to ED7 and ESTART with the
first only, and all are low while no packet is driven (R56). -/
def Obligations.FillAndPacketEnd : Prop :=
  (∀ (s : State) (f : FillRun) (rest : List FillRun) (q : Requested) (qs : List Requested), s.Running →
    s.esc.fills = f :: rest → s.esc.requested = q :: qs → f.instant.before q.instant = false →
    exec .fillEmission s = .next s)
  ∧ (∀ (s : State) (f : FillRun) (rest : List FillRun), s.Running → s.esc.fills = f :: rest →
      (∀ q qs, s.esc.requested = q :: qs → f.instant.before q.instant = true) → s.tbu.time.before f.instant = false →
    ∃ t, exec .fillEmission s = .next t
      ∧ t.esc.counters = { s.esc.counters with fillPackets := bump s.esc.counters.fillPackets }
      ∧ (f.next < f.last → t.esc.fills = { f with next := f.next + 1 } :: rest)
      ∧ (f.last ≤ f.next → t.esc.fills = rest)
      ∧ (s.esc.carinh = .asserted → t.esc.carinh = .asserted ∧ t.esc.port = s.esc.port)
      ∧ (s.esc.carinh ≠ .asserted → t.esc.carinh = .released ∧ t.esc.port = some ⟨nullPacket, 0⟩
          ∧ t.esc.lastDriven = some f.instant)
      ∧ (s.esc.carinh = .pending → Raised s t .site [noticeAt s .carrierState .none (.mute .empty)])
      ∧ t.esc.mute = s.esc.mute ∧ t.esc.next = s.esc.next ∧ t.esc.anchors = s.esc.anchors
      ∧ OnlyChanges [.esc, .mgp] s t ∧ OnlyNotifies s t)
  ∧ (∀ (s : State) (p : List Byte) (n : Nat), s.Running → s.esc.port = some ⟨p, n⟩ → 188 ≤ n →
    exec .drivenPacketEnd s = .next (s.setEsc { s.esc with port := none }))
  ∧ (∀ (e : Esc) (p : List Byte) (n : Nat), e.port = some ⟨p, n⟩ → n < 188 →
      e.evalid = true ∧ e.ed = byteAt p (n + 1) ∧ (e.estart = true ↔ n = 0))
  ∧ (∀ e : Esc, (e.port = none ∨ ∃ p n, e.port = some ⟨p, n⟩ ∧ 188 ≤ n) →
      e.evalid = false ∧ e.ed = 0#8 ∧ e.estart = false)

/-- FORCE_MUTE and RELEASE_MUTE by the site role (R59, R60): SITE set or cleared with its effect on the carrier, and DONE, also
when the reason was already so. -/
def Obligations.MuteCommands : Prop :=
  ∀ s : State, s.Listens .site → s.CarrierConsistent →
    (∃ t, exec (.forceMute .site) s = .next t
      ∧ MuteTaken s t .site true ∧ Answered s t .site .forceMute [] .done [] ∧ Raised s t .site (assertNotice s t)
      ∧ OnlyChanges [.esc, .mgp] s t ∧ OnlyAnswersAndNotifies s t .site)
    ∧ (∃ t, exec (.releaseMute .site) s = .next t
      ∧ MuteTaken s t .site false ∧ Answered s t .site .releaseMute [] .done [] ∧ Raised s t .site []
      ∧ OnlyChanges [.esc, .mgp] s t ∧ OnlyAnswersAndNotifies s t .site)

/-! ## The Break Plan Unit -/

/-- ARM_TIME_REACHED on an ANNOUNCED or BOOKED entry (R104, R138, R139, R145): FALLBACK with the first of the seven reasons
whose condition holds, its pins released; ARMED where none holds. The arm time is compared with site time as break times are
(log 34). END_REACHED (R105): an ARMED entry ends MISSED, a FALLBACK entry whose window is not open ends by its policy, and any
other entry is left alone. -/
def Obligations.ArmTimeAndEnd : Prop :=
  ∀ (s : State) (n : Word16) (e : BreakEntry), s.Running → s.findBreak? n = some e →
    ((e.state = .announced ∨ e.state = .booked) → s.tbu.time.before e.arm = false →
      ∃ t, exec (.armTimeReached n) s = .next t
        ∧ (∀ why, [(FallbackReason.noBooking, e.booking.isNone),
              (.clipNotReady, clipNotReady s.csc.directory e.service e.clips),
              (.planMismatch, planMismatch e),
              (.streamMismatch, streamMismatch s.sst.live.map s.csc.directory e.service e.clips),
              (.noClock, (s.spe.services.get e.service).tracker.isNone),
              (.notRunning, !s.esc.running),
              (.timing, !s.tbu.state.fit)].find? (·.2) = some (why, true) →
            t.findBreak? n = some { e with state := .fallback, reason := some why }
            ∧ t.csc = (s.dropPins e.pinned).csc
            ∧ RaisedBoth s t [noticeAt s .breakFallback (.breakNumber n) (.reason why)])
        ∧ (e.booking.isSome = true → clipNotReady s.csc.directory e.service e.clips = false → planMismatch e = false →
            streamMismatch s.sst.live.map s.csc.directory e.service e.clips = false →
            (s.spe.services.get e.service).tracker.isSome = true → s.esc.running = true → s.tbu.state.fit = true →
            t.findBreak? n = some { e with state := .armed }
            ∧ t.csc = s.csc
            ∧ RaisedBoth s t [noticeAt s .breakArmed (.breakNumber n) .none])
        ∧ (∀ m, m ≠ n → t.findBreak? m = s.findBreak? m)
        ∧ OnlyChanges [.bpu, .csc, .mgp] s t ∧ OnlyNotifies s t)
    ∧ (s.tbu.time.before e.finish = false →
      ∃ t, exec (.endReached n) s = .next t
        ∧ (e.state = .armed →
            t.findBreak? n = some { e with state := .ended, outcome := some .missed, closure := none, windowOpen := false }
            ∧ t.bpu.counters = { s.bpu.counters with missedBreaks := bump s.bpu.counters.missedBreaks }
            ∧ t.csc = (s.dropPins e.clips).csc
            ∧ RaisedBoth s t [noticeAt s .breakEnded (.breakNumber n) (.ended .missed)])
        ∧ (e.state = .fallback → e.windowOpen = false →
            t.findBreak? n = some { e with
              state := .ended, closure := none, windowOpen := false,
              outcome := some (match e.policy with | .carry => .fallbackCarry | .blank => .fallbackBlank) }
            ∧ t.bpu.counters = s.bpu.counters ∧ t.csc = s.csc)
        ∧ ((e.state ≠ .armed ∧ ¬ (e.state = .fallback ∧ e.windowOpen = false)) → t = s)
        ∧ (∀ m, m ≠ n → t.findBreak? m = s.findBreak? m)
        ∧ OnlyChanges [.bpu, .csc, .mgp] s t ∧ OnlyNotifies s t)

/-- RESERVE (R96): NOT-FOUND, STATE, or the role's reservation held with the number and the entry's revision, in place of any it
held; marks, staged values, the other role's reservation and the entries stay as they are. -/
def Obligations.ReserveHoldsTheRevision : Prop :=
  ∀ (s : State) (r : Role) (n : Word16), s.Listens r →
    ∃ t, exec (.reserve r n) s = .next t
      ∧ (s.findBreak? n = none → t.bpu = s.bpu ∧ Answered s t r .reserve (toBytes 2 n.toNat) .notFound [])
      ∧ (∀ e, s.findBreak? n = some e →
          (e.state ≠ .announced → e.state ≠ .booked →
            t.bpu = s.bpu ∧ Answered s t r .reserve (toBytes 2 n.toNat) .state [])
          ∧ ((e.state = .announced ∨ e.state = .booked) →
            t.bpu.staging.get r = { s.bpu.staging.get r with reservation := .held n e.revision }
            ∧ t.bpu.staging.get (otherRole r) = s.bpu.staging.get (otherRole r)
            ∧ t.bpu.table = s.bpu.table ∧ t.bpu.counters = s.bpu.counters
            ∧ Answered s t r .reserve (toBytes 2 n.toNat) .done (toBytes 2 e.revision.toNat)))
      ∧ OnlyChanges [.bpu, .mgp] s t ∧ OnlyAnswers s t r

/-- CONFIRM (R97 to R99, R103): the five checks in order, each refusal counted with nothing else changed; a confirm that passes
installs the merged booking with its pins, a new revision and state BOOKED, clears the confirmer's staging record and removes
the other role's held reservation on the entry. -/
def Obligations.ConfirmBooksTheEntry : Prop :=
  ∀ (s : State) (r : Role) (st : Staging), s.Listens r → s.bpu.staging.get r = st →
    ∃ t, exec (.confirm r) s = .next t
      ∧ (∀ code value,
          ((st.reservation = .none ∧ code = .none ∧ value = [])
            ∨ ((∃ n, st.reservation = .orphaned n) ∧ code = .notFound ∧ value = [])
            ∨ (∃ n rev, st.reservation = .held n rev ∧ s.findBreak? n = none ∧ code = .notFound ∧ value = [])
            ∨ (∃ n rev e, st.reservation = .held n rev ∧ s.findBreak? n = some e ∧ e.revision ≠ rev
                ∧ code = .stale ∧ value = [])
            ∨ (∃ n e, st.reservation = .held n e.revision ∧ s.findBreak? n = some e
                ∧ e.state ≠ .announced ∧ e.state ≠ .booked ∧ code = .closed ∧ value = [])
            ∨ (∃ n e p c, st.reservation = .held n e.revision ∧ s.findBreak? n = some e
                ∧ (e.state = .announced ∨ e.state = .booked)
                ∧ mergeFault? s.csc.directory e.service st e.booking = some (p, c)
                ∧ code = .invalid ∧ value = [BitVec.ofNat 8 p, BitVec.ofNat 8 c])) →
          t.bpu = { s.bpu with counters := { s.bpu.counters with confirmsRefused := bump s.bpu.counters.confirmsRefused } }
          ∧ t.csc = s.csc ∧ Answered s t r .confirm [] code value)
      ∧ (∀ n e clips, st.reservation = .held n e.revision → s.findBreak? n = some e →
          (e.state = .announced ∨ e.state = .booked) → mergeFault? s.csc.directory e.service st e.booking = none →
          clips = mergedClips st e.booking →
          t.findBreak? n = some { e with
            booking := some { clips := clips, reference := mergedReference st e.booking, by_ := r,
                              combined := combinedFingerprint s.csc.directory clips }
            revision := e.revision + 1
            state := .booked }
          ∧ (∀ m, m ≠ n → t.findBreak? m = s.findBreak? m)
          ∧ t.bpu.staging.get r = {}
          ∧ ((s.bpu.staging.get (otherRole r)).reservation.holds n = true →
              t.bpu.staging.get (otherRole r) = { s.bpu.staging.get (otherRole r) with reservation := .none })
          ∧ ((s.bpu.staging.get (otherRole r)).reservation.holds n = false →
              t.bpu.staging.get (otherRole r) = s.bpu.staging.get (otherRole r))
          ∧ t.bpu.counters = { s.bpu.counters with bookingsConfirmed := bump s.bpu.counters.bookingsConfirmed }
          ∧ t.csc = ((s.addPins clips).dropPins e.pinned).csc
          ∧ Answered s t r .confirm [] .done (toBytes 2 (e.revision + 1).toNat)
          ∧ Raised s t r
              [noticeAt s .bookingConfirmed (.breakNumber n) (.booking (mergedReference st e.booking) (e.revision + 1))]
          ∧ Raised s t (otherRole r)
              (noticeAt s .bookingConfirmed (.breakNumber n) (.booking (mergedReference st e.booking) (e.revision + 1))
                :: (if (s.bpu.staging.get (otherRole r)).reservation.holds n
                    then [noticeAt s .reservationBroken (.breakNumber n) .none] else [])))
      ∧ OnlyChanges [.bpu, .csc, .mgp] s t ∧ OnlyAnswersAndNotifies s t r

/-- DISCARD (R100): the role's reservation removed, every mark clear, every staged value 0, DONE in every case; no entry and
nothing of the other role is touched. -/
def Obligations.DiscardClearsTheStaging : Prop :=
  ∀ (s : State) (r : Role), s.Listens r →
    ∃ t, exec (.discard r) s = .next t
      ∧ t.bpu.staging.get r =
          { reservation := .none, reference := ⟨0, false⟩, length := ⟨0, false⟩, positions := List.replicate 8 ⟨0, false⟩ }
      ∧ t.bpu.staging.get (otherRole r) = s.bpu.staging.get (otherRole r)
      ∧ t.bpu.table = s.bpu.table ∧ t.bpu.counters = s.bpu.counters
      ∧ Answered s t r .discard [] .done []
      ∧ OnlyChanges [.bpu, .mgp] s t ∧ OnlyAnswers s t r

/-- FIND_BREAK (R101): NOT-FOUND, or the entry's position in the table (1 for the first), state, revision and booked-by role;
nothing but the command's own record changes. -/
def Obligations.FindBreakReadsTheEntry : Prop :=
  ∀ (s : State) (r : Role) (n : Word16), s.Listens r →
    ∃ t, exec (.findBreak r n) s = .next t
      ∧ (s.findBreak? n = none → Answered s t r .findBreak (toBytes 2 n.toNat) .notFound [])
      ∧ (∀ before e after, s.bpu.table = before ++ e :: after → e.number = n → (∀ x ∈ before, x.number ≠ n) →
          Answered s t r .findBreak (toBytes 2 n.toNat) .done
            (toBytes 1 (before.length + 1)
              ++ toBytes 1 (match e.state with
                | .announced => 1 | .booked => 2 | .armed => 3 | .fallback => 4 | .active => 5 | .ended => 6 | .cancelled => 7)
              ++ toBytes 2 e.revision.toNat
              ++ toBytes 1 (match e.booking.map (fun b => b.by_) with
                | (none : Option Role) => 0 | some Role.insertion => 1 | some Role.site => 2)))
      ∧ OnlyChanges [.mgp] s t ∧ OnlyAnswers s t r

/-- CLEAR_BOOKING (R102): RIGHTS from the insertion role; from the site role NOT-FOUND, or the effect on a BOOKED entry, on an
ARMED entry, or STATE. -/
def Obligations.ClearBookingByState : Prop :=
  ∀ (s : State) (n : Word16),
    (s.Listens .insertion →
      ∃ t, exec (.clearBooking .insertion n) s = .next t
        ∧ Recorded s t .insertion 8 .rights [] ∧ OnlyChanges [.mgp] s t)
    ∧ (s.Listens .site →
      ∃ t, exec (.clearBooking .site n) s = .next t
        ∧ (s.findBreak? n = none →
            t.bpu = s.bpu ∧ Answered s t .site .clearBooking (toBytes 2 n.toNat) .notFound [])
        ∧ (∀ e, s.findBreak? n = some e →
            (e.state = .booked →
              t.findBreak? n = some { e with booking := none, state := .announced, revision := e.revision + 1 }
              ∧ t.csc = (s.dropPins e.clips).csc
              ∧ Answered s t .site .clearBooking (toBytes 2 n.toNat) .done []
              ∧ RaisedBoth s t [noticeAt s .bookingCleared (.breakNumber n) .none])
            ∧ (e.state = .armed →
              t.findBreak? n = some { e with
                booking := none, state := .fallback, reason := some .noBooking, revision := e.revision + 1 }
              ∧ t.csc = (s.dropPins e.clips).csc
              ∧ Answered s t .site .clearBooking (toBytes 2 n.toNat) .done []
              ∧ RaisedBoth s t [noticeAt s .bookingCleared (.breakNumber n) .none,
                  noticeAt s .breakFallback (.breakNumber n) (.reason .noBooking)])
            ∧ (e.state ≠ .booked → e.state ≠ .armed →
              t.bpu = s.bpu ∧ t.csc = s.csc ∧ Answered s t .site .clearBooking (toBytes 2 n.toNat) .state []))
        ∧ (∀ m, m ≠ n → t.findBreak? m = s.findBreak? m)
        ∧ t.bpu.staging = s.bpu.staging ∧ t.bpu.counters = s.bpu.counters
        ∧ OnlyChanges [.bpu, .csc, .mgp] s t ∧ OnlyAnswersAndNotifies s t .site)

/-- STAGING_WRITE (R95, R205): from the named first field on, each field whose bytes are all present takes the written value and
its mark; a field only partly present and the fields before keep theirs; the reservation is not touched. -/
def Obligations.StagingTakesWholeFields : Prop :=
  ∀ (s : State) (r : Role) (first : Byte) (data : List Byte) (f : Nat), s.Listens r → f = first.toNat →
    (s.bpu.staging.get r).positions.length = 8 →
    ∃ t, exec (.stagingWrite r first data) s = .next t
      ∧ (9 < f → t.bpu = s.bpu ∧ Recorded s t r 0x0010 .invalid [])
      ∧ (f ≤ 9 → Recorded s t r 0x0010 .done []
          ∧ (t.bpu.staging.get r).reservation = (s.bpu.staging.get r).reservation
          ∧ (t.bpu.staging.get r).reference =
              (if f = 0 ∧ 4 ≤ data.length then ⟨BitVec.ofNat 32 (ofBytes (data.take 4)), true⟩
               else (s.bpu.staging.get r).reference)
          ∧ (t.bpu.staging.get r).length =
              (if f ≤ 1 ∧ stagingOffset f 1 + 1 ≤ data.length
               then ⟨BitVec.ofNat 8 (ofBytes ((data.drop (stagingOffset f 1)).take 1)), true⟩
               else (s.bpu.staging.get r).length)
          ∧ ∀ i, i < 8 → (t.bpu.staging.get r).positions[i]? =
              (if f ≤ i + 2 ∧ stagingOffset f (i + 2) + 4 ≤ data.length
               then some ⟨BitVec.ofNat 32 (ofBytes ((data.drop (stagingOffset f (i + 2))).take 4)), true⟩
               else (s.bpu.staging.get r).positions[i]?))
      ∧ t.bpu.staging.get (otherRole r) = s.bpu.staging.get (otherRole r)
      ∧ t.bpu.table = s.bpu.table ∧ t.bpu.counters = s.bpu.counters
      ∧ t.mgp.ports.get (otherRole r) = s.mgp.ports.get (otherRole r)
      ∧ (t.mgp.ports.get r).command = (s.mgp.ports.get r).command
      ∧ (t.mgp.ports.get r).notices = (s.mgp.ports.get r).notices
      ∧ OnlyChanges [.bpu, .mgp] s t

/-! ## The Clip Store Controller -/

/-- OPEN_LOAD (R118, R119): the five checks in order, and a load opened on the lowest EMPTY position with the first free run
that is long enough. -/
def Obligations.OpenLoadAllocatesFirstFit : Prop :=
  ∀ (s : State) (r : Role) (id : Word32) (v : Byte) (n fp : Word32) (args : List Byte), s.Listens r →
    args = toBytes 4 id.toNat ++ [v] ++ toBytes 4 n.toNat ++ toBytes 4 fp.toNat →
    ∃ t, exec (.openLoad r id v n fp) s = .next t
      ∧ (s.csc.load ≠ none → t.csc = s.csc ∧ Answered s t r .openLoad args .busy [])
      ∧ (s.csc.load = none → (∃ c ∈ s.csc.directory, c.2.id = id) →
          t.csc = s.csc ∧ Answered s t r .openLoad args .duplicate [])
      ∧ (s.csc.load = none → (∀ c ∈ s.csc.directory, c.2.id ≠ id) →
          (∀ p, 1 ≤ p → p ≤ 64 → ∃ c ∈ s.csc.directory, c.1 = p) →
          t.csc = s.csc ∧ Answered s t r .openLoad args .full [])
      ∧ (∀ position, s.csc.load = none → (∀ c ∈ s.csc.directory, c.2.id ≠ id) →
          1 ≤ position → position ≤ 64 → (∀ c ∈ s.csc.directory, c.1 ≠ position) →
          (∀ p, 1 ≤ p → p < position → ∃ c ∈ s.csc.directory, c.1 = p) →
          ((id = 0 ∨ v.toNat < 1 ∨ 4 < v.toNat ∨ n.toNat < 1 ∨ 500000 < n.toNat) →
            t.csc = s.csc ∧ Answered s t r .openLoad args .invalid [])
          ∧ (∀ w, id ≠ 0 → Service.ofNat? v.toNat = some w → 1 ≤ n.toNat → n.toNat ≤ 500000 →
            ((∀ f ∈ s.csc.freeRuns, f.count < (n.toNat + 63) / 64) →
              t.csc = s.csc ∧ Answered s t r .openLoad args .noSpace [])
            ∧ (∀ before f after, s.csc.freeRuns = before ++ f :: after → (∀ x ∈ before, x.count < (n.toNat + 63) / 64) →
                (n.toNat + 63) / 64 ≤ f.count →
              clipAt? t.csc.directory position = some
                { id := id, service := w, state := .loading, firstBlock := f.first, blockCount := (n.toNat + 63) / 64,
                  expected := n.toNat, stored := 0, expectedFp := fp, computedFp := 0xFFFFFFFF#32, streams := [],
                  firstStamp := none, lastStamp := none, pins := 0, completed := none }
              ∧ (∀ p, p ≠ position → clipAt? t.csc.directory p = clipAt? s.csc.directory p)
              ∧ t.csc.freeRuns = before
                  ++ (if f.count = (n.toNat + 63) / 64 then [] else
                      [{ first := f.first + (n.toNat + 63) / 64, count := f.count - (n.toNat + 63) / 64 }])
                  ++ after
              ∧ t.csc.load = some { position := position, accepted := 0, buffer := [], idle := some 0,
                                    idleLimit := s.sst.live.loadIdleLimit * 27000 }
              ∧ Answered s t r .openLoad args .done (toBytes 1 position ++ toBytes 2 f.first))))
      ∧ t.csc.memory = s.csc.memory ∧ t.csc.counters = s.csc.counters ∧ t.csc.framing = s.csc.framing
      ∧ OnlyChanges [.csc, .mgp] s t ∧ OnlyAnswers s t r

/-- ABORT_LOAD (R127): NONE, NOT-FOUND, or the load closed, its position EMPTY and its run returned, with no notice and no
counter. RETIRE_CLIP (R128): NOT-FOUND, PINNED, STATE, or the position EMPTY and its run returned, with the number of blocks.
-/
def Obligations.AbortAndRetireFreeThePosition : Prop :=
  ∀ (s : State) (r : Role) (id : Word32), s.Listens r →
    (∃ t, exec (.abortLoad r id) s = .next t
      ∧ (s.csc.load = none → t.csc = s.csc ∧ Answered s t r .abortLoad (toBytes 4 id.toNat) .none [])
      ∧ (∀ l c, s.csc.load = some l → clipAt? s.csc.directory l.position = some c → c.id ≠ id →
          t.csc = s.csc ∧ Answered s t r .abortLoad (toBytes 4 id.toNat) .notFound [])
      ∧ (∀ l c, s.csc.load = some l → clipAt? s.csc.directory l.position = some c → c.id = id →
          t.csc = { s.csc with
            load := none, framing := .noPacket
            directory := s.csc.directory.filter (fun x => x.1 ≠ l.position)
            freeRuns := returnRun { first := c.firstBlock, count := c.blockCount } s.csc.freeRuns }
          ∧ Answered s t r .abortLoad (toBytes 4 id.toNat) .done [])
      ∧ OnlyChanges [.csc, .mgp] s t ∧ OnlyAnswers s t r)
    ∧ (∃ t, exec (.retireClip r id) s = .next t
      ∧ ((∀ c ∈ s.csc.directory, c.2.id ≠ id) →
          t.csc = s.csc ∧ Answered s t r .retireClip (toBytes 4 id.toNat) .notFound [])
      ∧ (∀ position c, findClip? s.csc.directory id = some (position, c) →
          (0 < c.pins → t.csc = s.csc ∧ Answered s t r .retireClip (toBytes 4 id.toNat) .pinned [])
          ∧ (c.pins = 0 → c.state = .loading →
              t.csc = s.csc ∧ Answered s t r .retireClip (toBytes 4 id.toNat) .state [])
          ∧ (c.pins = 0 → (c.state = .ready ∨ c.state = .fault) →
              t.csc = { s.csc with
                directory := s.csc.directory.filter (fun x => x.1 ≠ position)
                freeRuns := returnRun { first := c.firstBlock, count := c.blockCount } s.csc.freeRuns }
              ∧ Answered s t r .retireClip (toBytes 4 id.toNat) .done (toBytes 2 c.blockCount)))
      ∧ OnlyChanges [.csc, .mgp] s t ∧ OnlyAnswers s t r)

/-- A run returned to a free run list (R117): on a list of runs that rise and do not touch, with the run in none of them, the
list stays so and its blocks are those it had and those of the run. -/
def Obligations.ReturnedRunMerges : Prop :=
  ∀ (r : FreeRun) (runs : List FreeRun),
    0 < r.count → (∀ x ∈ runs, 0 < x.count) → runs.Pairwise (fun a b => a.first + a.count < b.first) →
    (∀ x ∈ runs, x.first + x.count ≤ r.first ∨ r.first + r.count ≤ x.first) →
    (returnRun r runs).Pairwise (fun a b => a.first + a.count < b.first)
      ∧ (∀ x ∈ returnRun r runs, 0 < x.count)
      ∧ (∀ b : Nat, (∃ x ∈ returnRun r runs, x.first ≤ b ∧ b < x.first + x.count) ↔
          ((r.first ≤ b ∧ b < r.first + r.count) ∨ ∃ x ∈ runs, x.first ≤ b ∧ b < x.first + x.count))

/-- The insertion port (R120, R121): PACKET_ADMITTED and INSERTION_PACKET_REFUSED as IREADY is high or low,
INSERTION_SHORT_PACKET on a packet being framed, INSERTION_LONG_PACKET once after a completed one. That a short packet frees
its place before the byte that ended it is judged is read from R120 by inference (log 32). -/
def Obligations.InsertionPortFraming : Prop :=
  ∀ (s : State) (b : Byte), s.Running →
    ((∀ bytes, s.csc.framing ≠ .admitted bytes) → s.csc.iready = true →
      exec (.packetAdmitted b) s = .next (s.setCsc { s.csc with framing := .admitted [b] }))
    ∧ ((∀ bytes, s.csc.framing ≠ .admitted bytes) → s.csc.iready = false →
      exec .insertionPacketRefused s = .next (s.setCsc { s.csc with
        framing := .refused, counters := { s.csc.counters with packetsRefused := bump s.csc.counters.packetsRefused } }))
    ∧ (∀ bytes l c, s.csc.framing = .admitted bytes → s.csc.load = some l →
        clipAt? s.csc.directory l.position = some c → l.buffer.length < 16 → l.accepted < c.expected →
      exec (.insertionShortPacket b) s = .next (s.setCsc { s.csc with
        framing := .admitted [b]
        counters := { s.csc.counters with shortPackets := bump s.csc.counters.shortPackets } }))
    ∧ (∀ bytes, s.csc.framing = .admitted bytes →
        (s.csc.load = none
          ∨ ∃ l c, s.csc.load = some l ∧ clipAt? s.csc.directory l.position = some c
              ∧ (16 ≤ l.buffer.length ∨ c.expected ≤ l.accepted)) →
      exec (.insertionShortPacket b) s = .next (s.setCsc { s.csc with
        framing := .refused
        counters := { s.csc.counters with
          shortPackets := bump s.csc.counters.shortPackets, packetsRefused := bump s.csc.counters.packetsRefused } }))
    ∧ (s.csc.framing = .completed →
      exec .insertionLongPacket s = .next (s.setCsc { s.csc with
        framing := .excess, counters := { s.csc.counters with longPackets := bump s.csc.counters.longPackets } }))
    ∧ (s.csc.framing = .excess → exec .insertionLongPacket s = .next s)

/-- INSERTION_PACKET_COMPLETE (R122, R123): a bad packet counted, a null packet dropped, a foreign one ending the load in
FAULT, and an accepted one taken into the fingerprint, the stream list, the clock stamps and the load buffer. -/
def Obligations.InsertionPacketIsJudged : Prop :=
  ∀ (s : State) (head rest packet : List Byte) (l : LoadContext) (c : Clip) (stream : Nat), s.Running →
    s.csc.framing = .admitted head → s.csc.load = some l → clipAt? s.csc.directory l.position = some c →
    (head ++ rest).length = 188 → packet = head ++ rest → stream = streamId packet →
    ∃ t, exec (.insertionPacketComplete rest) s = .next t
      ∧ (byteAt packet 1 ≠ 0x47#8 →
          t.csc = { s.csc with framing := .completed, counters := { s.csc.counters with
            badPackets := bump s.csc.counters.badPackets } } ∧ t.mgp = s.mgp)
      ∧ (byteAt packet 1 = 0x47#8 → stream = 8191 → t.csc = { s.csc with framing := .completed } ∧ t.mgp = s.mgp)
      ∧ (byteAt packet 1 = 0x47#8 → stream ≠ 8191 →
          (serviceOf? s.sst.live.map stream ≠ some c.service ∨ (stream ∉ c.streams ∧ 8 ≤ c.streams.length)) →
          t.csc.load = none ∧ t.csc.framing = .noPacket
          ∧ clipAt? t.csc.directory l.position =
              some { c with state := .fault, cause := some .foreign, completed := some s.tbu.time }
          ∧ t.csc.counters = { s.csc.counters with clipsFaulted := bump s.csc.counters.clipsFaulted }
          ∧ RaisedBoth s t [noticeAt s .clipFault (.clipId c.id) (.fault .foreign)])
      ∧ (∀ stamped, byteAt packet 1 = 0x47#8 → stream ≠ 8191 → serviceOf? s.sst.live.map stream = some c.service →
          (stream ∈ c.streams ∨ c.streams.length < 8) →
          stamped = (carriesStamp packet && isClockStream s.sst.live.map stream c.service) →
          clipAt? t.csc.directory l.position = some { c with
            computedFp := crc32Update c.computedFp packet
            streams := if stream ∈ c.streams then c.streams else c.streams ++ [stream]
            lastStamp := if stamped then some (stampValue packet) else c.lastStamp
            firstStamp := if stamped then some (c.firstStamp.getD (stampValue packet)) else c.firstStamp }
          ∧ t.csc.load = some { l with
              accepted := l.accepted + 1
              buffer := l.buffer ++ [{
                slot := 64 * c.firstBlock + l.accepted, packet := packet,
                info := { tag := l.accepted % 65536, void := false, service := c.service.num, clockBearing := stamped,
                          check := crc8 packet } }]
              idle := if l.accepted + 1 < c.expected then some 0 else none
              idleLimit := s.sst.live.loadIdleLimit * 27000 }
          ∧ t.csc.framing = .completed ∧ t.csc.counters = s.csc.counters ∧ t.mgp = s.mgp)
      ∧ (∀ p, p ≠ l.position → clipAt? t.csc.directory p = clipAt? s.csc.directory p)
      ∧ t.csc.memory = s.csc.memory ∧ t.csc.freeRuns = s.csc.freeRuns
      ∧ OnlyChanges [.csc, .mgp] s t ∧ OnlyNotifies s t

/-- LOAD_WRITE (R124, R125): the head packet of the load buffer is written whole into its memory slot and nowhere else, and the
stored count grows; at the expected count the load completes, READY or FAULT. LOAD_IDLE_TIMEOUT (R126): FAULT with cause
TIMEOUT. -/
def Obligations.LoadWritesAndTimeout : Prop :=
  ∀ (s : State) (l : LoadContext) (c : Clip), s.Running → s.csc.load = some l →
    clipAt? s.csc.directory l.position = some c →
    (∀ e rest, s.grant? = some .loadWrite → l.buffer = e :: rest → e.slot < 524288 →
      ∃ t, exec .loadWrite s = .next t
        ∧ (∀ j, j < 192 → Memory.read t.csc.memory (192 * e.slot + j) = (slotImage e.packet e.info).getD j 0#8)
        ∧ (∀ a, a < 192 * e.slot ∨ 192 * e.slot + 192 ≤ a → Memory.read t.csc.memory a = Memory.read s.csc.memory a)
        ∧ t.csc.marker = .load
        ∧ (c.stored + 1 ≠ c.expected →
            clipAt? t.csc.directory l.position = some { c with stored := c.stored + 1 }
            ∧ t.csc.load = some { l with buffer := rest } ∧ t.mgp = s.mgp)
        ∧ (c.stored + 1 = c.expected → t.csc.load = none
            ∧ (c.computedFp ≠ c.expectedFp →
                clipAt? t.csc.directory l.position = some { c with
                  stored := c.stored + 1, completed := some s.tbu.time, state := .fault, cause := some .fingerprint }
                ∧ RaisedBoth s t [noticeAt s .clipFault (.clipId c.id) (.fault .fingerprint)])
            ∧ (c.computedFp = c.expectedFp → c.firstStamp = none →
                clipAt? t.csc.directory l.position = some { c with
                  stored := c.stored + 1, completed := some s.tbu.time, state := .fault, cause := some .noClock }
                ∧ RaisedBoth s t [noticeAt s .clipFault (.clipId c.id) (.fault .noClock)])
            ∧ (c.computedFp = c.expectedFp → c.firstStamp ≠ none →
                clipAt? t.csc.directory l.position = some { c with
                  stored := c.stored + 1, completed := some s.tbu.time, state := .ready }
                ∧ t.csc.counters = { s.csc.counters with clipsReady := bump s.csc.counters.clipsReady }
                ∧ RaisedBoth s t [noticeAt s .clipReady (.clipId c.id) .none]))
        ∧ (∀ p, p ≠ l.position → clipAt? t.csc.directory p = clipAt? s.csc.directory p)
        ∧ t.csc.written = s.csc.written ∧ t.csc.freeRuns = s.csc.freeRuns ∧ t.csc.reads = s.csc.reads
        ∧ OnlyChanges [.csc, .mgp] s t ∧ OnlyNotifies s t)
    ∧ (∀ n, l.idle = some n → l.idleLimit ≤ n →
      ∃ t, exec .loadIdleTimeout s = .next t
        ∧ t.csc.load = none ∧ t.csc.framing = .noPacket ∧ t.csc.memory = s.csc.memory
        ∧ clipAt? t.csc.directory l.position =
            some { c with state := .fault, cause := some .timeout, completed := some s.tbu.time }
        ∧ t.csc.counters = { s.csc.counters with clipsFaulted := bump s.csc.counters.clipsFaulted }
        ∧ RaisedBoth s t [noticeAt s .clipFault (.clipId c.id) (.fault .timeout)]
        ∧ t.csc.freeRuns = s.csc.freeRuns
        ∧ OnlyChanges [.csc, .mgp] s t ∧ OnlyNotifies s t)

/-- CLIP_READ_TAKEN (R130, R131): a read whose position no longer holds its clip is dropped; otherwise the 192 bytes of the
memory slot addressed at the asking are judged, and a faulty read of a READY clip makes it FAULT with cause MEMORY.
CLIP_READ_COMPLETE (R158): the result is held for its slot. -/
def Obligations.ClipReadsAreJudged : Prop :=
  ∀ s : State, s.Running →
    (∀ slot live p id k address rest, s.csc.taken = none → s.csc.reads = .clip slot live p id k address :: rest →
        (∀ c, clipAt? s.csc.directory p = some c → c.id ≠ id) →
      exec .clipReadTaken s = .next (s.setCsc { s.csc with reads := rest }))
    ∧ (∀ slot live p id k address rest c bytes info, s.csc.taken = none → s.csc.reads = .clip slot live p id k address :: rest →
        clipAt? s.csc.directory p = some c → c.id = id → address < 524288 →
        bytes = (List.range 192).map (fun j => Memory.read s.csc.memory (192 * address + j)) →
        info = slotInfo bytes →
      ∃ t, exec .clipReadTaken s = .next t
        ∧ t.csc.reads = rest ∧ t.csc.memory = s.csc.memory
        ∧ ((info.tag = k % 65536 ∧ slotValid bytes = true ∧ info.check = crc8 (bytes.take 188)) →
            t.csc = { s.csc with reads := rest, taken := some (.clip slot live (.good (bytes.take 188) info)) }
            ∧ t.mgp = s.mgp)
        ∧ (¬ (info.tag = k % 65536 ∧ slotValid bytes = true ∧ info.check = crc8 (bytes.take 188)) →
            t.csc.taken = some (.clip slot live .faulty)
            ∧ t.csc.counters.clipMemoryFaults = bump s.csc.counters.clipMemoryFaults
            ∧ (c.state = .ready →
                clipAt? t.csc.directory p = some { c with state := .fault, cause := some .memory }
                ∧ t.csc.counters.clipsFaulted = bump s.csc.counters.clipsFaulted
                ∧ RaisedBoth s t [noticeAt s .clipFault (.clipId id) (.fault .memory)])
            ∧ (c.state ≠ .ready → t.csc.directory = s.csc.directory ∧ t.mgp = s.mgp))
        ∧ OnlyChanges [.csc, .mgp] s t ∧ OnlyNotifies s t)
    ∧ (∀ slot live result, s.csc.taken = some (.clip slot live result) →
      ∃ t, exec .clipReadComplete s = .next t
        ∧ t.csc = { s.csc with taken := none }
        ∧ (live = false → t.spe = s.spe)
        ∧ (live = true → ∀ before instant x after,
            s.spe.pendingSlots = before ++ ⟨slot, instant, .clip x⟩ :: after →
            (∀ y ∈ before ++ after, y.slot ≠ slot) →
            t.spe.pendingSlots = before ++ ⟨slot, instant, .clip { x with read := .done result }⟩ :: after)
        ∧ (live = true → (∀ y ∈ s.spe.pendingSlots, y.slot ≠ slot) → t.spe = s.spe)
        ∧ OnlyChanges [.csc, .spe] s t)

/-! ## Slate -/

/-- FORCE_SLATE (R129, R168): INVALID, or the clip pinned and made the service's slate from its first packet, the earlier slate
unpinned. RELEASE_SLATE (R170): INVALID, STATE, or the slate unpinned and gone. Each change raises LOCAL-DEVIATION. -/
def Obligations.SlateCommands : Prop :=
  ∀ (s : State) (v : Byte) (id : Word32), s.Listens .site →
    (∃ t, exec (.forceSlate .site v id) s = .next t
      ∧ (∀ w p c, Service.ofNat? v.toNat = some w → findClip? s.csc.directory id = some (p, c) → c.state = .ready →
          c.service = w →
          t.spe.services = s.spe.services.set w { s.spe.services.get w with slate := some id, slatePos := 0 }
          ∧ ((s.spe.services.get w).slate = none → t.csc = (s.addPin id).csc)
          ∧ (∀ old, (s.spe.services.get w).slate = some old → t.csc = ((s.addPin id).dropPin old).csc)
          ∧ Answered s t .site .forceSlate (v :: toBytes 4 id.toNat) .done []
          ∧ Raised s t .site [noticeAt s .localDeviation (.clipId id) (.forced w)])
      ∧ ((v.toNat < 1 ∨ 4 < v.toNat ∨ findClip? s.csc.directory id = none
            ∨ ∃ p c, findClip? s.csc.directory id = some (p, c)
                ∧ (c.state ≠ .ready ∨ Service.ofNat? v.toNat ≠ some c.service)) →
          t.spe = s.spe ∧ t.csc = s.csc
          ∧ Answered s t .site .forceSlate (v :: toBytes 4 id.toNat) .invalid [] ∧ Raised s t .site [])
      ∧ OnlyChanges [.csc, .spe, .mgp] s t ∧ OnlyAnswersAndNotifies s t .site)
    ∧ (∃ t, exec (.releaseSlate .site v) s = .next t
      ∧ ((v.toNat < 1 ∨ 4 < v.toNat) →
          t.spe = s.spe ∧ t.csc = s.csc ∧ Answered s t .site .releaseSlate [v] .invalid [])
      ∧ (∀ w, Service.ofNat? v.toNat = some w →
          ((s.spe.services.get w).slate = none →
            t.spe = s.spe ∧ t.csc = s.csc ∧ Answered s t .site .releaseSlate [v] .state [])
          ∧ (∀ old, (s.spe.services.get w).slate = some old →
            (t.spe.services.get w).slate = none ∧ (t.spe.services.get w).window = (s.spe.services.get w).window
            ∧ (∀ x, x ≠ w → t.spe.services.get x = s.spe.services.get x)
            ∧ t.csc = (s.dropPin old).csc
            ∧ ((s.spe.services.get w).window = .none → ∀ c ∈ t.spe.continuity,
                serviceOf? s.sst.live.map c.stream = some w → c.returning = true)
            ∧ (∀ n, (s.spe.services.get w).window = .clip n → (t.spe.services.get w).resumeDue = true)
            ∧ Answered s t .site .releaseSlate [v] .done []
            ∧ Raised s t .site [noticeAt s .localDeviation (.clipId old) (.released w)]))
      ∧ OnlyChanges [.csc, .spe, .mgp] s t ∧ OnlyAnswersAndNotifies s t .site)

/-! ## Settings and the stream map -/

/-- The stream map edits of the site role (R36, R37, R191): the checks in order, and what ADD, CHANGE and REMOVE do to the
map. A clock flag byte of 0 is clear and of 1 set, and any other byte is taken too, as a free value (log 14). -/
def Obligations.StreamMapEdits : Prop :=
  ∀ (s : State) (stream : Word16) (cls service clock : Byte) (map : List MapEntry), s.Listens .site → s.sst.live.map = map →
    (∀ c, c = Instr.streamMapAdd .site stream cls service clock ∨ c = .streamMapChange .site stream cls service clock
        ∨ c = .streamMapRemove .site stream cls service clock →
      ∃ t, exec c s = .next t
        ∧ ((cls ≠ 1#8 ∧ cls ≠ 2#8 ∧ cls ≠ 3#8) ∨ stream = 8176#16 ∨ 8190 < stream.toNat →
            t.sst = s.sst ∧ Recorded s t .site 0x0020 .invalid [])
        ∧ ((cls = 1#8 ∨ cls = 2#8 ∨ cls = 3#8) → stream ≠ 8176#16 → stream.toNat ≤ 8190 →
            c ≠ .streamMapAdd .site stream cls service clock → (∀ e ∈ map, e.stream ≠ stream.toNat) →
            t.sst = s.sst ∧ Recorded s t .site 0x0020 .notFound [])
        ∧ OnlyChanges [.sst, .mgp] s t ∧ OnlyAnswers s t .site)
    ∧ (∀ new, stream ≠ 8176#16 → stream.toNat ≤ 8190 →
        ((cls = 1#8 ∧ new = .carry) ∨ (cls = 3#8 ∧ new = .drop)
          ∨ (cls = 2#8 ∧ ∃ v, Service.ofNat? service.toNat = some v ∧ new = .service v (clockFlag clock))) →
      (∃ t, exec (.streamMapAdd .site stream cls service clock) s = .next t
        ∧ ((∃ e ∈ map, e.stream = stream.toNat) → t.sst = s.sst ∧ Recorded s t .site 0x0020 .invalid [])
        ∧ ((∀ e ∈ map, e.stream ≠ stream.toNat) → 32 ≤ map.length →
            t.sst = s.sst ∧ Recorded s t .site 0x0020 .full [])
        ∧ ((∀ e ∈ map, e.stream ≠ stream.toNat) → map.length < 32 →
            (clockTaken map stream.toNat new = true → t.sst = s.sst ∧ Recorded s t .site 0x0020 .invalid [])
            ∧ (clockTaken map stream.toNat new = false → (new.service?.map s.serviceBusy) = some true →
                t.sst = s.sst ∧ Recorded s t .site 0x0020 .busy [])
            ∧ (clockTaken map stream.toNat new = false → (new.service?.map s.serviceBusy) ≠ some true →
                t.sst = { s.sst with
                  live := { s.sst.live with map := map ++ [{ stream := stream.toNat, cls := new }] }, unsaved := true }
                ∧ Recorded s t .site 0x0020 .done [])))
      ∧ (∀ old, streamClass? map stream.toNat = some old →
        ∃ t, exec (.streamMapChange .site stream cls service clock) s = .next t
          ∧ (clockTaken map stream.toNat new = true → t.sst = s.sst ∧ Recorded s t .site 0x0020 .invalid [])
          ∧ (clockTaken map stream.toNat new = false →
              ((new.service?.map s.serviceBusy) = some true ∨ (old.service?.map s.serviceBusy) = some true) →
              t.sst = s.sst ∧ Recorded s t .site 0x0020 .busy [])
          ∧ (clockTaken map stream.toNat new = false → (new.service?.map s.serviceBusy) ≠ some true →
              (old.service?.map s.serviceBusy) ≠ some true →
              t.sst = { s.sst with
                live := { s.sst.live with
                  map := map.map (fun e => if e.stream = stream.toNat then { e with cls := new } else e) }
                unsaved := s.sst.unsaved
                  || decide (map.map (fun e => if e.stream = stream.toNat then { e with cls := new } else e) ≠ map) }
              ∧ (old ≠ new → t.sst.unsaved = true)
              ∧ Recorded s t .site 0x0020 .done [])))
    ∧ (∀ old, (cls = 1#8 ∨ cls = 2#8 ∨ cls = 3#8) → stream ≠ 8176#16 → stream.toNat ≤ 8190 →
        streamClass? map stream.toNat = some old →
      ∃ t, exec (.streamMapRemove .site stream cls service clock) s = .next t
        ∧ ((old.service?.map s.serviceBusy) = some true → t.sst = s.sst ∧ Recorded s t .site 0x0020 .busy [])
        ∧ ((old.service?.map s.serviceBusy) ≠ some true →
            t.sst = { s.sst with
              live := { s.sst.live with map := map.filter (fun e => e.stream ≠ stream.toNat) }, unsaved := true }
            ∧ Recorded s t .site 0x0020 .done []))
    ∧ (cls = 2#8 → ((service.toNat < 1 ∨ 4 < service.toNat)) → stream ≠ 8176#16 → stream.toNat ≤ 8190 →
      (∃ t, exec (.streamMapAdd .site stream cls service clock) s = .next t ∧ t.sst = s.sst
        ∧ ((∃ e ∈ map, e.stream = stream.toNat) → Recorded s t .site 0x0020 .invalid [])
        ∧ ((∀ e ∈ map, e.stream ≠ stream.toNat) → 32 ≤ map.length → Recorded s t .site 0x0020 .full [])
        ∧ ((∀ e ∈ map, e.stream ≠ stream.toNat) → map.length < 32 → Recorded s t .site 0x0020 .invalid []))
      ∧ ((∃ e ∈ map, e.stream = stream.toNat) →
        ∃ t, exec (.streamMapChange .site stream cls service clock) s = .next t
          ∧ t.sst = s.sst ∧ Recorded s t .site 0x0020 .invalid []))

/-- WRITE_ONCE_SETTING_WRITE (R192): LOCKED, INVALID, or the value live and the setting locked. OPERATING_SETTING_WRITE
(R193): the value, or the nearest limit with CLAMPED and that limit as the return value, or INVALID for a code that names no
choice. The unsaved mark is set when the value that acts changes, so that a write-once write of the value that acts while
unset leaves it (log 19). A write of the emission tolerance is compared with the estimate at once (R15, R23) and may end a
HOLDOVER in EXPIRED, with TIME-STATE before CARRIER-STATE (log 15); one of the baud abandons the message being assembled (log
27); one of the feed mute delay sets FEED where the feed-out timer has reached it (R58, R63). No other setting has an effect
beyond its value. -/
def Obligations.SettingWrites : Prop :=
  ∀ (s : State) (value : Word32), s.Listens .site →
    (∀ w, ∃ t, exec (.writeOnceSettingWrite .site w value) s = .next t
      ∧ (s.sst.live.locked w = true → t.sst = s.sst ∧ Recorded s t .site 0x0003 .locked [])
      ∧ (s.sst.live.locked w = false → onceAdmits w value.toInt = false →
          t.sst = s.sst ∧ Recorded s t .site 0x0003 .invalid [])
      ∧ (s.sst.live.locked w = false → onceAdmits w value.toInt = true →
          t.sst = { s.sst with live := s.sst.live.putOnce w value.toInt, unsaved := t.sst.unsaved }
          ∧ t.sst.live.locked w = true
          ∧ (((w = .siteOffset ∧ value = 0#32) ∨ (w = .ringSize ∧ value = 16384#32)) → t.sst.unsaved = s.sst.unsaved)
          ∧ (¬ ((w = .siteOffset ∧ value = 0#32) ∨ (w = .ringSize ∧ value = 16384#32)) → t.sst.unsaved = true)
          ∧ Recorded s t .site 0x0003 .done [])
      ∧ t.fiu = s.fiu
      ∧ OnlyChanges [.sst, .mgp] s t ∧ OnlyAnswers s t .site)
    ∧ (∀ o, ∃ t, exec (.operatingSettingWrite .site o value) s = .next t
      ∧ (∀ lo hi, settingLimits? o = some (lo, hi) →
          (lo ≤ value.toInt → value.toInt ≤ hi →
            t.sst.live.get o = value.toInt ∧ Recorded s t .site 0x0003 .done [])
          ∧ (value.toInt < lo → t.sst.live.get o = lo ∧ Recorded s t .site 0x0003 .clamped (toBytesSigned lo))
          ∧ (hi < value.toInt → t.sst.live.get o = hi ∧ Recorded s t .site 0x0003 .clamped (toBytesSigned hi)))
      ∧ (settingLimits? o = none → 0 ≤ value.toInt → value.toInt < settingChoices o →
          t.sst.live.get o = value.toInt ∧ Recorded s t .site 0x0003 .done [])
      ∧ (settingLimits? o = none → (value.toInt < 0 ∨ (settingChoices o : Int) ≤ value.toInt) →
          t.sst = s.sst ∧ t.tbu = s.tbu ∧ Recorded s t .site 0x0003 .invalid [])
      ∧ t.sst = { s.sst with live := t.sst.live, unsaved := t.sst.unsaved }
      ∧ (∀ x, x ≠ o → t.sst.live.get x = s.sst.live.get x)
      ∧ (∀ w, t.sst.live.locked w = s.sst.live.locked w) ∧ t.sst.live.map = s.sst.live.map
      ∧ t.sst.live = s.sst.live.put o (t.sst.live.get o)
      ∧ (t.sst.live.get o ≠ s.sst.live.get o → t.sst.unsaved = true)
      ∧ (t.sst.live.get o = s.sst.live.get o → t.sst.unsaved = s.sst.unsaved)
      ∧ (o ≠ .emissionTolerance → o ≠ .timeMessageBaud → t.tbu = s.tbu)
      ∧ (o ≠ .emissionTolerance → o ≠ .feedMuteDelay → t.esc = s.esc ∧ OnlyAnswers s t .site)
      ∧ (o = .timeMessageBaud → 0 ≤ value.toInt → value.toInt < 4 → t.tbu = { s.tbu with assembly := none })
      ∧ (o = .emissionTolerance →
          t.tbu = { s.tbu with state :=
            if s.tbu.state = .holdover ∧ 256 * t.sst.live.emissionTolerance < s.tbu.h then .expired else s.tbu.state }
          ∧ (t.tbu.state = s.tbu.state → t.esc = s.esc ∧ OnlyAnswers s t .site)
          ∧ (t.tbu.state ≠ s.tbu.state → s.CarrierConsistent →
              MuteTaken s t .timing true ∧ t.esc.feedOutTimer = s.esc.feedOutTimer
              ∧ Raised s t .site (noticeAt s .timeState .none (.time .expired none) :: assertNotice s t)))
      ∧ (o = .feedMuteDelay →
          (∀ n, s.esc.feedOutTimer = some n → t.sst.live.feedMuteDelay * 27000 ≤ n → s.CarrierConsistent →
              MuteTaken s t .feed true ∧ t.esc.feedOutTimer = none ∧ Raised s t .site (assertNotice s t))
          ∧ ((s.esc.feedOutTimer = none
                ∨ ∃ n, s.esc.feedOutTimer = some n ∧ n < t.sst.live.feedMuteDelay * 27000) →
              t.esc = s.esc ∧ OnlyAnswers s t .site))
      ∧ OnlyChanges [.tbu, .esc, .sst, .mgp] s t ∧ OnlyAnswersAndNotifies s t .site)

/-- SAVE_SETTINGS (R184, R195): the settings copied, the image invalid, the site role held with IN-PROGRESS. SAVE_COMPLETE
(R195): the image holds the copy, the hold ends, and IN-PROGRESS becomes DONE with echo and sequence kept. The image's layout
and its two format numbers, and that the earlier contents stand under the invalid mark during a save, are the model's choice
(log 8). -/
def Obligations.SaveAndItsCompletion : Prop :=
  ∀ s : State,
    (s.Listens .site →
      ∃ t, exec (.saveSettings .site) s = .next t
        ∧ t.sst = { s.sst with
            save := some { copy := s.sst.live, elapsed := 0 }, imageState := .invalid,
            image := { s.sst.image with format := 0xFF#8 } }
        ∧ t.sst.image.valid = false
        ∧ (t.mgp.ports.get .site).hold = true
        ∧ Answered s t .site .saveSettings [] .inProgress []
        ∧ t.mgp.ports.get .insertion = s.mgp.ports.get .insertion
        ∧ (t.mgp.ports.get .site).notices = (s.mgp.ports.get .site).notices
        ∧ OnlyChanges [.sst, .mgp] s t)
    ∧ (∀ v, s.Running → s.sst.save = some v →
      ∃ t, exec .saveComplete s = .next t
        ∧ t.sst = { s.sst with
            image := { content := v.copy, format := 0x01#8, crc := crc32 (imageBytes 0x01#8 v.copy) }, imageState := .valid,
            unsaved := false, save := none }
        ∧ (t.mgp.ports.get .site).hold = false
        ∧ ((s.mgp.ports.get .site).result.code = .inProgress →
            (t.mgp.ports.get .site).result = { (s.mgp.ports.get .site).result with code := .done })
        ∧ t.mgp.ports.get .insertion = s.mgp.ports.get .insertion
        ∧ (t.mgp.ports.get .site).notices = (s.mgp.ports.get .site).notices
        ∧ OnlyChanges [.sst, .mgp] s t)

/-- STREAM_RESTART by the site role (R43, R58, R60, R65, R81, R111, R114, R135, R173, R190, R198, R199): what it does to each
block, with every notice that it raises, in the model's order (log 15), and that the Time Base Unit, the settings, the image,
the packet memory, the clips and an open load stay. The last emission instant becomes the last driven instant (R65); the ring
reads are dropped, and the clip reads stay with their results to be discarded (R135); the pins of the entries and slates that
end are released; the feed-out timer starts where the feed was ON, or FEED is set at once with a delay of 0 (R58), and the
other mute reasons stay. The passes and the current fetch instant become those of a reset (logs 36 and 37). `out` says that
the feed was ON, `why` is the reason that asserts CARINH where it was released. -/
def Obligations.StreamRestartReachesEachBlock : Prop :=
  ∀ (s : State) (out : Bool) (why : MuteReason), s.Listens .site → s.CarrierConsistent → (s.bpu.table.map (·.number)).Nodup →
    out = decide (s.fiu.state = .on) →
    why = (if s.fiu.state = .on ∧ s.sst.live.feedMuteDelay = 0 then .feed else .schedule) →
    ∃ t, exec (.streamRestart .site) s = .next t
      ∧ Answered s t .site .streamRestart [] .done []
      ∧ t.sst = { s.sst with cause := .streamRestart }
      ∧ t.fiu = { s.fiu with
          framing := .noPacket, state := .absent, goodRun := 0, badRun := 0, slotCounter := 0, writeBuffer := [], handoff := [],
          gapTimer := some 0, gapLimit := s.sst.live.feedGapLimit * 27000 }
      ∧ t.csc = { s.csc with
          written := []
          directory := (s.dropPins (s.bpu.table.flatMap (fun e => if e.state = .active ∨ e.state = .armed then e.clips else [])
            ++ [Service.s1, .s2, .s3, .s4].flatMap (fun v => (s.spe.services.get v).slate.toList))).csc.directory
          reads := s.csc.reads.filterMap (fun r => match r with
            | .ring _ _ => none
            | .clip slot _ position id k address => some (.clip slot false position id k address))
          taken := s.csc.taken.map (fun r => match r with
            | .ring slot _ mark bytes => .ring slot false mark bytes
            | .clip slot _ result => .clip slot false result) }
      ∧ t.ddc = { s.ddc with inHand := none, lastSeq := none }
      ∧ t.esc = { s.esc with
          running := false, anchors := [], next := none, fetchPos := none, requested := [], fills := []
          lastEmission := s.esc.lastDriven
          mute := { s.esc.mute with
            feed := s.esc.mute.feed || (out && decide (s.sst.live.feedMuteDelay = 0)), schedule := true }
          carinh := .asserted
          port := none
          feedOutTimer := if out then (if s.sst.live.feedMuteDelay = 0 then none else some 0) else s.esc.feedOutTimer
          counters := { s.esc.counters with
            carrierCutoffs := if s.esc.driving then bump s.esc.counters.carrierCutoffs else s.esc.counters.carrierCutoffs } }
      ∧ t.bpu = { s.bpu with table := s.bpu.table.map (fun e =>
          if e.state = .active ∨ (e.state = .fallback ∧ e.windowOpen = true)
            then { e with state := .ended, outcome := some .restart, closure := none, windowOpen := false }
            else if e.state = .armed then { e with state := .fallback, reason := some .notRunning } else e) }
      ∧ (∀ n e, s.findBreak? n = some e → t.findBreak? n = some
          (if e.state = .active ∨ (e.state = .fallback ∧ e.windowOpen = true)
            then { e with state := .ended, outcome := some .restart, closure := none, windowOpen := false }
            else if e.state = .armed then { e with state := .fallback, reason := some .notRunning } else e))
      ∧ t.spe = { counters := s.spe.counters }
      ∧ (∀ both : List Notice, both = s.bpu.table.flatMap (fun e =>
            if e.state = .active ∨ (e.state = .fallback ∧ e.windowOpen = true)
              then [noticeAt s .breakEnded (.breakNumber e.number) (.ended .restart)]
            else if e.state = .armed then [noticeAt s .breakFallback (.breakNumber e.number) (.reason .notRunning)]
            else []) →
          Raised s t .insertion (noticeAt s .restarted .none (.restart .streamRestart s.sst.storeInvalid) :: both)
          ∧ Raised s t .site (noticeAt s .restarted .none (.restart .streamRestart s.sst.storeInvalid) ::
              ((if s.fiu.state = .absent then [] else [noticeAt s .feedState .none (.feed .absent)])
                ++ (if s.esc.carinh = .released
                    then [noticeAt s .carrierState .none (.mute (MuteReasons.empty.put why true))] else [])
                ++ both
                ++ [Service.s1, .s2, .s3, .s4].flatMap (fun v => match (s.spe.services.get v).slate with
                  | some id => [noticeAt s .localDeviation (.clipId id) (.released v)]
                  | none => []))))
      ∧ OnlyChanges [.fiu, .esc, .ddc, .bpu, .csc, .spe, .sst, .mgp] s t ∧ OnlyAnswersAndNotifies s t .site

/-! ## The Management Port -/

/-- A command or write that the tables of R176 and R182 give to the site role alone is refused RIGHTS from the insertion role,
and any command or write of the site role is refused uncarried while its save hold stands (R177, R184): in each case one
counter moves, and beside the recorded refusal nothing else. -/
def Obligations.RightsAndTheSaveHold : Prop :=
  ∀ (c : Instr) (r : Role) (echo : Nat) (s : State), s.Running → senderOf? c = some (r, echo) →
    (r = .insertion → siteOnlyCommand c = true → s.held r = false →
      ∃ t, exec c s = .next t
        ∧ Recorded s t r echo .rights []
        ∧ (t.mgp.ports.get r).counters =
            { (s.mgp.ports.get r).counters with rightsRefusals := bump (s.mgp.ports.get r).counters.rightsRefusals }
        ∧ (t.mgp.ports.get r).notices = (s.mgp.ports.get r).notices
        ∧ t.mgp.ports.get (otherRole r) = s.mgp.ports.get (otherRole r)
        ∧ OnlyChanges [.mgp] s t)
    ∧ (s.held r = true →
      ∃ t, exec c s = .next t
        ∧ (t.mgp.ports.get r) = { s.mgp.ports.get r with counters :=
            { (s.mgp.ports.get r).counters with
              refusedDuringSave := bump (s.mgp.ports.get r).counters.refusedDuringSave } }
        ∧ t.mgp.ports.get (otherRole r) = s.mgp.ports.get (otherRole r)
        ∧ OnlyChanges [.mgp] s t)

/-- WRITE_PHASE (R174 to R178, R182; taken whole, log 5): a phase to no role's address, or with no byte, or with an object
number alone, changes nothing but the name it leaves; an incomplete object number is a malformed write; a number that no role
may write gives INVALID. A phase that carries the bytes of a command, of a staging record, of a setting or of a stream map
edit, with a right check byte in check mode, is that command or write; bytes beyond the form are counted once, also where the
right is then refused (the model's reading, log 25), and change nothing else (R177, R189). In check mode a wrong check byte
discards the phase whole: it is counted, and CHECK is recorded where it carried data (R178); such a phase names no object (log
18). A command code that is unknown, or arguments that are too short, give INVALID (R182), the unknown code with that code as
the echo and no count of bytes in excess (log 25). -/
def Obligations.WritePhaseIsJudged : Prop :=
  (∀ (s : State) (a : BitVec 7) (tx : Transaction), s.Running →
    tx = { s.mgp.transaction with phase := none, received := [], named := none } →
    (∀ bytes, a ≠ s.mgp.insertionAddress → a ≠ s.mgp.siteAddress →
      exec (.writePhase a bytes true) s = .next (s.setMgp { s.mgp with transaction := tx }))
    ∧ (∀ r, (r = .insertion ∧ a = s.mgp.insertionAddress)
        ∨ (r = .site ∧ a = s.mgp.siteAddress ∧ a ≠ s.mgp.insertionAddress) →
        s.sst.live.checkMode r = false → s.held r = false →
      exec (.writePhase a [] true) s = .next (s.setMgp { s.mgp with transaction := tx })
      ∧ (∀ b, ∃ t, exec (.writePhase a [b] true) s = .next t
          ∧ (t.mgp.ports.get r).counters =
              { (s.mgp.ports.get r).counters with malformedWrites := bump (s.mgp.ports.get r).counters.malformedWrites }
          ∧ (t.mgp.ports.get r).result = (s.mgp.ports.get r).result
          ∧ t.mgp.ports.get (otherRole r) = s.mgp.ports.get (otherRole r) ∧ OnlyChanges [.mgp] s t)
      ∧ (∀ hi lo, exec (.writePhase a [hi, lo] true) s = .next (s.setMgp { s.mgp with transaction := tx })
          ∧ ∃ t, exec (.writePhase a [hi, lo] false) s = .next t
            ∧ t.mgp.transaction.named = some (r, BitVec.ofNat 16 (hi.toNat * 256 + lo.toNat))
            ∧ t.mgp.ports = s.mgp.ports ∧ OnlyChanges [.mgp] s t)
      ∧ (∀ hi lo b data object, object = hi.toNat * 256 + lo.toNat →
          object ≠ 0x0003 → object ≠ 0x0010 → object ≠ 0x0011 → object ≠ 0x0020 →
        ∃ t, exec (.writePhase a (hi :: lo :: b :: data) true) s = .next t
          ∧ Recorded s t r object .invalid [] ∧ OnlyChanges [.mgp] s t)
      ∧ (∃ t u, exec (.writePhase a [0x00#8, 0x11#8, 0x03#8] true) s = .next t ∧ exec (.discard r) s = .next u
          ∧ t = u.setMgp { u.mgp with transaction := tx })))
  ∧ (∀ (s v : State) (a : BitVec 7) (r : Role) (c : Instr) (body extra : List Byte) (stop : Bool), s.Running →
      s.mgp.Addresses a r → writtenBytes? c = some (r, body) → s.held r = false →
      v = (if extra = [] then s else s.setMgp { s.mgp with ports := s.mgp.ports.set r { s.mgp.ports.get r with counters :=
        { (s.mgp.ports.get r).counters with overlongWrites := bump (s.mgp.ports.get r).counters.overlongWrites } } }) →
      (extra ≠ [] → ∀ x first data, c = .stagingWrite x first data → data.length = stagingForm first.toNat) →
    ∃ t u, exec (.writePhase a (phaseBytes (s.sst.live.checkMode r) a (body ++ extra)) stop) s = .next t ∧ exec c v = .next u
      ∧ t = u.setMgp { u.mgp with transaction := { u.mgp.transaction with
          phase := none, received := []
          named := if stop then none else some (r, BitVec.ofNat 16 (ofBytes (body.take 2))) } })
  ∧ (∀ (s : State) (a : BitVec 7) (r : Role) (body : List Byte) (stop : Bool) (tx : Transaction), s.Running →
      s.mgp.Addresses a r →
      tx = { s.mgp.transaction with phase := none, received := [], named := none } →
      (s.held r = false → body = [0x00#8, 0x11#8] ++ body.drop 2 →
        ((∃ code, body.drop 2 = code :: body.drop 3 ∧ (code = 0#8 ∨ 15 < code.toNat))
          ∨ (∃ kind, body.drop 2 = [BitVec.ofNat 8 (CommandKind.code kind)] ++ body.drop 3
              ∧ (body.drop 3).length < kind.argBytes ∧ (r = .site ∨ kind.siteOnly = false))) →
        ∃ t, exec (.writePhase a (phaseBytes (s.sst.live.checkMode r) a body) stop) s = .next t
          ∧ Recorded s t r (byteAt body 3).toNat .invalid [] ∧ (t.mgp.ports.get r).counters = (s.mgp.ports.get r).counters
          ∧ (t.mgp.ports.get r).command = (s.mgp.ports.get r).command ∧ OnlyChanges [.mgp] s t)
      ∧ (s.sst.live.checkMode r = true →
        (∀ bytes, bytes ≠ [] → bytes.length < 3 → ∃ t, exec (.writePhase a bytes stop) s = .next t
          ∧ t.mgp.ports.get r = { s.mgp.ports.get r with counters := { (s.mgp.ports.get r).counters with
              malformedWrites := bump (s.mgp.ports.get r).counters.malformedWrites } }
          ∧ t.mgp.transaction = tx ∧ t.mgp.ports.get (otherRole r) = s.mgp.ports.get (otherRole r) ∧ OnlyChanges [.mgp] s t)
        ∧ (∀ b, 2 ≤ body.length → b ≠ crc8 (BitVec.ofNat 8 (a.toNat * 2) :: body) →
          ∃ t, exec (.writePhase a (body ++ [b]) stop) s = .next t
            ∧ (t.mgp.ports.get r).counters = { (s.mgp.ports.get r).counters with
                checkFailures := bump (s.mgp.ports.get r).counters.checkFailures }
            ∧ (2 < body.length → s.held r = false → Recorded s t r (ofBytes (body.take 2)) .check [])
            ∧ (body.length = 2 ∨ s.held r = true → (t.mgp.ports.get r).result = (s.mgp.ports.get r).result)
            ∧ (t.mgp.ports.get r).command = (s.mgp.ports.get r).command
            ∧ t.mgp.transaction = tx ∧ t.mgp.ports.get (otherRole r) = s.mgp.ports.get (otherRole r) ∧ OnlyChanges [.mgp] s t)
        ∧ (∀ hi lo, ∃ t, exec (.writePhase a (phaseBytes true a [hi, lo]) false) s = .next t
            ∧ t.mgp.transaction.named = some (r, BitVec.ofNat 16 (hi.toNat * 256 + lo.toNat))
            ∧ t.mgp.ports = s.mgp.ports ∧ OnlyChanges [.mgp] s t)))

/-- The two reads that change state (R179, R180, R198), and CLEAR_COUNTERS (R185): a notice head read removes the head exactly
when all its 20 bytes have been sent; a reset cause read by the site role clears the cause and the flag, by the insertion role
not; CLEAR_COUNTERS makes every counter of the part 0 and touches nothing else. A read phase reads the object that the write
phase before it named for the same role, and otherwise the status summary (R175): it sends the bytes of one copy, then the
check byte in check mode, then 0xFF (R179), and acts as those two reads do where it reads their objects. -/
def Obligations.ReadsAndClearCounters : Prop :=
  ∀ s : State,
    (s.Running → ∀ r sent, ∃ t, exec (.noticeHeadRead r sent) s = .next t
      ∧ (t.mgp.ports.get r).notices =
          (if 20 ≤ sent then (s.mgp.ports.get r).notices.tail else (s.mgp.ports.get r).notices)
      ∧ t.mgp.transaction.copy = (s.mgp.ports.get r).headBytes
      ∧ (t.mgp.ports.get r).result = (s.mgp.ports.get r).result
      ∧ (t.mgp.ports.get r).counters = (s.mgp.ports.get r).counters
      ∧ t.mgp.ports.get (otherRole r) = s.mgp.ports.get (otherRole r)
      ∧ OnlyChanges [.mgp] s t)
    ∧ (s.Running → ∀ r, ∃ t, exec (.resetCauseRead r) s = .next t
      ∧ t.mgp.transaction.copy = toBytes 1 s.sst.cause.code ++ [if s.sst.storeInvalid then 1#8 else 0#8]
      ∧ (r = .site → t.sst = { s.sst with cause := .none, storeInvalid := false })
      ∧ (r = .insertion → t.sst = s.sst)
      ∧ t.mgp.ports = s.mgp.ports
      ∧ OnlyChanges [.sst, .mgp] s t)
    ∧ (s.Listens .site →
      ∃ t, exec (.clearCounters .site) s = .next t
        ∧ (∀ n ∈ t.counters, n = 0)
        ∧ Answered s t .site .clearCounters [] .done []
        ∧ t.tbu = { s.tbu with counters := {} } ∧ t.fiu = { s.fiu with counters := {} }
        ∧ t.esc = { s.esc with counters := {} } ∧ t.ddc = { s.ddc with counters := {} }
        ∧ t.bpu = { s.bpu with counters := {} } ∧ t.csc = { s.csc with counters := {} }
        ∧ t.spe = { s.spe with counters := {} }
        ∧ (∀ r, (t.mgp.ports.get r).notices = (s.mgp.ports.get r).notices
            ∧ (t.mgp.ports.get r).hold = (s.mgp.ports.get r).hold)
        ∧ t.mgp.ports.get .insertion = { s.mgp.ports.get .insertion with counters := {} }
        ∧ OnlyChanges [.tbu, .fiu, .esc, .ddc, .bpu, .csc, .spe, .mgp] s t)
    ∧ (s.Running → ∀ (a : BitVec 7) (r : Role) (object sent : Nat) (copy : List Byte), s.mgp.Addresses a r →
        object = (match s.mgp.transaction.named with
          | some (x, n) => if x = r then n.toNat else 0
          | none => 0) →
        copy = (s.object? r object).getD [] →
      (s.readPhase a sent).1.mgp.transaction = { s.mgp.transaction with copy := copy, named := none }
      ∧ (∀ i, (s.readPhase a sent).2[i]? =
          if sent ≤ i then none
          else if i < copy.length then copy[i]?
          else if i = copy.length ∧ s.sst.live.checkMode r = true ∧ copy ≠ [] then some (crc8 copy)
          else some 0xFF#8)
      ∧ (object ≠ 0x0002 → object ≠ 0x0013 →
          (s.readPhase a sent).1 = s.setMgp { s.mgp with transaction := { s.mgp.transaction with copy := copy, named := none } })
      ∧ (object = 0x0013 → exec (.noticeHeadRead r sent) s = .next (s.readPhase a sent).1)
      ∧ (object = 0x0002 → exec (.resetCauseRead r) s = .next (s.readPhase a sent).1))

/-! ## What every step keeps -/

/-- Every step keeps site time's tick in 0..26,999,999 (00_scope.md, R1), and the estimate of a HOLDOVER within 256 times the
emission tolerance (R9, R15, R23). -/
def Obligations.StepKeepsTheTimeBase : Prop :=
  (∀ s t : State, s.ClockInRange → step s = .next t → t.ClockInRange)
  ∧ (∀ s t : State, s.HoldoverWithinTolerance → step s = .next t → t.HoldoverWithinTolerance)

/-- Every step keeps the carrier consistent with its reasons: CARINH asserted exactly while a reason is present, TIMING exactly
while the TBU is not emission-fit, SCHEDULE exactly while the ESC is STOPPED, and a packet on the port only while CARINH is
released (R56, R57, R60). -/
def Obligations.StepKeepsCarrierConsistent : Prop :=
  ∀ s t : State, s.CarrierConsistent → step s = .next t → t.CarrierConsistent

/-- Every step keeps the hand-off queue (R34), the stream map (R35), the feed write buffer (R39), the anchor queue (R46), the
break table (R82), the clip directory (R115), the load buffer with the packet being framed (R121), the continuity table (R161)
and the two notice queues (R186) within their places, the break numbers distinct, and the directory and the continuity table
in rising order. -/
def Obligations.StepKeepsQueuesBounded : Prop := ∀ s t : State, s.QueuesBounded → step s = .next t → t.QueuesBounded

/-- Every step keeps the packet memory in its canonical form, which is the model's own (log 6). -/
def Obligations.StepKeepsMemoryCanonical : Prop := ∀ s t : State, s.MemoryCanonical → step s = .next t → t.MemoryCanonical

/-- Every step keeps each of the 8,192 blocks of the packet memory in exactly one place: the ring, the run of one clip, or one
free run; and the free runs rising with no two adjacent (R112, R115, R117, R118, R127, R128). -/
def Obligations.StepKeepsBlocksAccounted : Prop := ∀ s t : State, s.BlocksAccounted → step s = .next t → t.BlocksAccounted

/-- Every step keeps the save hold, the save in progress and the image in agreement: the site role is held exactly during a
save, the insertion role never, and during a save the stored image is invalid (R184, R194, R195, R196). -/
def Obligations.StepKeepsSaveConsistent : Prop := ∀ s t : State, s.SaveConsistent → step s = .next t → t.SaveConsistent

/-- The part as reset ends meets every condition that a step keeps, whatever image it loads: at the end of any reset, and so
at the model's reset state. -/
def Obligations.ResetEndMeetsTheConditions : Prop :=
  (∀ (s : State) (src : ResetSource) (a1 a2 : Bool), s.inReset = some src → s.MemoryCanonical →
    ∃ t, exec (.resetEnds a1 a2) s = .next t
      ∧ t.ClockInRange ∧ t.HoldoverWithinTolerance ∧ t.CarrierConsistent ∧ t.QueuesBounded ∧ t.MemoryCanonical
      ∧ t.BlocksAccounted ∧ t.SaveConsistent)
  ∧ State.reset.ClockInRange ∧ State.reset.HoldoverWithinTolerance ∧ State.reset.CarrierConsistent
  ∧ State.reset.QueuesBounded ∧ State.reset.MemoryCanonical ∧ State.reset.BlocksAccounted ∧ State.reset.SaveConsistent
end

