-- ==== Sys2Proof/Laws/State.lean ====
section
/-! SUPPORT. Every field of the state after every block update, and the values held per role and per service after one of them is
replaced. -/

set_option Elab.async false

namespace Sys2Proof
namespace Machine

@[simp] theorem State.setRefok_inReset (s : State) (x : Bool) : (s.setRefok x).inReset = s.inReset := rfl
@[simp] theorem State.setRefok_refok (s : State) (x : Bool) : (s.setRefok x).refok = x := rfl
@[simp] theorem State.setRefok_tbu (s : State) (x : Bool) : (s.setRefok x).tbu = s.tbu := rfl
@[simp] theorem State.setRefok_fiu (s : State) (x : Bool) : (s.setRefok x).fiu = s.fiu := rfl
@[simp] theorem State.setRefok_esc (s : State) (x : Bool) : (s.setRefok x).esc = s.esc := rfl
@[simp] theorem State.setRefok_ddc (s : State) (x : Bool) : (s.setRefok x).ddc = s.ddc := rfl
@[simp] theorem State.setRefok_bpu (s : State) (x : Bool) : (s.setRefok x).bpu = s.bpu := rfl
@[simp] theorem State.setRefok_csc (s : State) (x : Bool) : (s.setRefok x).csc = s.csc := rfl
@[simp] theorem State.setRefok_spe (s : State) (x : Bool) : (s.setRefok x).spe = s.spe := rfl
@[simp] theorem State.setRefok_mgp (s : State) (x : Bool) : (s.setRefok x).mgp = s.mgp := rfl
@[simp] theorem State.setRefok_sst (s : State) (x : Bool) : (s.setRefok x).sst = s.sst := rfl
@[simp] theorem State.setRefok_pending (s : State) (x : Bool) : (s.setRefok x).pending = s.pending := rfl
@[simp] theorem State.setRefok_choices (s : State) (x : Bool) : (s.setRefok x).choices = s.choices := rfl

@[simp] theorem State.setTbu_inReset (s : State) (x : Tbu) : (s.setTbu x).inReset = s.inReset := rfl
@[simp] theorem State.setTbu_refok (s : State) (x : Tbu) : (s.setTbu x).refok = s.refok := rfl
@[simp] theorem State.setTbu_tbu (s : State) (x : Tbu) : (s.setTbu x).tbu = x := rfl
@[simp] theorem State.setTbu_fiu (s : State) (x : Tbu) : (s.setTbu x).fiu = s.fiu := rfl
@[simp] theorem State.setTbu_esc (s : State) (x : Tbu) : (s.setTbu x).esc = s.esc := rfl
@[simp] theorem State.setTbu_ddc (s : State) (x : Tbu) : (s.setTbu x).ddc = s.ddc := rfl
@[simp] theorem State.setTbu_bpu (s : State) (x : Tbu) : (s.setTbu x).bpu = s.bpu := rfl
@[simp] theorem State.setTbu_csc (s : State) (x : Tbu) : (s.setTbu x).csc = s.csc := rfl
@[simp] theorem State.setTbu_spe (s : State) (x : Tbu) : (s.setTbu x).spe = s.spe := rfl
@[simp] theorem State.setTbu_mgp (s : State) (x : Tbu) : (s.setTbu x).mgp = s.mgp := rfl
@[simp] theorem State.setTbu_sst (s : State) (x : Tbu) : (s.setTbu x).sst = s.sst := rfl
@[simp] theorem State.setTbu_pending (s : State) (x : Tbu) : (s.setTbu x).pending = s.pending := rfl
@[simp] theorem State.setTbu_choices (s : State) (x : Tbu) : (s.setTbu x).choices = s.choices := rfl

@[simp] theorem State.setFiu_inReset (s : State) (x : Fiu) : (s.setFiu x).inReset = s.inReset := rfl
@[simp] theorem State.setFiu_refok (s : State) (x : Fiu) : (s.setFiu x).refok = s.refok := rfl
@[simp] theorem State.setFiu_tbu (s : State) (x : Fiu) : (s.setFiu x).tbu = s.tbu := rfl
@[simp] theorem State.setFiu_fiu (s : State) (x : Fiu) : (s.setFiu x).fiu = x := rfl
@[simp] theorem State.setFiu_esc (s : State) (x : Fiu) : (s.setFiu x).esc = s.esc := rfl
@[simp] theorem State.setFiu_ddc (s : State) (x : Fiu) : (s.setFiu x).ddc = s.ddc := rfl
@[simp] theorem State.setFiu_bpu (s : State) (x : Fiu) : (s.setFiu x).bpu = s.bpu := rfl
@[simp] theorem State.setFiu_csc (s : State) (x : Fiu) : (s.setFiu x).csc = s.csc := rfl
@[simp] theorem State.setFiu_spe (s : State) (x : Fiu) : (s.setFiu x).spe = s.spe := rfl
@[simp] theorem State.setFiu_mgp (s : State) (x : Fiu) : (s.setFiu x).mgp = s.mgp := rfl
@[simp] theorem State.setFiu_sst (s : State) (x : Fiu) : (s.setFiu x).sst = s.sst := rfl
@[simp] theorem State.setFiu_pending (s : State) (x : Fiu) : (s.setFiu x).pending = s.pending := rfl
@[simp] theorem State.setFiu_choices (s : State) (x : Fiu) : (s.setFiu x).choices = s.choices := rfl

@[simp] theorem State.setEsc_inReset (s : State) (x : Esc) : (s.setEsc x).inReset = s.inReset := rfl
@[simp] theorem State.setEsc_refok (s : State) (x : Esc) : (s.setEsc x).refok = s.refok := rfl
@[simp] theorem State.setEsc_tbu (s : State) (x : Esc) : (s.setEsc x).tbu = s.tbu := rfl
@[simp] theorem State.setEsc_fiu (s : State) (x : Esc) : (s.setEsc x).fiu = s.fiu := rfl
@[simp] theorem State.setEsc_esc (s : State) (x : Esc) : (s.setEsc x).esc = x := rfl
@[simp] theorem State.setEsc_ddc (s : State) (x : Esc) : (s.setEsc x).ddc = s.ddc := rfl
@[simp] theorem State.setEsc_bpu (s : State) (x : Esc) : (s.setEsc x).bpu = s.bpu := rfl
@[simp] theorem State.setEsc_csc (s : State) (x : Esc) : (s.setEsc x).csc = s.csc := rfl
@[simp] theorem State.setEsc_spe (s : State) (x : Esc) : (s.setEsc x).spe = s.spe := rfl
@[simp] theorem State.setEsc_mgp (s : State) (x : Esc) : (s.setEsc x).mgp = s.mgp := rfl
@[simp] theorem State.setEsc_sst (s : State) (x : Esc) : (s.setEsc x).sst = s.sst := rfl
@[simp] theorem State.setEsc_pending (s : State) (x : Esc) : (s.setEsc x).pending = s.pending := rfl
@[simp] theorem State.setEsc_choices (s : State) (x : Esc) : (s.setEsc x).choices = s.choices := rfl

@[simp] theorem State.setDdc_inReset (s : State) (x : Ddc) : (s.setDdc x).inReset = s.inReset := rfl
@[simp] theorem State.setDdc_refok (s : State) (x : Ddc) : (s.setDdc x).refok = s.refok := rfl
@[simp] theorem State.setDdc_tbu (s : State) (x : Ddc) : (s.setDdc x).tbu = s.tbu := rfl
@[simp] theorem State.setDdc_fiu (s : State) (x : Ddc) : (s.setDdc x).fiu = s.fiu := rfl
@[simp] theorem State.setDdc_esc (s : State) (x : Ddc) : (s.setDdc x).esc = s.esc := rfl
@[simp] theorem State.setDdc_ddc (s : State) (x : Ddc) : (s.setDdc x).ddc = x := rfl
@[simp] theorem State.setDdc_bpu (s : State) (x : Ddc) : (s.setDdc x).bpu = s.bpu := rfl
@[simp] theorem State.setDdc_csc (s : State) (x : Ddc) : (s.setDdc x).csc = s.csc := rfl
@[simp] theorem State.setDdc_spe (s : State) (x : Ddc) : (s.setDdc x).spe = s.spe := rfl
@[simp] theorem State.setDdc_mgp (s : State) (x : Ddc) : (s.setDdc x).mgp = s.mgp := rfl
@[simp] theorem State.setDdc_sst (s : State) (x : Ddc) : (s.setDdc x).sst = s.sst := rfl
@[simp] theorem State.setDdc_pending (s : State) (x : Ddc) : (s.setDdc x).pending = s.pending := rfl
@[simp] theorem State.setDdc_choices (s : State) (x : Ddc) : (s.setDdc x).choices = s.choices := rfl

@[simp] theorem State.setBpu_inReset (s : State) (x : Bpu) : (s.setBpu x).inReset = s.inReset := rfl
@[simp] theorem State.setBpu_refok (s : State) (x : Bpu) : (s.setBpu x).refok = s.refok := rfl
@[simp] theorem State.setBpu_tbu (s : State) (x : Bpu) : (s.setBpu x).tbu = s.tbu := rfl
@[simp] theorem State.setBpu_fiu (s : State) (x : Bpu) : (s.setBpu x).fiu = s.fiu := rfl
@[simp] theorem State.setBpu_esc (s : State) (x : Bpu) : (s.setBpu x).esc = s.esc := rfl
@[simp] theorem State.setBpu_ddc (s : State) (x : Bpu) : (s.setBpu x).ddc = s.ddc := rfl
@[simp] theorem State.setBpu_bpu (s : State) (x : Bpu) : (s.setBpu x).bpu = x := rfl
@[simp] theorem State.setBpu_csc (s : State) (x : Bpu) : (s.setBpu x).csc = s.csc := rfl
@[simp] theorem State.setBpu_spe (s : State) (x : Bpu) : (s.setBpu x).spe = s.spe := rfl
@[simp] theorem State.setBpu_mgp (s : State) (x : Bpu) : (s.setBpu x).mgp = s.mgp := rfl
@[simp] theorem State.setBpu_sst (s : State) (x : Bpu) : (s.setBpu x).sst = s.sst := rfl
@[simp] theorem State.setBpu_pending (s : State) (x : Bpu) : (s.setBpu x).pending = s.pending := rfl
@[simp] theorem State.setBpu_choices (s : State) (x : Bpu) : (s.setBpu x).choices = s.choices := rfl

@[simp] theorem State.setCsc_inReset (s : State) (x : Csc) : (s.setCsc x).inReset = s.inReset := rfl
@[simp] theorem State.setCsc_refok (s : State) (x : Csc) : (s.setCsc x).refok = s.refok := rfl
@[simp] theorem State.setCsc_tbu (s : State) (x : Csc) : (s.setCsc x).tbu = s.tbu := rfl
@[simp] theorem State.setCsc_fiu (s : State) (x : Csc) : (s.setCsc x).fiu = s.fiu := rfl
@[simp] theorem State.setCsc_esc (s : State) (x : Csc) : (s.setCsc x).esc = s.esc := rfl
@[simp] theorem State.setCsc_ddc (s : State) (x : Csc) : (s.setCsc x).ddc = s.ddc := rfl
@[simp] theorem State.setCsc_bpu (s : State) (x : Csc) : (s.setCsc x).bpu = s.bpu := rfl
@[simp] theorem State.setCsc_csc (s : State) (x : Csc) : (s.setCsc x).csc = x := rfl
@[simp] theorem State.setCsc_spe (s : State) (x : Csc) : (s.setCsc x).spe = s.spe := rfl
@[simp] theorem State.setCsc_mgp (s : State) (x : Csc) : (s.setCsc x).mgp = s.mgp := rfl
@[simp] theorem State.setCsc_sst (s : State) (x : Csc) : (s.setCsc x).sst = s.sst := rfl
@[simp] theorem State.setCsc_pending (s : State) (x : Csc) : (s.setCsc x).pending = s.pending := rfl
@[simp] theorem State.setCsc_choices (s : State) (x : Csc) : (s.setCsc x).choices = s.choices := rfl

@[simp] theorem State.setSpe_inReset (s : State) (x : Spe) : (s.setSpe x).inReset = s.inReset := rfl
@[simp] theorem State.setSpe_refok (s : State) (x : Spe) : (s.setSpe x).refok = s.refok := rfl
@[simp] theorem State.setSpe_tbu (s : State) (x : Spe) : (s.setSpe x).tbu = s.tbu := rfl
@[simp] theorem State.setSpe_fiu (s : State) (x : Spe) : (s.setSpe x).fiu = s.fiu := rfl
@[simp] theorem State.setSpe_esc (s : State) (x : Spe) : (s.setSpe x).esc = s.esc := rfl
@[simp] theorem State.setSpe_ddc (s : State) (x : Spe) : (s.setSpe x).ddc = s.ddc := rfl
@[simp] theorem State.setSpe_bpu (s : State) (x : Spe) : (s.setSpe x).bpu = s.bpu := rfl
@[simp] theorem State.setSpe_csc (s : State) (x : Spe) : (s.setSpe x).csc = s.csc := rfl
@[simp] theorem State.setSpe_spe (s : State) (x : Spe) : (s.setSpe x).spe = x := rfl
@[simp] theorem State.setSpe_mgp (s : State) (x : Spe) : (s.setSpe x).mgp = s.mgp := rfl
@[simp] theorem State.setSpe_sst (s : State) (x : Spe) : (s.setSpe x).sst = s.sst := rfl
@[simp] theorem State.setSpe_pending (s : State) (x : Spe) : (s.setSpe x).pending = s.pending := rfl
@[simp] theorem State.setSpe_choices (s : State) (x : Spe) : (s.setSpe x).choices = s.choices := rfl

@[simp] theorem State.setMgp_inReset (s : State) (x : Mgp) : (s.setMgp x).inReset = s.inReset := rfl
@[simp] theorem State.setMgp_refok (s : State) (x : Mgp) : (s.setMgp x).refok = s.refok := rfl
@[simp] theorem State.setMgp_tbu (s : State) (x : Mgp) : (s.setMgp x).tbu = s.tbu := rfl
@[simp] theorem State.setMgp_fiu (s : State) (x : Mgp) : (s.setMgp x).fiu = s.fiu := rfl
@[simp] theorem State.setMgp_esc (s : State) (x : Mgp) : (s.setMgp x).esc = s.esc := rfl
@[simp] theorem State.setMgp_ddc (s : State) (x : Mgp) : (s.setMgp x).ddc = s.ddc := rfl
@[simp] theorem State.setMgp_bpu (s : State) (x : Mgp) : (s.setMgp x).bpu = s.bpu := rfl
@[simp] theorem State.setMgp_csc (s : State) (x : Mgp) : (s.setMgp x).csc = s.csc := rfl
@[simp] theorem State.setMgp_spe (s : State) (x : Mgp) : (s.setMgp x).spe = s.spe := rfl
@[simp] theorem State.setMgp_mgp (s : State) (x : Mgp) : (s.setMgp x).mgp = x := rfl
@[simp] theorem State.setMgp_sst (s : State) (x : Mgp) : (s.setMgp x).sst = s.sst := rfl
@[simp] theorem State.setMgp_pending (s : State) (x : Mgp) : (s.setMgp x).pending = s.pending := rfl
@[simp] theorem State.setMgp_choices (s : State) (x : Mgp) : (s.setMgp x).choices = s.choices := rfl

@[simp] theorem State.setSst_inReset (s : State) (x : Sst) : (s.setSst x).inReset = s.inReset := rfl
@[simp] theorem State.setSst_refok (s : State) (x : Sst) : (s.setSst x).refok = s.refok := rfl
@[simp] theorem State.setSst_tbu (s : State) (x : Sst) : (s.setSst x).tbu = s.tbu := rfl
@[simp] theorem State.setSst_fiu (s : State) (x : Sst) : (s.setSst x).fiu = s.fiu := rfl
@[simp] theorem State.setSst_esc (s : State) (x : Sst) : (s.setSst x).esc = s.esc := rfl
@[simp] theorem State.setSst_ddc (s : State) (x : Sst) : (s.setSst x).ddc = s.ddc := rfl
@[simp] theorem State.setSst_bpu (s : State) (x : Sst) : (s.setSst x).bpu = s.bpu := rfl
@[simp] theorem State.setSst_csc (s : State) (x : Sst) : (s.setSst x).csc = s.csc := rfl
@[simp] theorem State.setSst_spe (s : State) (x : Sst) : (s.setSst x).spe = s.spe := rfl
@[simp] theorem State.setSst_mgp (s : State) (x : Sst) : (s.setSst x).mgp = s.mgp := rfl
@[simp] theorem State.setSst_sst (s : State) (x : Sst) : (s.setSst x).sst = x := rfl
@[simp] theorem State.setSst_pending (s : State) (x : Sst) : (s.setSst x).pending = s.pending := rfl
@[simp] theorem State.setSst_choices (s : State) (x : Sst) : (s.setSst x).choices = s.choices := rfl

@[simp] theorem State.setPending_inReset (s : State) (x : List Instr) : (s.setPending x).inReset = s.inReset := rfl
@[simp] theorem State.setPending_refok (s : State) (x : List Instr) : (s.setPending x).refok = s.refok := rfl
@[simp] theorem State.setPending_tbu (s : State) (x : List Instr) : (s.setPending x).tbu = s.tbu := rfl
@[simp] theorem State.setPending_fiu (s : State) (x : List Instr) : (s.setPending x).fiu = s.fiu := rfl
@[simp] theorem State.setPending_esc (s : State) (x : List Instr) : (s.setPending x).esc = s.esc := rfl
@[simp] theorem State.setPending_ddc (s : State) (x : List Instr) : (s.setPending x).ddc = s.ddc := rfl
@[simp] theorem State.setPending_bpu (s : State) (x : List Instr) : (s.setPending x).bpu = s.bpu := rfl
@[simp] theorem State.setPending_csc (s : State) (x : List Instr) : (s.setPending x).csc = s.csc := rfl
@[simp] theorem State.setPending_spe (s : State) (x : List Instr) : (s.setPending x).spe = s.spe := rfl
@[simp] theorem State.setPending_mgp (s : State) (x : List Instr) : (s.setPending x).mgp = s.mgp := rfl
@[simp] theorem State.setPending_sst (s : State) (x : List Instr) : (s.setPending x).sst = s.sst := rfl
@[simp] theorem State.setPending_pending (s : State) (x : List Instr) : (s.setPending x).pending = x := rfl
@[simp] theorem State.setPending_choices (s : State) (x : List Instr) : (s.setPending x).choices = s.choices := rfl

@[simp] theorem State.setChoices_inReset (s : State) (x : Nat) : (s.setChoices x).inReset = s.inReset := rfl
@[simp] theorem State.setChoices_refok (s : State) (x : Nat) : (s.setChoices x).refok = s.refok := rfl
@[simp] theorem State.setChoices_tbu (s : State) (x : Nat) : (s.setChoices x).tbu = s.tbu := rfl
@[simp] theorem State.setChoices_fiu (s : State) (x : Nat) : (s.setChoices x).fiu = s.fiu := rfl
@[simp] theorem State.setChoices_esc (s : State) (x : Nat) : (s.setChoices x).esc = s.esc := rfl
@[simp] theorem State.setChoices_ddc (s : State) (x : Nat) : (s.setChoices x).ddc = s.ddc := rfl
@[simp] theorem State.setChoices_bpu (s : State) (x : Nat) : (s.setChoices x).bpu = s.bpu := rfl
@[simp] theorem State.setChoices_csc (s : State) (x : Nat) : (s.setChoices x).csc = s.csc := rfl
@[simp] theorem State.setChoices_spe (s : State) (x : Nat) : (s.setChoices x).spe = s.spe := rfl
@[simp] theorem State.setChoices_mgp (s : State) (x : Nat) : (s.setChoices x).mgp = s.mgp := rfl
@[simp] theorem State.setChoices_sst (s : State) (x : Nat) : (s.setChoices x).sst = s.sst := rfl
@[simp] theorem State.setChoices_pending (s : State) (x : Nat) : (s.setChoices x).pending = s.pending := rfl
@[simp] theorem State.setChoices_choices (s : State) (x : Nat) : (s.setChoices x).choices = x := rfl

theorem State.setPending_setPending (s : State) (x y : List Instr) : (s.setPending x).setPending y = s.setPending y := rfl

@[simp] theorem PerRole.get_set {α : Type} (p : PerRole α) (r : Role) (x : α) : (p.set r x).get r = x := by cases r <;> rfl

@[simp] theorem PerRole.get_set_other {α : Type} (p : PerRole α) (r : Role) (x : α) :
    (p.set r x).get (otherRole r) = p.get (otherRole r) := by cases r <;> rfl

theorem PerRole.get_set_of_ne {α : Type} (p : PerRole α) {r q : Role} (h : q ≠ r) (x : α) : (p.set r x).get q = p.get q := by
  cases r <;> cases q <;> first | rfl | exact absurd rfl h

@[simp] theorem PerRole.set_set {α : Type} (p : PerRole α) (r : Role) (x y : α) : (p.set r x).set r y = p.set r y := by
  cases r <;> rfl

@[simp] theorem PerService.get_set {α : Type} (p : PerService α) (v : Service) (x : α) : (p.set v x).get v = x := by
  cases v <;> rfl

theorem PerService.get_set_of_ne {α : Type} (p : PerService α) {v w : Service} (h : w ≠ v) (x : α) :
    (p.set v x).get w = p.get w := by
  cases v <;> cases w <;> first | rfl | exact absurd rfl h

@[simp] theorem PerService.set_set {α : Type} (p : PerService α) (v : Service) (x y : α) : (p.set v x).set v y = p.set v y := by
  cases v <;> rfl

end Machine
end Sys2Proof
end

