-- ==== Sys2Proof/Laws/Frames.lean ====
section
/-! SUPPORT. What each shared operation leaves alone: one lemma per operation, by the parts of the state it may change. -/

set_option Elab.async false

namespace Sys2Proof
namespace Machine

/-! ## The calculus -/

theorem OnlyChanges.refl (a : List Part) (s : State) : OnlyChanges a s s := by
  intro p _; cases p <;> rfl

theorem OnlyChanges.seq {a b c : List Part} {s t u : State} (h₁ : OnlyChanges a s t) (h₂ : OnlyChanges b t u)
    (ha : ∀ p ∈ a, p ∈ c := by decide) (hb : ∀ p ∈ b, p ∈ c := by decide) : OnlyChanges c s u := by
  intro p hp
  have h1 := h₁ p (fun h => hp (ha p h))
  have h2 := h₂ p (fun h => hp (hb p h))
  cases p <;> exact h2.trans h1

theorem OnlyChanges.widen {a c : List Part} {s t : State} (h : OnlyChanges a s t) (ha : ∀ p ∈ a, p ∈ c := by decide) :
    OnlyChanges c s t := fun p hp => h p (fun hpa => hp (ha p hpa))

theorem OnlyChanges.ite {a : List Part} {s t u : State} {c : Prop} [Decidable c] (h₁ : OnlyChanges a s t)
    (h₂ : OnlyChanges a s u) : OnlyChanges a s (if c then t else u) := by
  split
  · exact h₁
  · exact h₂

theorem OnlyChanges.foldl {α : Type} {a : List Part} (f : State → α → State) (h : ∀ s x, OnlyChanges a s (f s x)) :
    ∀ (l : List α) (s : State), OnlyChanges a s (l.foldl f s)
  | [], s => OnlyChanges.refl a s
  | x :: l, s => (h s x).seq (OnlyChanges.foldl f h l (f s x)) (fun _ h => h) (fun _ h => h)

theorem setTbu_frame (s : State) (x : Tbu) : OnlyChanges [.tbu] s (s.setTbu x) := by
  intro p hp; cases p <;> first | rfl | simp at hp
theorem setFiu_frame (s : State) (x : Fiu) : OnlyChanges [.fiu] s (s.setFiu x) := by
  intro p hp; cases p <;> first | rfl | simp at hp
theorem setEsc_frame (s : State) (x : Esc) : OnlyChanges [.esc] s (s.setEsc x) := by
  intro p hp; cases p <;> first | rfl | simp at hp
theorem setDdc_frame (s : State) (x : Ddc) : OnlyChanges [.ddc] s (s.setDdc x) := by
  intro p hp; cases p <;> first | rfl | simp at hp
theorem setBpu_frame (s : State) (x : Bpu) : OnlyChanges [.bpu] s (s.setBpu x) := by
  intro p hp; cases p <;> first | rfl | simp at hp
theorem setCsc_frame (s : State) (x : Csc) : OnlyChanges [.csc] s (s.setCsc x) := by
  intro p hp; cases p <;> first | rfl | simp at hp
theorem setSpe_frame (s : State) (x : Spe) : OnlyChanges [.spe] s (s.setSpe x) := by
  intro p hp; cases p <;> first | rfl | simp at hp
theorem setMgp_frame (s : State) (x : Mgp) : OnlyChanges [.mgp] s (s.setMgp x) := by
  intro p hp; cases p <;> first | rfl | simp at hp
theorem setSst_frame (s : State) (x : Sst) : OnlyChanges [.sst] s (s.setSst x) := by
  intro p hp; cases p <;> first | rfl | simp at hp
theorem setRefok_frame (s : State) (x : Bool) : OnlyChanges [.refok] s (s.setRefok x) := by
  intro p hp; cases p <;> first | rfl | simp at hp

/-! ## Notices, mute reasons, the carrier -/

theorem setPort_frame (s : State) (r : Role) (p : RolePort) : OnlyChanges [.mgp] s (s.setPort r p) := setMgp_frame s _
theorem updatePort_frame (s : State) (r : Role) (f : RolePort → RolePort) : OnlyChanges [.mgp] s (s.updatePort r f) :=
  setPort_frame s r _
theorem countPort_frame (s : State) (r : Role) (f : MgpCounters → MgpCounters) : OnlyChanges [.mgp] s (s.countPort r f) :=
  updatePort_frame s r _
theorem record_frame (s : State) (r : Role) (e : Nat) (c : ResultCode) (v : List Byte) :
    OnlyChanges [.mgp] s (s.record r e c v) := updatePort_frame s r _
theorem raiseTo_frame (s : State) (r : Role) (k : NoticeKind) (j : Subject) (d : Detail) :
    OnlyChanges [.mgp] s (s.raiseTo r k j d) := setPort_frame s r _
theorem raiseSite_frame (s : State) (k : NoticeKind) (j : Subject) (d : Detail) : OnlyChanges [.mgp] s (s.raiseSite k j d) :=
  raiseTo_frame s .site k j d
theorem raiseBoth_frame (s : State) (k : NoticeKind) (j : Subject) (d : Detail) : OnlyChanges [.mgp] s (s.raiseBoth k j d) :=
  (raiseTo_frame s .insertion k j d).seq (raiseTo_frame _ .site k j d)

theorem setMute_frame (s : State) (r : MuteReason) (b : Bool) : OnlyChanges [.esc, .mgp] s (s.setMute r b) := by
  unfold State.setMute
  split
  · exact OnlyChanges.refl _ s
  · dsimp only
    split
    · split
      · exact (setEsc_frame s _).seq (raiseSite_frame _ _ _ _)
      · exact (setEsc_frame s _).widen
      · exact (setEsc_frame s _).widen
    · split <;> exact (setEsc_frame s _).widen

theorem carrierInstant_frame (s : State) : OnlyChanges [.esc, .mgp] s s.carrierInstant := by
  unfold State.carrierInstant
  split
  · exact (setEsc_frame s _).seq (raiseSite_frame _ _ _ _)
  · exact OnlyChanges.refl _ s
  · exact OnlyChanges.refl _ s

theorem drive_frame (s : State) (t : SiteTime) (p : List Byte) : OnlyChanges [.esc] s (s.drive t p) := by
  unfold State.drive
  split
  · exact setEsc_frame s _
  · exact OnlyChanges.refl _ s
  · exact OnlyChanges.refl _ s

theorem afterTbu_frame (s : State) (old : DisciplineState) : OnlyChanges [.esc, .mgp] s (s.afterTbu old) := by
  unfold State.afterTbu
  split
  · exact OnlyChanges.refl _ s
  · exact (raiseSite_frame s _ _ _).seq (setMute_frame _ _ _)

/-! ## Counters, pins, break entries, services -/

theorem countTbu_frame (s : State) (f : TbuCounters → TbuCounters) : OnlyChanges [.tbu] s (s.countTbu f) := setTbu_frame s _
theorem countFiu_frame (s : State) (f : FiuCounters → FiuCounters) : OnlyChanges [.fiu] s (s.countFiu f) := setFiu_frame s _
theorem countEsc_frame (s : State) (f : EscCounters → EscCounters) : OnlyChanges [.esc] s (s.countEsc f) := setEsc_frame s _
theorem countDdc_frame (s : State) (f : DdcCounters → DdcCounters) : OnlyChanges [.ddc] s (s.countDdc f) := setDdc_frame s _
theorem countBpu_frame (s : State) (f : BpuCounters → BpuCounters) : OnlyChanges [.bpu] s (s.countBpu f) := setBpu_frame s _
theorem countCsc_frame (s : State) (f : CscCounters → CscCounters) : OnlyChanges [.csc] s (s.countCsc f) := setCsc_frame s _
theorem countSpe_frame (s : State) (f : SpeCounters → SpeCounters) : OnlyChanges [.spe] s (s.countSpe f) := setSpe_frame s _

theorem addPin_frame (s : State) (id : Word32) : OnlyChanges [.csc] s (s.addPin id) := setCsc_frame s _
theorem dropPin_frame (s : State) (id : Word32) : OnlyChanges [.csc] s (s.dropPin id) := setCsc_frame s _
theorem addPins_frame (s : State) (ids : List Word32) : OnlyChanges [.csc] s (s.addPins ids) :=
  OnlyChanges.foldl State.addPin addPin_frame ids s
theorem dropPins_frame (s : State) (ids : List Word32) : OnlyChanges [.csc] s (s.dropPins ids) :=
  OnlyChanges.foldl State.dropPin dropPin_frame ids s

theorem updateBreak_frame (s : State) (n : Word16) (f : BreakEntry → BreakEntry) : OnlyChanges [.bpu] s (s.updateBreak n f) :=
  setBpu_frame s _
theorem finishBreak_frame (s : State) (e : BreakEntry) (x : BreakState) (o : BreakOutcome) :
    OnlyChanges [.bpu, .csc, .mgp] s (s.finishBreak e x o) :=
  ((updateBreak_frame s _ _).seq (dropPins_frame _ _) (c := [.bpu, .csc])).seq (raiseBoth_frame _ _ _ _)

theorem updateService_frame (s : State) (v : Service) (f : ServiceState → ServiceState) :
    OnlyChanges [.spe] s (s.updateService v f) := setSpe_frame s _
theorem markReturning_frame (s : State) (v : Service) : OnlyChanges [.spe] s (s.markReturning v) := setSpe_frame s _

/-! ## The Time Base Unit -/

theorem badMessage_frame (s : State) : OnlyChanges [.tbu] s s.badMessage := (setTbu_frame s _).seq (countTbu_frame _ _)

theorem joinByte_frame (s : State) (b : Byte) (h : Bool) : OnlyChanges [.tbu] s (s.joinByte b h) := by
  unfold State.joinByte
  dsimp only
  repeat' split
  all_goals first | exact badMessage_frame s | exact setTbu_frame s _

theorem receive_frame (s : State) (b : Byte) (h : Bool) : OnlyChanges [.tbu] s (s.receive b h) := by
  unfold State.receive
  split
  · exact (badMessage_frame s).seq (joinByte_frame _ b h)
  · exact joinByte_frame s b h

theorem steerLimit_frame (s : State) : OnlyChanges [.tbu, .mgp] s s.steerLimit := by
  unfold State.steerLimit
  dsimp only
  repeat' split
  all_goals first
    | exact (setTbu_frame s _).seq (raiseSite_frame _ _ _ _)
    | exact (setTbu_frame s _).widen

theorem lockedPulse_frame (s : State) (e : Int) (m : PulseMessage) : OnlyChanges [.tbu, .mgp] s (s.lockedPulse e m) := by
  have h : OnlyChanges [.tbu, .mgp] s
      (if e.natAbs ≤ s.sst.live.lockWindow then
        State.steerLimit (s.setTbu { (s.tbu.loop s.sst.live.trackGp s.sst.live.trackGi e) with outlierCount := 0 })
      else
        s.setTbu { s.tbu with
          outlierCount := s.tbu.outlierCount + 1
          counters := { s.tbu.counters with referenceOutliers := bump s.tbu.counters.referenceOutliers } }) := by
    split
    · exact (setTbu_frame s _).seq (steerLimit_frame _)
    · exact (setTbu_frame s _).widen
  unfold State.lockedPulse
  dsimp only
  repeat' split
  all_goals exact OnlyChanges.seq (c := [.tbu, .mgp]) (by simpa [*] using h) (setTbu_frame _ _)

theorem takenPulse_frame (s : State) (held : Option HeldMessage) : OnlyChanges [.tbu, .mgp] s (s.takenPulse held) := by
  unfold State.takenPulse
  dsimp only
  split
  · exact (countTbu_frame s _).widen
  · split
    · exact (setTbu_frame s _).widen
    · exact ((setTbu_frame s _).seq (setTbu_frame _ _) (c := [.tbu])).widen
    · exact (setTbu_frame s _).seq (lockedPulse_frame _ _ _)
    · exact ((setTbu_frame s _).seq (setTbu_frame _ _) (c := [.tbu])).widen
    · exact ((setTbu_frame s _).seq (setTbu_frame _ _) (c := [.tbu])).widen

theorem setTime_frame (s : State) (held : Option HeldMessage) : OnlyChanges [.tbu] s (s.setTime held) := by
  unfold State.setTime
  repeat' split
  all_goals exact setTbu_frame s _

theorem pulse_frame (s : State) : OnlyChanges [.tbu, .esc, .mgp] s s.pulse := by
  unfold State.pulse
  dsimp only
  split
  · refine OnlyChanges.seq (b := [.esc, .mgp]) (a := [.tbu, .mgp]) ?_ (afterTbu_frame _ _)
    split
    · exact ((setTbu_frame s _).seq (setTime_frame _ _) (c := [.tbu])).widen
    · exact (setTbu_frame s _).seq (takenPulse_frame _ _)
  · exact ((setTbu_frame s _).seq (countTbu_frame _ _) (c := [.tbu])).widen

/-! ## The Feed Intake -/

theorem feedOut_frame (s : State) : OnlyChanges [.esc, .mgp] s s.feedOut := (setEsc_frame s _).seq (setMute_frame _ _ _)

theorem startFeedOut_frame (s : State) : OnlyChanges [.esc, .mgp] s s.startFeedOut := by
  unfold State.startFeedOut
  split
  · exact (setEsc_frame s _).seq (setMute_frame _ _ _)
  · exact (setEsc_frame s _).widen

theorem setFeed_frame (s : State) (x : FeedState) : OnlyChanges [.fiu, .esc, .mgp] s (s.setFeed x) := by
  have h : OnlyChanges [.fiu, .mgp] s ((s.setFiu { s.fiu with state := x }).raiseSite .feedState .none (.feed x)) :=
    (setFiu_frame s _).seq (raiseSite_frame _ _ _ _)
  unfold State.setFeed
  dsimp only
  split
  · exact OnlyChanges.refl _ s
  · split
    · exact h.seq ((setEsc_frame _ _).seq (setMute_frame _ _ _) (c := [.esc, .mgp]))
    · split
      · exact h.seq (startFeedOut_frame _)
      · exact h.widen

theorem loseFeed_frame (s : State) : OnlyChanges [.fiu, .esc, .mgp] s s.loseFeed :=
  (countFiu_frame s _).seq (setFeed_frame _ _)

theorem goodPacket_frame (s : State) : OnlyChanges [.fiu, .esc, .mgp] s s.goodPacket := by
  unfold State.goodPacket
  dsimp only
  repeat' split
  all_goals first
    | exact (setFiu_frame s _).seq ((setFiu_frame _ _).seq (setFeed_frame _ _) (c := [.fiu, .esc, .mgp]))
    | exact (setFiu_frame s _).seq (setFeed_frame _ _)
    | exact (setFiu_frame s _).widen

theorem badPacket_frame (s : State) : OnlyChanges [.fiu, .esc, .mgp] s s.badPacket := by
  unfold State.badPacket
  dsimp only
  repeat' split
  all_goals first
    | exact (setFiu_frame s _).seq (loseFeed_frame _)
    | exact (setFiu_frame s _).widen

/-! ## Commands and other writes -/

theorem refuseHeld_frame (s : State) (r : Role) : OnlyChanges [.mgp] s (s.refuseHeld r) := countPort_frame s r _
theorem refuseRights_frame (s : State) (r : Role) (e : Nat) : OnlyChanges [.mgp] s (s.refuseRights r e) :=
  (countPort_frame s r _).seq (record_frame _ _ _ _ _)

/-- A command changes what its owner changes, and the Management Port. -/
theorem takeCommand_frame {a : List Part} (s : State) (r : Role) (k : CommandKind) (args : List Byte) (owner : State → Taken)
    (h : ∀ s, OnlyChanges (.mgp :: a) s (owner s).state) : OnlyChanges (.mgp :: a) s (s.takeCommand r k args owner) := by
  unfold State.takeCommand
  have hm : ∀ p ∈ [Part.mgp], p ∈ Part.mgp :: a := by simp
  split
  · exact (refuseHeld_frame s r).widen hm
  · split
    · exact (refuseRights_frame s r _).widen hm
    · exact ((updatePort_frame s r _).seq (h _) hm (fun _ h => h)).seq (record_frame _ _ _ _ _) (fun _ h => h) hm

/-- A write of another object changes what its owner changes, and the Management Port. -/
theorem takeWrite_frame {a : List Part} (s : State) (r : Role) (o : Nat) (b : Bool) (owner : State → Taken)
    (h : ∀ s, OnlyChanges (.mgp :: a) s (owner s).state) : OnlyChanges (.mgp :: a) s (s.takeWrite r o b owner) := by
  unfold State.takeWrite
  have hm : ∀ p ∈ [Part.mgp], p ∈ Part.mgp :: a := by simp
  split
  · exact (refuseHeld_frame s r).widen hm
  · split
    · exact (refuseRights_frame s r _).widen hm
    · exact (h s).seq (record_frame _ _ _ _ _) (fun _ h => h) hm

end Machine
end Sys2Proof
end

