-- ==== Sys2Proof/Laws/BlockFrames.lean ====
section
/-! SUPPORT. What the blocks' own operations leave alone: the break plan, splicing, the schedule, directives, the clip store,
settings and restarts. -/

set_option Elab.async false

namespace Sys2Proof
namespace Machine

/-! ## The Break Plan Unit -/

theorem fallBack_frame (s : State) (e : BreakEntry) (w : FallbackReason) : OnlyChanges [.bpu, .csc, .mgp] s (s.fallBack e w) :=
  ((updateBreak_frame s _ _).seq (dropPins_frame _ _) (c := [.bpu, .csc])).seq (raiseBoth_frame _ _ _ _)

theorem armBreak_frame (s : State) (e : BreakEntry) : OnlyChanges [.bpu, .mgp] s (s.armBreak e) :=
  (updateBreak_frame s _ _).seq (raiseBoth_frame _ _ _ _)

theorem evaluate_frame (s : State) (n : Word16) : OnlyChanges [.bpu, .csc, .mgp] s (s.evaluate n) := by
  unfold State.evaluate
  repeat' split
  all_goals first
    | exact fallBack_frame s _ _
    | exact (armBreak_frame s _).widen
    | exact OnlyChanges.refl _ s

theorem reachArm_frame (s : State) (n : Word16) : OnlyChanges [.bpu, .csc, .mgp] s (s.reachArm n) := by
  unfold State.reachArm
  repeat' split
  all_goals first
    | exact evaluate_frame s n
    | exact OnlyChanges.refl _ s

theorem endBreak_frame (s : State) (e : BreakEntry) : OnlyChanges [.bpu, .csc, .mgp] s (s.endBreak e) := by
  unfold State.endBreak
  split
  · exact (countBpu_frame s _).seq (finishBreak_frame _ _ _ _)
  · exact finishBreak_frame s _ _ _

theorem reachEnd_frame (s : State) (n : Word16) : OnlyChanges [.bpu, .csc, .mgp] s (s.reachEnd n) := by
  unfold State.reachEnd
  repeat' split
  all_goals first
    | exact endBreak_frame s _
    | exact OnlyChanges.refl _ s

theorem refuseNotice_frame (s : State) (n : Word16) (w : NoticeRefusal) : OnlyChanges [.bpu, .mgp] s (s.refuseNotice n w) :=
  (countBpu_frame s _).seq (raiseSite_frame _ _ _ _)

theorem placeNew_frame (s : State) (e : BreakEntry) : OnlyChanges [.bpu, .mgp] s (s.placeNew e) := by
  have h : OnlyChanges [.bpu, .mgp] s ((s.setBpu { s.bpu with table := insertBreak e s.bpu.table }).raiseBoth
      .breakAnnounced (.breakNumber e.number) .none) := (setBpu_frame s _).seq (raiseBoth_frame _ _ _ _)
  unfold State.placeNew
  dsimp only
  split
  · exact h.seq (raiseBoth_frame _ _ _ _)
  · exact h

theorem newBreak_frame (s : State) (f : NoticeFields) (a b : SiteTime) (p : Policy) :
    OnlyChanges [.bpu, .mgp] s (s.newBreak f a b p) := by
  unfold State.newBreak
  repeat' split
  all_goals first
    | exact refuseNotice_frame s _ _
    | exact placeNew_frame s _
    | exact OnlyChanges.seq (a := [.bpu]) (setBpu_frame s _) (placeNew_frame _ _)

theorem installRevision_frame (s : State) (a b : BreakEntry) : OnlyChanges [.bpu, .mgp] s (s.installRevision a b) :=
  (setBpu_frame s _).seq (raiseBoth_frame _ _ _ _)

theorem afterRevision_frame (s : State) (a b : BreakEntry) : OnlyChanges [.bpu, .csc, .mgp] s (s.afterRevision a b) := by
  unfold State.afterRevision
  dsimp only
  split
  · split
    · exact (updateBreak_frame s _ _).widen
    · exact OnlyChanges.refl _ s
  · repeat' split
    all_goals first
      | exact (reachArm_frame s _).seq (reachEnd_frame _ _)
      | exact reachEnd_frame s _
      | exact reachArm_frame s _
      | exact OnlyChanges.refl _ s

theorem revisionEnd_frame (s s0 : State) (e new : BreakEntry) (h : OnlyChanges [.bpu] s s0) :
    OnlyChanges [.bpu, .csc, .mgp] s
      (if contentDiffers new e then (s0.installRevision e new).afterRevision e new else s0) := by
  split
  · exact h.seq ((installRevision_frame s0 e new).seq (afterRevision_frame _ _ _) (c := [.bpu, .csc, .mgp]))
  · exact h.widen

theorem revise_frame (s : State) (e : BreakEntry) (f : NoticeFields) : OnlyChanges [.bpu, .csc, .mgp] s (s.revise e f) := by
  have r : ∀ w, OnlyChanges [.bpu, .csc, .mgp] s (s.refuseNotice f.number w) := fun w => (refuseNotice_frame s _ w).widen
  unfold State.revise
  dsimp only
  refine .ite (.refl _ s) (.ite (r _) (.ite (r _) (.ite (r _) (.ite (r _) (revisionEnd_frame s _ e _ ?_)))))
  exact .ite (countBpu_frame s _) (.refl _ s)

theorem takeNotice_frame (s : State) (f : NoticeFields) : OnlyChanges [.bpu, .csc, .mgp] s (s.takeNotice f) := by
  unfold State.takeNotice
  repeat' split
  all_goals first
    | exact revise_frame s _ _
    | exact (newBreak_frame s _ _ _ _).widen
    | exact OnlyChanges.refl _ s

theorem takeCancel_frame (s : State) (n : Word16) : OnlyChanges [.bpu, .csc, .mgp] s (s.takeCancel n) := by
  unfold State.takeCancel
  repeat' split
  all_goals first
    | exact (countBpu_frame s _).widen
    | exact (updateBreak_frame s _ _).widen
    | exact finishBreak_frame s _ _ _
    | exact OnlyChanges.refl _ s

theorem takeReturn_frame (s : State) (v : Service) : OnlyChanges [.bpu] s (s.takeReturn v) := by
  unfold State.takeReturn
  split
  · exact updateBreak_frame s _ _
  · exact countBpu_frame s _

theorem updateStaging_frame (s : State) (r : Role) (f : Staging → Staging) : OnlyChanges [.bpu] s (s.updateStaging r f) :=
  setBpu_frame s _

theorem ownStaging_frame (r : Role) (c : Byte) (d : List Byte) (s : State) : OnlyChanges [.mgp, .bpu] s (ownStaging r c d s).state := by
  unfold ownStaging
  split
  · exact OnlyChanges.refl _ s
  · exact (updateStaging_frame s r _).widen

theorem stagingWrite_frame (s : State) (r : Role) (c : Byte) (d : List Byte) : OnlyChanges [.mgp, .bpu] s (s.stagingWrite r c d) := by
  unfold State.stagingWrite
  dsimp only
  split
  · exact (countPort_frame s r _).seq (takeWrite_frame _ r _ _ _ (ownStaging_frame r c d))
  · exact takeWrite_frame s r _ _ _ (ownStaging_frame r c d)

theorem installBooking_frame (s : State) (r : Role) (e : BreakEntry) : OnlyChanges [.bpu, .csc, .mgp] s (s.installBooking r e) := by
  unfold State.installBooking
  dsimp only
  have h1 : ∀ (c : List Word32) (f : BreakEntry → BreakEntry), OnlyChanges [.bpu, .csc] s
      ((((s.addPins c).dropPins e.pinned).updateBreak e.number f).updateStaging r (fun _ => {})) := fun c f =>
    (((addPins_frame s c).seq (dropPins_frame _ _) (c := [.csc])).seq (updateBreak_frame _ _ f) (c := [.bpu, .csc])).seq
      (updateStaging_frame _ r _)
  split
  · exact ((((h1 _ _).seq (updateStaging_frame _ _ _) (c := [.bpu, .csc])).seq (countBpu_frame _ _) (c := [.bpu, .csc])).seq
      (raiseBoth_frame _ _ _ _) (c := [.bpu, .csc, .mgp])).seq (raiseTo_frame _ _ _ _ _)
  · exact ((h1 _ _).seq (countBpu_frame _ _) (c := [.bpu, .csc])).seq (raiseBoth_frame _ _ _ _)

theorem removeBooking_frame (s : State) (e : BreakEntry) (x : BreakState) (w : Option FallbackReason) :
    OnlyChanges [.bpu, .csc, .mgp] s (s.removeBooking e x w) :=
  ((updateBreak_frame s _ _).seq (dropPins_frame _ _) (c := [.bpu, .csc])).seq (raiseBoth_frame _ _ _ _)

/-! ## The Splice Engine -/

theorem spliceIn_frame (s : State) (v : Service) (e : BreakEntry) : OnlyChanges [.bpu, .csc, .spe, .mgp] s (s.spliceIn v e) :=
  ((updateBreak_frame s _ _).seq (finishBreak_frame _ _ _ _) (c := [.bpu, .csc, .mgp])).seq
    ((updateService_frame _ _ _).seq (markReturning_frame _ _) (c := [.spe]))

theorem closeWindow_frame (s : State) (t : ExactTime) (v : Service) :
    OnlyChanges [.bpu, .csc, .spe, .mgp] s (s.closeWindow t v) := by
  unfold State.closeWindow
  repeat' split
  all_goals first
    | exact spliceIn_frame s _ _
    | exact OnlyChanges.refl _ s

theorem closeWindows_frame (s : State) (t : ExactTime) : OnlyChanges [.bpu, .csc, .spe, .mgp] s (s.closeWindows t) :=
  OnlyChanges.foldl (fun acc v => acc.closeWindow t v) (fun s v => closeWindow_frame s t v) Service.all s

theorem grantClip_frame (s : State) (v : Service) (e : BreakEntry) : OnlyChanges [.bpu, .spe, .mgp] s (s.grantClip v e) :=
  ((updateBreak_frame s _ _).seq (raiseBoth_frame _ _ _ _) (c := [.bpu, .mgp])).seq (updateService_frame _ _ _)

theorem grantBlank_frame (s : State) (v : Service) (e : BreakEntry) : OnlyChanges [.bpu, .spe, .mgp] s (s.grantBlank v e) :=
  ((updateBreak_frame s _ _).seq (raiseBoth_frame _ _ _ _) (c := [.bpu, .mgp])).seq (updateService_frame _ _ _)

theorem openWindow_frame (s : State) (t : ExactTime) (v : Service) : OnlyChanges [.bpu, .spe, .mgp] s (s.openWindow t v) := by
  unfold State.openWindow
  split
  · split
    · split
      · split
        · exact grantClip_frame s _ _
        · exact grantBlank_frame s _ _
      · exact (countSpe_frame s _).widen
    · exact OnlyChanges.refl _ s
  · exact OnlyChanges.refl _ s
  · exact OnlyChanges.refl _ s

theorem addPending_frame (s : State) (n : Word32) (t : SiteTime) (c : Content) : OnlyChanges [.spe] s (s.addPending n t c) :=
  setSpe_frame s _

theorem askClip_frame (s : State) (n : Word32) (p : Nat) (c : Clip) (k : Nat) : OnlyChanges [.csc] s (s.askClip n p c k) := by
  unfold State.askClip
  split
  · exact setCsc_frame s _
  · exact OnlyChanges.refl _ s

theorem takeBreakPacket_frame (s : State) (n : Word32) (t : SiteTime) (v : Service) (b : Word16) :
    OnlyChanges [.bpu, .csc, .spe] s (s.takeBreakPacket n t v b) := by
  unfold State.takeBreakPacket
  dsimp only
  repeat' split
  all_goals first
    | exact (((((updateBreak_frame s _ _).seq (addPending_frame _ _ _ _) (c := [.bpu, .spe])).seq (askClip_frame _ _ _ _ _)
        (c := [.bpu, .csc, .spe])).seq (updateService_frame _ _ _)))
    | exact (((addPending_frame s _ _ _).seq (askClip_frame _ _ _ _ _) (c := [.csc, .spe])).seq (updateService_frame _ _ _)
        (c := [.csc, .spe])).widen
    | exact (updateBreak_frame s _ _).seq (addPending_frame _ _ _ _)
    | exact (addPending_frame s _ _ _).widen

theorem takeSlatePacket_frame (s : State) (n : Word32) (t : SiteTime) (v : Service) (id : Word32) :
    OnlyChanges [.csc, .spe] s (s.takeSlatePacket n t v id) := by
  unfold State.takeSlatePacket
  dsimp only
  split
  · exact ((addPending_frame s _ _ _).seq (askClip_frame _ _ _ _ _) (c := [.csc, .spe])).seq (updateService_frame _ _ _)
  · exact (addPending_frame s _ _ _).widen

theorem chooseContent_frame (s : State) (n : Word32) (t : SiteTime) (v : Service) (p : List Byte) (i : SlotInfo) :
    OnlyChanges [.bpu, .csc, .spe] s (s.chooseContent n t v p i) := by
  unfold State.chooseContent
  dsimp only
  repeat' split
  all_goals first
    | exact (takeSlatePacket_frame s _ _ _ _).widen
    | exact takeBreakPacket_frame s _ _ _ _
    | exact (addPending_frame s _ _ _).widen

theorem handOff_frame (s : State) (n : Word32) (t : ExactTime) (i : SiteTime) (o : SlotOutcome) :
    OnlyChanges [.bpu, .csc, .spe, .mgp] s (s.handOff n t i o) := by
  have h : OnlyChanges [.bpu, .csc, .spe, .mgp] s (State.closeWindows (s.setSpe { s.spe with fetchInstant := some t }) t) :=
    (setSpe_frame s _).seq (closeWindows_frame _ _)
  unfold State.handOff
  dsimp only
  repeat' split
  all_goals first
    | exact h.seq ((openWindow_frame _ _ _).seq (chooseContent_frame _ _ _ _ _ _) (c := [.bpu, .csc, .spe, .mgp]))
    | exact h.seq (addPending_frame _ _ _ _)

theorem track_frame (s : State) (v : Service) (x : Nat) (t : SiteTime) : OnlyChanges [.spe] s (s.track v x t) :=
  updateService_frame s v _

end Machine
end Sys2Proof
end

