-- ==== Sys2Proof/Laws/Bytes.lean ====
section
/-! SUPPORT. Byte strings and check codes: the fold of a check code, and numbers laid out as bytes and read back. -/

set_option Elab.async false

namespace Sys2Proof
namespace Machine

/-- The check codes are left folds over the bytes. -/
theorem foldBytes_eq_foldl (f : Nat → Byte → Nat) : ∀ (bytes : List Byte) (c : Nat), foldBytes f c bytes = bytes.foldl f c
  | [], _ => rfl
  | b :: bs, c => by
    rw [foldBytes, List.foldl_cons]
    cases f c b <;> exact foldBytes_eq_foldl f bs _

@[simp] theorem toBytes_length : ∀ n v : Nat, (toBytes n v).length = n
  | 0, _ => rfl
  | n + 1, v => by rw [toBytes, List.length_cons, toBytes_length n]

/-- One byte of a number laid out and read back. -/
theorem ofBytes_toBytes_one {v : Nat} (h : v < 256) : ofBytes (toBytes 1 v) = v := by
  simp [toBytes, ofBytes, Nat.mod_eq_of_lt h]

/-- Two bytes of a number laid out and read back. -/
theorem ofBytes_toBytes_two {v : Nat} (h : v < 65536) : ofBytes (toBytes 2 v) = v := by
  simp [toBytes, ofBytes]; omega

/-- Four bytes of a number laid out and read back. -/
theorem ofBytes_toBytes_four {v : Nat} (h : v < 4294967296) : ofBytes (toBytes 4 v) = v := by
  simp [toBytes, ofBytes]; omega

end Machine
end Sys2Proof
end

