-- ==== Sys2Proof/Laws/Effects.lean ====
section
/-! SUPPORT. The fields that notices, outcomes, mute reasons and the carrier leave alone, and once each what a notice, a recorded
outcome, a mute reason and a taken command do. -/

set_option Elab.async false

namespace Sys2Proof
namespace Machine

/-! ## Fields left alone -/

@[simp] theorem State.raiseTo_inReset (s : State) (r : Role) (k : NoticeKind) (j : Subject) (d : Detail) : (s.raiseTo r k j d).inReset = s.inReset := rfl
@[simp] theorem State.raiseTo_refok (s : State) (r : Role) (k : NoticeKind) (j : Subject) (d : Detail) : (s.raiseTo r k j d).refok = s.refok := rfl
@[simp] theorem State.raiseTo_tbu (s : State) (r : Role) (k : NoticeKind) (j : Subject) (d : Detail) : (s.raiseTo r k j d).tbu = s.tbu := rfl
@[simp] theorem State.raiseTo_fiu (s : State) (r : Role) (k : NoticeKind) (j : Subject) (d : Detail) : (s.raiseTo r k j d).fiu = s.fiu := rfl
@[simp] theorem State.raiseTo_esc (s : State) (r : Role) (k : NoticeKind) (j : Subject) (d : Detail) : (s.raiseTo r k j d).esc = s.esc := rfl
@[simp] theorem State.raiseTo_ddc (s : State) (r : Role) (k : NoticeKind) (j : Subject) (d : Detail) : (s.raiseTo r k j d).ddc = s.ddc := rfl
@[simp] theorem State.raiseTo_bpu (s : State) (r : Role) (k : NoticeKind) (j : Subject) (d : Detail) : (s.raiseTo r k j d).bpu = s.bpu := rfl
@[simp] theorem State.raiseTo_csc (s : State) (r : Role) (k : NoticeKind) (j : Subject) (d : Detail) : (s.raiseTo r k j d).csc = s.csc := rfl
@[simp] theorem State.raiseTo_spe (s : State) (r : Role) (k : NoticeKind) (j : Subject) (d : Detail) : (s.raiseTo r k j d).spe = s.spe := rfl
@[simp] theorem State.raiseTo_sst (s : State) (r : Role) (k : NoticeKind) (j : Subject) (d : Detail) : (s.raiseTo r k j d).sst = s.sst := rfl
@[simp] theorem State.raiseTo_pending (s : State) (r : Role) (k : NoticeKind) (j : Subject) (d : Detail) : (s.raiseTo r k j d).pending = s.pending := rfl
@[simp] theorem State.raiseTo_choices (s : State) (r : Role) (k : NoticeKind) (j : Subject) (d : Detail) : (s.raiseTo r k j d).choices = s.choices := rfl

@[simp] theorem State.raiseSite_inReset (s : State) (k : NoticeKind) (j : Subject) (d : Detail) : (s.raiseSite k j d).inReset = s.inReset := rfl
@[simp] theorem State.raiseSite_refok (s : State) (k : NoticeKind) (j : Subject) (d : Detail) : (s.raiseSite k j d).refok = s.refok := rfl
@[simp] theorem State.raiseSite_tbu (s : State) (k : NoticeKind) (j : Subject) (d : Detail) : (s.raiseSite k j d).tbu = s.tbu := rfl
@[simp] theorem State.raiseSite_fiu (s : State) (k : NoticeKind) (j : Subject) (d : Detail) : (s.raiseSite k j d).fiu = s.fiu := rfl
@[simp] theorem State.raiseSite_esc (s : State) (k : NoticeKind) (j : Subject) (d : Detail) : (s.raiseSite k j d).esc = s.esc := rfl
@[simp] theorem State.raiseSite_ddc (s : State) (k : NoticeKind) (j : Subject) (d : Detail) : (s.raiseSite k j d).ddc = s.ddc := rfl
@[simp] theorem State.raiseSite_bpu (s : State) (k : NoticeKind) (j : Subject) (d : Detail) : (s.raiseSite k j d).bpu = s.bpu := rfl
@[simp] theorem State.raiseSite_csc (s : State) (k : NoticeKind) (j : Subject) (d : Detail) : (s.raiseSite k j d).csc = s.csc := rfl
@[simp] theorem State.raiseSite_spe (s : State) (k : NoticeKind) (j : Subject) (d : Detail) : (s.raiseSite k j d).spe = s.spe := rfl
@[simp] theorem State.raiseSite_sst (s : State) (k : NoticeKind) (j : Subject) (d : Detail) : (s.raiseSite k j d).sst = s.sst := rfl
@[simp] theorem State.raiseSite_pending (s : State) (k : NoticeKind) (j : Subject) (d : Detail) : (s.raiseSite k j d).pending = s.pending := rfl
@[simp] theorem State.raiseSite_choices (s : State) (k : NoticeKind) (j : Subject) (d : Detail) : (s.raiseSite k j d).choices = s.choices := rfl

@[simp] theorem State.raiseBoth_inReset (s : State) (k : NoticeKind) (j : Subject) (d : Detail) : (s.raiseBoth k j d).inReset = s.inReset := rfl
@[simp] theorem State.raiseBoth_refok (s : State) (k : NoticeKind) (j : Subject) (d : Detail) : (s.raiseBoth k j d).refok = s.refok := rfl
@[simp] theorem State.raiseBoth_tbu (s : State) (k : NoticeKind) (j : Subject) (d : Detail) : (s.raiseBoth k j d).tbu = s.tbu := rfl
@[simp] theorem State.raiseBoth_fiu (s : State) (k : NoticeKind) (j : Subject) (d : Detail) : (s.raiseBoth k j d).fiu = s.fiu := rfl
@[simp] theorem State.raiseBoth_esc (s : State) (k : NoticeKind) (j : Subject) (d : Detail) : (s.raiseBoth k j d).esc = s.esc := rfl
@[simp] theorem State.raiseBoth_ddc (s : State) (k : NoticeKind) (j : Subject) (d : Detail) : (s.raiseBoth k j d).ddc = s.ddc := rfl
@[simp] theorem State.raiseBoth_bpu (s : State) (k : NoticeKind) (j : Subject) (d : Detail) : (s.raiseBoth k j d).bpu = s.bpu := rfl
@[simp] theorem State.raiseBoth_csc (s : State) (k : NoticeKind) (j : Subject) (d : Detail) : (s.raiseBoth k j d).csc = s.csc := rfl
@[simp] theorem State.raiseBoth_spe (s : State) (k : NoticeKind) (j : Subject) (d : Detail) : (s.raiseBoth k j d).spe = s.spe := rfl
@[simp] theorem State.raiseBoth_sst (s : State) (k : NoticeKind) (j : Subject) (d : Detail) : (s.raiseBoth k j d).sst = s.sst := rfl
@[simp] theorem State.raiseBoth_pending (s : State) (k : NoticeKind) (j : Subject) (d : Detail) : (s.raiseBoth k j d).pending = s.pending := rfl
@[simp] theorem State.raiseBoth_choices (s : State) (k : NoticeKind) (j : Subject) (d : Detail) : (s.raiseBoth k j d).choices = s.choices := rfl

@[simp] theorem State.updatePort_inReset (s : State) (r : Role) (f : RolePort → RolePort) : (s.updatePort r f).inReset = s.inReset := rfl
@[simp] theorem State.updatePort_refok (s : State) (r : Role) (f : RolePort → RolePort) : (s.updatePort r f).refok = s.refok := rfl
@[simp] theorem State.updatePort_tbu (s : State) (r : Role) (f : RolePort → RolePort) : (s.updatePort r f).tbu = s.tbu := rfl
@[simp] theorem State.updatePort_fiu (s : State) (r : Role) (f : RolePort → RolePort) : (s.updatePort r f).fiu = s.fiu := rfl
@[simp] theorem State.updatePort_esc (s : State) (r : Role) (f : RolePort → RolePort) : (s.updatePort r f).esc = s.esc := rfl
@[simp] theorem State.updatePort_ddc (s : State) (r : Role) (f : RolePort → RolePort) : (s.updatePort r f).ddc = s.ddc := rfl
@[simp] theorem State.updatePort_bpu (s : State) (r : Role) (f : RolePort → RolePort) : (s.updatePort r f).bpu = s.bpu := rfl
@[simp] theorem State.updatePort_csc (s : State) (r : Role) (f : RolePort → RolePort) : (s.updatePort r f).csc = s.csc := rfl
@[simp] theorem State.updatePort_spe (s : State) (r : Role) (f : RolePort → RolePort) : (s.updatePort r f).spe = s.spe := rfl
@[simp] theorem State.updatePort_sst (s : State) (r : Role) (f : RolePort → RolePort) : (s.updatePort r f).sst = s.sst := rfl
@[simp] theorem State.updatePort_pending (s : State) (r : Role) (f : RolePort → RolePort) : (s.updatePort r f).pending = s.pending := rfl
@[simp] theorem State.updatePort_choices (s : State) (r : Role) (f : RolePort → RolePort) : (s.updatePort r f).choices = s.choices := rfl

@[simp] theorem State.countPort_inReset (s : State) (r : Role) (f : MgpCounters → MgpCounters) : (s.countPort r f).inReset = s.inReset := rfl
@[simp] theorem State.countPort_refok (s : State) (r : Role) (f : MgpCounters → MgpCounters) : (s.countPort r f).refok = s.refok := rfl
@[simp] theorem State.countPort_tbu (s : State) (r : Role) (f : MgpCounters → MgpCounters) : (s.countPort r f).tbu = s.tbu := rfl
@[simp] theorem State.countPort_fiu (s : State) (r : Role) (f : MgpCounters → MgpCounters) : (s.countPort r f).fiu = s.fiu := rfl
@[simp] theorem State.countPort_esc (s : State) (r : Role) (f : MgpCounters → MgpCounters) : (s.countPort r f).esc = s.esc := rfl
@[simp] theorem State.countPort_ddc (s : State) (r : Role) (f : MgpCounters → MgpCounters) : (s.countPort r f).ddc = s.ddc := rfl
@[simp] theorem State.countPort_bpu (s : State) (r : Role) (f : MgpCounters → MgpCounters) : (s.countPort r f).bpu = s.bpu := rfl
@[simp] theorem State.countPort_csc (s : State) (r : Role) (f : MgpCounters → MgpCounters) : (s.countPort r f).csc = s.csc := rfl
@[simp] theorem State.countPort_spe (s : State) (r : Role) (f : MgpCounters → MgpCounters) : (s.countPort r f).spe = s.spe := rfl
@[simp] theorem State.countPort_sst (s : State) (r : Role) (f : MgpCounters → MgpCounters) : (s.countPort r f).sst = s.sst := rfl
@[simp] theorem State.countPort_pending (s : State) (r : Role) (f : MgpCounters → MgpCounters) : (s.countPort r f).pending = s.pending := rfl
@[simp] theorem State.countPort_choices (s : State) (r : Role) (f : MgpCounters → MgpCounters) : (s.countPort r f).choices = s.choices := rfl

@[simp] theorem State.record_inReset (s : State) (r : Role) (e : Nat) (c : ResultCode) (v : List Byte) : (s.record r e c v).inReset = s.inReset := rfl
@[simp] theorem State.record_refok (s : State) (r : Role) (e : Nat) (c : ResultCode) (v : List Byte) : (s.record r e c v).refok = s.refok := rfl
@[simp] theorem State.record_tbu (s : State) (r : Role) (e : Nat) (c : ResultCode) (v : List Byte) : (s.record r e c v).tbu = s.tbu := rfl
@[simp] theorem State.record_fiu (s : State) (r : Role) (e : Nat) (c : ResultCode) (v : List Byte) : (s.record r e c v).fiu = s.fiu := rfl
@[simp] theorem State.record_esc (s : State) (r : Role) (e : Nat) (c : ResultCode) (v : List Byte) : (s.record r e c v).esc = s.esc := rfl
@[simp] theorem State.record_ddc (s : State) (r : Role) (e : Nat) (c : ResultCode) (v : List Byte) : (s.record r e c v).ddc = s.ddc := rfl
@[simp] theorem State.record_bpu (s : State) (r : Role) (e : Nat) (c : ResultCode) (v : List Byte) : (s.record r e c v).bpu = s.bpu := rfl
@[simp] theorem State.record_csc (s : State) (r : Role) (e : Nat) (c : ResultCode) (v : List Byte) : (s.record r e c v).csc = s.csc := rfl
@[simp] theorem State.record_spe (s : State) (r : Role) (e : Nat) (c : ResultCode) (v : List Byte) : (s.record r e c v).spe = s.spe := rfl
@[simp] theorem State.record_sst (s : State) (r : Role) (e : Nat) (c : ResultCode) (v : List Byte) : (s.record r e c v).sst = s.sst := rfl
@[simp] theorem State.record_pending (s : State) (r : Role) (e : Nat) (c : ResultCode) (v : List Byte) : (s.record r e c v).pending = s.pending := rfl
@[simp] theorem State.record_choices (s : State) (r : Role) (e : Nat) (c : ResultCode) (v : List Byte) : (s.record r e c v).choices = s.choices := rfl

@[simp] theorem State.setMute_inReset (s : State) (r : MuteReason) (b : Bool): (s.setMute r b).inReset = s.inReset :=
  (setMute_frame s r b) .inReset (by decide)
@[simp] theorem State.setMute_refok (s : State) (r : MuteReason) (b : Bool): (s.setMute r b).refok = s.refok :=
  (setMute_frame s r b) .refok (by decide)
@[simp] theorem State.setMute_tbu (s : State) (r : MuteReason) (b : Bool): (s.setMute r b).tbu = s.tbu :=
  (setMute_frame s r b) .tbu (by decide)
@[simp] theorem State.setMute_fiu (s : State) (r : MuteReason) (b : Bool): (s.setMute r b).fiu = s.fiu :=
  (setMute_frame s r b) .fiu (by decide)
@[simp] theorem State.setMute_ddc (s : State) (r : MuteReason) (b : Bool): (s.setMute r b).ddc = s.ddc :=
  (setMute_frame s r b) .ddc (by decide)
@[simp] theorem State.setMute_bpu (s : State) (r : MuteReason) (b : Bool): (s.setMute r b).bpu = s.bpu :=
  (setMute_frame s r b) .bpu (by decide)
@[simp] theorem State.setMute_csc (s : State) (r : MuteReason) (b : Bool): (s.setMute r b).csc = s.csc :=
  (setMute_frame s r b) .csc (by decide)
@[simp] theorem State.setMute_spe (s : State) (r : MuteReason) (b : Bool): (s.setMute r b).spe = s.spe :=
  (setMute_frame s r b) .spe (by decide)
@[simp] theorem State.setMute_sst (s : State) (r : MuteReason) (b : Bool): (s.setMute r b).sst = s.sst :=
  (setMute_frame s r b) .sst (by decide)
@[simp] theorem State.setMute_pending (s : State) (r : MuteReason) (b : Bool): (s.setMute r b).pending = s.pending :=
  (setMute_frame s r b) .pending (by decide)
@[simp] theorem State.setMute_choices (s : State) (r : MuteReason) (b : Bool): (s.setMute r b).choices = s.choices :=
  (setMute_frame s r b) .choices (by decide)

@[simp] theorem State.carrierInstant_inReset (s : State) : s.carrierInstant.inReset = s.inReset :=
  (carrierInstant_frame s) .inReset (by decide)
@[simp] theorem State.carrierInstant_refok (s : State) : s.carrierInstant.refok = s.refok :=
  (carrierInstant_frame s) .refok (by decide)
@[simp] theorem State.carrierInstant_tbu (s : State) : s.carrierInstant.tbu = s.tbu :=
  (carrierInstant_frame s) .tbu (by decide)
@[simp] theorem State.carrierInstant_fiu (s : State) : s.carrierInstant.fiu = s.fiu :=
  (carrierInstant_frame s) .fiu (by decide)
@[simp] theorem State.carrierInstant_ddc (s : State) : s.carrierInstant.ddc = s.ddc :=
  (carrierInstant_frame s) .ddc (by decide)
@[simp] theorem State.carrierInstant_bpu (s : State) : s.carrierInstant.bpu = s.bpu :=
  (carrierInstant_frame s) .bpu (by decide)
@[simp] theorem State.carrierInstant_csc (s : State) : s.carrierInstant.csc = s.csc :=
  (carrierInstant_frame s) .csc (by decide)
@[simp] theorem State.carrierInstant_spe (s : State) : s.carrierInstant.spe = s.spe :=
  (carrierInstant_frame s) .spe (by decide)
@[simp] theorem State.carrierInstant_sst (s : State) : s.carrierInstant.sst = s.sst :=
  (carrierInstant_frame s) .sst (by decide)
@[simp] theorem State.carrierInstant_pending (s : State) : s.carrierInstant.pending = s.pending :=
  (carrierInstant_frame s) .pending (by decide)
@[simp] theorem State.carrierInstant_choices (s : State) : s.carrierInstant.choices = s.choices :=
  (carrierInstant_frame s) .choices (by decide)

@[simp] theorem State.drive_inReset (s : State) (t : SiteTime) (p : List Byte): (s.drive t p).inReset = s.inReset :=
  (drive_frame s t p) .inReset (by decide)
@[simp] theorem State.drive_refok (s : State) (t : SiteTime) (p : List Byte): (s.drive t p).refok = s.refok :=
  (drive_frame s t p) .refok (by decide)
@[simp] theorem State.drive_tbu (s : State) (t : SiteTime) (p : List Byte): (s.drive t p).tbu = s.tbu :=
  (drive_frame s t p) .tbu (by decide)
@[simp] theorem State.drive_fiu (s : State) (t : SiteTime) (p : List Byte): (s.drive t p).fiu = s.fiu :=
  (drive_frame s t p) .fiu (by decide)
@[simp] theorem State.drive_ddc (s : State) (t : SiteTime) (p : List Byte): (s.drive t p).ddc = s.ddc :=
  (drive_frame s t p) .ddc (by decide)
@[simp] theorem State.drive_bpu (s : State) (t : SiteTime) (p : List Byte): (s.drive t p).bpu = s.bpu :=
  (drive_frame s t p) .bpu (by decide)
@[simp] theorem State.drive_csc (s : State) (t : SiteTime) (p : List Byte): (s.drive t p).csc = s.csc :=
  (drive_frame s t p) .csc (by decide)
@[simp] theorem State.drive_spe (s : State) (t : SiteTime) (p : List Byte): (s.drive t p).spe = s.spe :=
  (drive_frame s t p) .spe (by decide)
@[simp] theorem State.drive_mgp (s : State) (t : SiteTime) (p : List Byte): (s.drive t p).mgp = s.mgp :=
  (drive_frame s t p) .mgp (by decide)
@[simp] theorem State.drive_sst (s : State) (t : SiteTime) (p : List Byte): (s.drive t p).sst = s.sst :=
  (drive_frame s t p) .sst (by decide)
@[simp] theorem State.drive_pending (s : State) (t : SiteTime) (p : List Byte): (s.drive t p).pending = s.pending :=
  (drive_frame s t p) .pending (by decide)
@[simp] theorem State.drive_choices (s : State) (t : SiteTime) (p : List Byte): (s.drive t p).choices = s.choices :=
  (drive_frame s t p) .choices (by decide)

@[simp] theorem State.afterTbu_inReset (s : State) (o : DisciplineState): (s.afterTbu o).inReset = s.inReset :=
  (afterTbu_frame s o) .inReset (by decide)
@[simp] theorem State.afterTbu_refok (s : State) (o : DisciplineState): (s.afterTbu o).refok = s.refok :=
  (afterTbu_frame s o) .refok (by decide)
@[simp] theorem State.afterTbu_tbu (s : State) (o : DisciplineState): (s.afterTbu o).tbu = s.tbu :=
  (afterTbu_frame s o) .tbu (by decide)
@[simp] theorem State.afterTbu_fiu (s : State) (o : DisciplineState): (s.afterTbu o).fiu = s.fiu :=
  (afterTbu_frame s o) .fiu (by decide)
@[simp] theorem State.afterTbu_ddc (s : State) (o : DisciplineState): (s.afterTbu o).ddc = s.ddc :=
  (afterTbu_frame s o) .ddc (by decide)
@[simp] theorem State.afterTbu_bpu (s : State) (o : DisciplineState): (s.afterTbu o).bpu = s.bpu :=
  (afterTbu_frame s o) .bpu (by decide)
@[simp] theorem State.afterTbu_csc (s : State) (o : DisciplineState): (s.afterTbu o).csc = s.csc :=
  (afterTbu_frame s o) .csc (by decide)
@[simp] theorem State.afterTbu_spe (s : State) (o : DisciplineState): (s.afterTbu o).spe = s.spe :=
  (afterTbu_frame s o) .spe (by decide)
@[simp] theorem State.afterTbu_sst (s : State) (o : DisciplineState): (s.afterTbu o).sst = s.sst :=
  (afterTbu_frame s o) .sst (by decide)
@[simp] theorem State.afterTbu_pending (s : State) (o : DisciplineState): (s.afterTbu o).pending = s.pending :=
  (afterTbu_frame s o) .pending (by decide)
@[simp] theorem State.afterTbu_choices (s : State) (o : DisciplineState): (s.afterTbu o).choices = s.choices :=
  (afterTbu_frame s o) .choices (by decide)

/-! ## Notices (R186) -/

theorem RolePort.push_notices (p : RolePort) (n : Notice) : (p.push n).notices = p.notices ++ [n].take (32 - p.notices.length) := by
  unfold RolePort.push
  split
  · next h =>
    have : 1 ≤ 32 - p.notices.length := by simp only [Config.noticePlaces] at h; omega
    simp only [List.take_of_length_le (show [n].length ≤ _ from this)]
  · next h =>
    have : 32 - p.notices.length = 0 := by simp only [Config.noticePlaces] at h; omega
    simp [this]

@[simp] theorem RolePort.push_command (p : RolePort) (n : Notice) : (p.push n).command = p.command := by
  unfold RolePort.push; split <;> rfl
@[simp] theorem RolePort.push_result (p : RolePort) (n : Notice) : (p.push n).result = p.result := by
  unfold RolePort.push; split <;> rfl
@[simp] theorem RolePort.push_hold (p : RolePort) (n : Notice) : (p.push n).hold = p.hold := by
  unfold RolePort.push; split <;> rfl
theorem RolePort.push_sameCounts (p : RolePort) (n : Notice) : p.SameCounts (p.push n) := by
  unfold RolePort.push RolePort.SameCounts; split <;> rfl

@[simp] theorem raiseTo_port (s : State) (r : Role) (k : NoticeKind) (j : Subject) (d : Detail) :
    (s.raiseTo r k j d).mgp.ports.get r = (s.mgp.ports.get r).push (noticeAt s k j d) := by
  simp [State.raiseTo, State.setPort, noticeAt]

@[simp] theorem raiseTo_port_other (s : State) (r : Role) (k : NoticeKind) (j : Subject) (d : Detail) :
    (s.raiseTo r k j d).mgp.ports.get (otherRole r) = s.mgp.ports.get (otherRole r) := by
  simp [State.raiseTo, State.setPort]

theorem raiseTo_port_ne (s : State) {r q : Role} (h : q ≠ r) (k : NoticeKind) (j : Subject) (d : Detail) :
    (s.raiseTo r k j d).mgp.ports.get q = s.mgp.ports.get q := by
  simp [State.raiseTo, State.setPort, PerRole.get_set_of_ne _ h]

/-- Each role's port after a notice to both. -/
@[simp] theorem raiseBoth_port (s : State) (r : Role) (k : NoticeKind) (j : Subject) (d : Detail) :
    (s.raiseBoth k j d).mgp.ports.get r = (s.mgp.ports.get r).push (noticeAt s k j d) := by
  cases r
  · exact (raiseTo_port_ne (s.raiseTo .insertion k j d) (by decide) k j d).trans (raiseTo_port s .insertion k j d)
  · exact (raiseTo_port (s.raiseTo .insertion k j d) .site k j d).trans
      (congrArg (fun p => RolePort.push p (noticeAt s k j d)) (raiseTo_port_ne s (by decide) k j d))

theorem OnlyNotifies.refl (s : State) : OnlyNotifies s s :=
  ⟨fun _ => ⟨rfl, rfl, rfl, rfl⟩, rfl, rfl, rfl⟩

theorem OnlyNotifies.trans {s t u : State} (h : OnlyNotifies s t) (k : OnlyNotifies t u) : OnlyNotifies s u := by
  obtain ⟨h, hb⟩ := h
  obtain ⟨k, kb⟩ := k
  refine ⟨fun r => ?_, kb.1.trans hb.1, kb.2.1.trans hb.2.1, kb.2.2.trans hb.2.2⟩
  obtain ⟨a, b, c, d⟩ := h r
  obtain ⟨a', b', c', d'⟩ := k r
  refine ⟨a'.trans a, b'.trans b, c'.trans c, ?_⟩
  unfold RolePort.SameCounts at *
  rw [d', d]

/-- A change that leaves the Management Port alone only notifies. -/
theorem OnlyNotifies.of_mgp {s t : State} (h : t.mgp = s.mgp) : OnlyNotifies s t := by
  unfold OnlyNotifies Mgp.SameBus RolePort.SameCounts
  rw [h]
  exact ⟨fun _ => ⟨rfl, rfl, rfl, rfl⟩, rfl, rfl, rfl⟩

theorem raiseTo_onlyNotifies (s : State) (r : Role) (k : NoticeKind) (j : Subject) (d : Detail) :
    OnlyNotifies s (s.raiseTo r k j d) := by
  refine ⟨fun q => ?_, rfl, rfl, rfl⟩
  by_cases h : q = r
  · subst h
    rw [raiseTo_port]
    exact ⟨by simp, by simp, by simp, RolePort.push_sameCounts _ _⟩
  · rw [raiseTo_port_ne s h]
    exact ⟨rfl, rfl, rfl, rfl⟩

theorem raiseSite_onlyNotifies (s : State) (k : NoticeKind) (j : Subject) (d : Detail) : OnlyNotifies s (s.raiseSite k j d) :=
  raiseTo_onlyNotifies s .site k j d

theorem raiseBoth_onlyNotifies (s : State) (k : NoticeKind) (j : Subject) (d : Detail) : OnlyNotifies s (s.raiseBoth k j d) :=
  (raiseTo_onlyNotifies s .insertion k j d).trans (raiseTo_onlyNotifies _ .site k j d)

theorem Raised.nil {s t : State} {r : Role} (h : (t.mgp.ports.get r).notices = (s.mgp.ports.get r).notices) : Raised s t r [] := by
  simp [Raised, h]

theorem Raised.append {s t u : State} {r : Role} {xs ys : List Notice} (h : Raised s t r xs) (k : Raised t u r ys) :
    Raised s u r (xs ++ ys) := by
  unfold Raised at *
  rw [k, h, List.take_append, List.append_assoc]
  congr 2
  simp only [List.length_append, List.length_take]
  congr 1
  omega

theorem raiseTo_raised (s : State) (r : Role) (k : NoticeKind) (j : Subject) (d : Detail) :
    Raised s (s.raiseTo r k j d) r [noticeAt s k j d] := by
  rw [Raised, raiseTo_port, RolePort.push_notices]

theorem raiseSite_raised (s : State) (k : NoticeKind) (j : Subject) (d : Detail) :
    Raised s (s.raiseSite k j d) .site [noticeAt s k j d] := raiseTo_raised s .site k j d

theorem raiseBoth_raised (s : State) (k : NoticeKind) (j : Subject) (d : Detail) :
    RaisedBoth s (s.raiseBoth k j d) [noticeAt s k j d] := by
  intro r
  rw [Raised, raiseBoth_port, RolePort.push_notices]

/-! ## Mute reasons (R57, R60) -/

@[simp] theorem MuteReasons.put_has (m : MuteReasons) (r : MuteReason) : m.put r (m.has r) = m := by cases r <;> rfl

/-- A packet is on the port only while no reason is present, and with a reason CARINH is asserted: what `setMute` needs of the
state before it. -/
theorem setMute_taken (s : State) (r : MuteReason) (b : Bool) (h : s.CarrierConsistent) : MuteTaken s (s.setMute r b) r b := by
  obtain ⟨-, -, hc, hp⟩ := h
  unfold State.setMute
  split
  · next e =>
    subst e
    refine ⟨by simp, fun ha => ?_, fun ha => ?_⟩
    · have hx := hc.2 ha
      have hn : s.esc.port = none := by
        cases hq : s.esc.port with
        | none => rfl
        | some d => rw [hq] at hp; rw [hp rfl] at hx; cases hx
      exact ⟨hx, hn, by simp [Esc.driving, hn]⟩
    · simp [ha]
  · dsimp only
    split
    · next ha =>
      have hd : s.esc.carinh ≠ .released → s.esc.port = none ∧ s.esc.driving = false := fun hx => by
        cases hq : s.esc.port with
        | none => exact ⟨rfl, by simp [Esc.driving, hq]⟩
        | some d => rw [hq] at hp; exact absurd (hp rfl) hx
      split
      · next e => exact ⟨rfl, fun _ => ⟨rfl, rfl, rfl⟩, fun hn => absurd (ha.symm.trans hn) (by decide)⟩
      · next e =>
        refine ⟨rfl, fun _ => ⟨rfl, (hd (by simp [e])).1, ?_⟩, fun hn => absurd (ha.symm.trans hn) (by decide)⟩
        simp [(hd (by simp [e])).2]
      · next e =>
        refine ⟨rfl, fun _ => ⟨e, (hd (by simp [e])).1, ?_⟩, fun hn => absurd (ha.symm.trans hn) (by decide)⟩
        simp [(hd (by simp [e])).2]
    · next ha =>
      split
      · next e =>
        refine ⟨rfl, fun hn => absurd hn ha, fun _ => ⟨?_, rfl, rfl⟩⟩
        rw [hc.1 e]; rfl
      · next e =>
        refine ⟨rfl, fun hn => absurd hn ha, fun _ => ⟨?_, rfl, rfl⟩⟩
        have : s.esc.mute.any = false := by
          cases hm : s.esc.mute.any with
          | false => rfl
          | true => rw [hc.2 hm] at e; cases e
        simp [this]
      · next e =>
        refine ⟨rfl, fun hn => absurd hn ha, fun _ => ⟨?_, rfl, rfl⟩⟩
        have : s.esc.mute.any = false := by
          cases hm : s.esc.mute.any with
          | false => rfl
          | true => rw [hc.2 hm] at e; cases e
        simp [this]

/-- A mute reason raises CARRIER-STATE exactly where it asserts CARINH from released (R60). -/
theorem setMute_raised (s : State) (r : MuteReason) (b : Bool) (h : s.CarrierConsistent) :
    Raised s (s.setMute r b) .site (assertNotice s (s.setMute r b)) := by
  obtain ⟨-, -, hc, -⟩ := h
  unfold State.setMute
  split
  · have : assertNotice s s = [] := by
      unfold assertNotice
      split
      · next e => have := hc.2 e.2; rw [e.1] at this; cases this
      · rfl
    rw [this]; exact Raised.nil rfl
  · dsimp only
    split
    · next ha =>
      split
      · next e =>
        have : assertNotice s ((s.setEsc ({ s.esc with mute := s.esc.mute.put r b } : Esc).cutOff).raiseSite .carrierState .none
            (.mute (s.esc.mute.put r b))) = [noticeAt s .carrierState .none (.mute (s.esc.mute.put r b))] := by
          simp [assertNotice, e, Esc.cutOff, ha, noticeAt]
        rw [this]
        exact raiseSite_raised (s.setEsc _) _ _ _
      · next e => rw [show assertNotice s _ = [] by simp [assertNotice, e]]; exact Raised.nil rfl
      · next e => rw [show assertNotice s _ = [] by simp [assertNotice, e]]; exact Raised.nil rfl
    · next ha =>
      split
      · next e => rw [show assertNotice s _ = [] by simp [assertNotice, e]]; exact Raised.nil rfl
      · next e => rw [show assertNotice s _ = [] by simp [assertNotice, e]]; exact Raised.nil rfl
      · next e => rw [show assertNotice s _ = [] by simp [assertNotice, ha]]; exact Raised.nil rfl

theorem setMute_onlyNotifies (s : State) (r : MuteReason) (b : Bool) : OnlyNotifies s (s.setMute r b) := by
  unfold State.setMute
  split
  · exact .refl s
  · dsimp only
    split
    · split
      · exact (OnlyNotifies.of_mgp rfl).trans (raiseSite_onlyNotifies (s.setEsc _) _ _ _)
      · exact .of_mgp rfl
      · exact .of_mgp rfl
    · split <;> exact .of_mgp rfl

theorem afterTbu_onlyNotifies (s : State) (o : DisciplineState) : OnlyNotifies s (s.afterTbu o) := by
  unfold State.afterTbu
  split
  · exact .refl s
  · exact (raiseSite_onlyNotifies s _ _ _).trans (setMute_onlyNotifies _ _ _)

theorem carrierInstant_onlyNotifies (s : State) : OnlyNotifies s s.carrierInstant := by
  unfold State.carrierInstant
  split
  · exact (OnlyNotifies.of_mgp rfl).trans (raiseSite_onlyNotifies (s.setEsc _) _ _ _)
  · exact .refl s
  · exact .refl s

@[simp] theorem drive_mgp (s : State) (t : SiteTime) (p : List Byte) : (s.drive t p).mgp = s.mgp :=
  drive_frame s t p .mgp (by decide)

/-! ## Commands and outcomes (R177, R182, R183) -/

@[simp] theorem updatePort_port (s : State) (r : Role) (f : RolePort → RolePort) :
    (s.updatePort r f).mgp.ports.get r = f (s.mgp.ports.get r) := by simp [State.updatePort, State.setPort]

@[simp] theorem updatePort_port_other (s : State) (r : Role) (f : RolePort → RolePort) :
    (s.updatePort r f).mgp.ports.get (otherRole r) = s.mgp.ports.get (otherRole r) := by simp [State.updatePort, State.setPort]

theorem record_recorded (s : State) (r : Role) (e : Nat) (c : ResultCode) (v : List Byte) : Recorded s (s.record r e c v) r e c v := by
  simp [Recorded, State.record]

/-- A command that is held by no save and given by a role that may give it: the command object holds it, its owner carries it out,
and the outcome is recorded. -/
theorem takeCommand_taken (s : State) (r : Role) (k : CommandKind) (args : List Byte) (owner : State → Taken)
    (hold : s.held r = false) (right : k.siteOnly = false ∨ r = .site) :
    s.takeCommand r k args owner =
      let t := owner (s.updatePort r (fun p => { p with command := some (BitVec.ofNat 8 k.code :: args) }))
      t.state.record r k.code t.code t.value := by
  unfold State.takeCommand
  rw [if_neg (by simp [hold]), if_neg]
  rintro ⟨h, rfl⟩
  rcases right with h' | h'
  · rw [h] at h'; cases h'
  · cases h'

/-- A write that is held by no save and given by a role that may give it: its owner takes it, and the outcome is recorded. -/
theorem takeWrite_taken (s : State) (r : Role) (o : Nat) (siteOnly : Bool) (owner : State → Taken)
    (hold : s.held r = false) (right : siteOnly = false ∨ r = .site) :
    s.takeWrite r o siteOnly owner = (owner s).state.record r o (owner s).code (owner s).value := by
  unfold State.takeWrite
  rw [if_neg (by simp [hold]), if_neg]
  rintro ⟨h, rfl⟩
  rcases right with h' | h'
  · rw [h] at h'; cases h'
  · cases h'

end Machine
end Sys2Proof
end

