-- ==== Sys2Proof/Laws/EmissionFrames.lean ====
section
/-! SUPPORT. What completion, emission, the schedule and the directives leave alone. -/

set_option Elab.async false

namespace Sys2Proof
namespace Machine

/-! ## Completion (R160) -/

theorem checkReturning_frame (s : State) (p : List Byte) : OnlyChanges [.spe] s (s.checkReturning p).1 := by
  unfold State.checkReturning
  dsimp only
  split
  · split
    · split
      · exact setSpe_frame s _
      · split
        · exact (setSpe_frame s _).seq (countSpe_frame _ _)
        · exact (setSpe_frame s _).seq (countSpe_frame _ _)
    · exact .refl _ s
  · exact .refl _ s

theorem noteCount_frame (s : State) (n c : Nat) (b : Bool) : OnlyChanges [.spe] s (s.noteCount n c b) := setSpe_frame s _

theorem completeProgramme_frame (s : State) (t : SiteTime) (p : List Byte) (i : SlotInfo) :
    OnlyChanges [.spe] s (s.completeProgramme t p i).1 := by
  have h : ∀ n c, OnlyChanges [.spe] s ((s.checkReturning p).1.noteCount n c false) := fun n c =>
    (checkReturning_frame s p).seq (noteCount_frame _ n c false)
  unfold State.completeProgramme
  dsimp only
  split
  · exact .ite ((h _ _).seq (track_frame _ _ _ _)) (h _ _)
  · exact h _ _

theorem fixOffset_frame (s : State) (c : ClipContent) (t : SiteTime) : OnlyChanges [.spe] s (s.fixOffset c t) := by
  unfold State.fixOffset
  dsimp only
  split
  · split
    · exact updateService_frame s _ _
    · exact (updateService_frame s _ _).seq (countSpe_frame _ _)
  · exact .refl _ s

theorem clearResume_frame (s : State) (c : ClipContent) : OnlyChanges [.spe] s (s.clearResume c) := by
  unfold State.clearResume
  exact .ite (updateService_frame s _ _) (.refl _ s)

theorem countScrambled_frame (s : State) (p : List Byte) : OnlyChanges [.spe] s (s.countScrambled p) :=
  .ite (countSpe_frame s _) (.refl _ s)

theorem noteResume_frame (s : State) (c : ClipContent) (b : Bool) (p : List Byte) :
    OnlyChanges [.spe] s (s.noteResume c b p) := .ite (updateService_frame s _ _) (.refl _ s)

theorem completeClip_frame (s : State) (t : SiteTime) (c : ClipContent) (p : List Byte) (i : SlotInfo) :
    OnlyChanges [.spe] s (s.completeClip t c p i).1 := by
  have h : ∀ b n k, OnlyChanges [.spe] s (((s.countScrambled p).noteResume c b p).noteCount n k true) := fun b n k =>
    ((countScrambled_frame s p).seq (noteResume_frame _ c b p) (c := [.spe])).seq (noteCount_frame _ n k true)
  unfold State.completeClip
  dsimp only
  exact .ite ((h _ _ _).seq (track_frame _ _ _ _)) (h _ _ _)

theorem completeContent_frame (s : State) (t : SiteTime) (c : Content) : OnlyChanges [.spe] s (s.completeContent t c).1 := by
  unfold State.completeContent
  split
  · exact completeProgramme_frame s _ _ _
  · exact .refl _ s
  · next c =>
    have h : OnlyChanges [.spe] s ((s.fixOffset c t).clearResume c) := (fixOffset_frame s c t).seq (clearResume_frame _ c)
    dsimp only
    split
    · exact h.seq (completeClip_frame _ _ _ _ _)
    · exact h
    · exact h.seq (countSpe_frame _ _)

theorem completeSlot_frame (s : State) (n : Word32) (t : SiteTime) : OnlyChanges [.spe] s (s.completeSlot n t).1 := by
  unfold State.completeSlot
  split
  · split
    · exact (setSpe_frame s _).seq (completeContent_frame _ _ _)
    · exact .refl _ s
  · exact .refl _ s

/-! ## Slate (R168, R170) -/

theorem dropSlate_frame (s : State) (v : Service) (id : Word32) : OnlyChanges [.csc, .spe, .mgp] s (s.dropSlate v id) :=
  ((dropPin_frame s id).seq (updateService_frame _ _ _) (c := [.csc, .spe])).seq (raiseSite_frame _ _ _ _)

theorem installSlate_frame (s : State) (v : Service) (id : Word32) : OnlyChanges [.csc, .spe, .mgp] s (s.installSlate v id) := by
  unfold State.installSlate
  dsimp only
  split
  · exact (((addPin_frame s id).seq (dropPin_frame _ _) (c := [.csc])).seq (updateService_frame _ _ _) (c := [.csc, .spe])).seq
      (raiseSite_frame _ _ _ _)
  · exact ((addPin_frame s id).seq (updateService_frame _ _ _) (c := [.csc, .spe])).seq (raiseSite_frame _ _ _ _)

theorem ownForceSlate_frame (v : Byte) (id : Word32) (s : State) :
    OnlyChanges [.mgp, .csc, .spe] s (ownForceSlate v id s).state := by
  unfold ownForceSlate
  split
  · exact .refl _ s
  · split
    · exact (installSlate_frame s _ _).widen
    · exact .refl _ s

theorem afterRelease_frame (s : State) (v : Service) : OnlyChanges [.spe] s (s.afterRelease v) := by
  unfold State.afterRelease
  split
  · exact markReturning_frame s v
  · exact updateService_frame s v _
  · exact .refl _ s

theorem ownReleaseSlate_frame (v : Byte) (s : State) : OnlyChanges [.mgp, .csc, .spe] s (ownReleaseSlate v s).state := by
  unfold ownReleaseSlate
  split
  · exact .refl _ s
  · split
    · exact .refl _ s
    · exact (dropSlate_frame s _ _).seq (afterRelease_frame _ _)

/-! ## The schedule (R44 to R55) -/

theorem refreshFetch_frame (s : State) : OnlyChanges [.esc] s s.refreshFetch := by
  unfold State.refreshFetch
  split
  · exact setEsc_frame s _
  · exact .refl _ s

theorem examine_frame (s : State) (n : Word32) : OnlyChanges [.esc] s (s.examine n) := by
  unfold State.examine
  split
  · exact (setEsc_frame s _).seq (refreshFetch_frame _)
  · exact .refl _ s

theorem refuseMark_frame (s : State) : OnlyChanges [.esc] s s.refuseMark := countEsc_frame s _

theorem checkStep_frame (s : State) (n a : Anchor) : OnlyChanges [.esc, .mgp] s (s.checkStep n a) :=
  .ite ((countEsc_frame s _).seq (raiseSite_frame _ _ _ _)) (.refl _ s)

theorem appendAnchor_frame (s : State) (m : Mark) (n a : Anchor) : OnlyChanges [.esc, .mgp] s (s.appendAnchor m n a) :=
  ((checkStep_frame s n a).seq (setEsc_frame _ _) (c := [.esc, .mgp])).seq (refreshFetch_frame _)

theorem startRunning_frame (s : State) (a : Anchor) : OnlyChanges [.esc, .mgp] s (s.startRunning a) :=
  ((setEsc_frame s _).seq (setMute_frame _ _ _) (c := [.esc, .mgp])).seq (examine_frame _ _)

theorem takeMark_frame (s : State) (m : Mark) (n : Word32) : OnlyChanges [.esc, .mgp] s (s.takeMark m n) := by
  unfold State.takeMark
  dsimp only
  refine .ite ?_ (refuseMark_frame s).widen
  split
  · exact startRunning_frame s _
  · exact .ite (.ite (appendAnchor_frame s _ _ _) (countEsc_frame s _).widen) (refuseMark_frame s).widen

theorem request_frame (s : State) (n : NextSlot) : OnlyChanges [.esc, .csc] s (s.request n) :=
  (setEsc_frame s _).seq (setCsc_frame _ _)

theorem markDone_frame (s : State) (n : Word32) : OnlyChanges [.esc] s (s.markDone n) := setEsc_frame s _

theorem deliverSlot_frame (s : State) (q : Requested) (m : Bool) (b : List Byte) :
    OnlyChanges [.esc, .bpu, .csc, .spe, .mgp] s (s.deliverSlot q m b) :=
  ((countEsc_frame s _).seq (handOff_frame _ _ _ _ _) (c := [.esc, .bpu, .csc, .spe, .mgp])).seq (markDone_frame _ _)

theorem slotPacket_frame (s : State) (q : Requested) : OnlyChanges [.esc, .spe] s (s.slotPacket q).1 := by
  unfold State.slotPacket
  dsimp only
  split
  · exact (setEsc_frame s _).seq (completeSlot_frame _ _ _)
  · exact ((setEsc_frame s _).seq (countEsc_frame _ _) (c := [.esc])).widen

theorem emitSlot_frame (s : State) (q : Requested) : OnlyChanges [.esc, .spe, .mgp] s (s.emitSlot q) :=
  (((slotPacket_frame s q).seq (carrierInstant_frame _) (c := [.esc, .spe, .mgp])).seq (drive_frame _ _ _)
    (c := [.esc, .spe, .mgp])).seq (setEsc_frame _ _)

theorem emitFill_frame (s : State) (f : FillRun) : OnlyChanges [.esc, .mgp] s (s.emitFill f) :=
  ((setEsc_frame s _).seq (carrierInstant_frame _) (c := [.esc, .mgp])).seq (drive_frame _ _ _)

/-! ## Directives (R69 to R78) -/

theorem malformed_frame (s : State) : OnlyChanges [.ddc] s s.malformed := countDdc_frame s _

/-- A directive changes what its handling changes, and the Directive Decoder. -/
theorem onDirective_frame {a : List Part} (s : State) (k : Byte → Bool) (f : State → InHand → Directive → State)
    (h : ∀ s i d, OnlyChanges (.ddc :: a) s (f s i d)) : OnlyChanges (.ddc :: a) s (s.onDirective k f) := by
  unfold State.onDirective
  have hd : ∀ p ∈ [Part.ddc], p ∈ Part.ddc :: a := by simp
  split
  · split
    · split
      · exact (h s _ _).seq (setDdc_frame _ _) (fun _ h => h) hd
      · exact .refl _ s
    · exact .refl _ s
  · exact .refl _ s

/-- A directive behind the area filter changes what its delivery changes, and the Directive Decoder. -/
theorem filterArea_frame {a : List Part} (s : State) (x : Byte) (f : State → State)
    (h : OnlyChanges (.ddc :: a) s (f s)) : OnlyChanges (.ddc :: a) s (s.filterArea x f) := by
  unfold State.filterArea
  exact .ite h ((countDdc_frame s _).widen (by simp))

theorem reachMark_frame (s : State) (i : InHand) (d : Directive) : OnlyChanges [.ddc, .esc, .mgp] s (s.reachMark i d) := by
  unfold State.reachMark
  split
  · exact (malformed_frame s).widen
  · exact .ite (takeMark_frame s _ _).widen (countDdc_frame s _).widen

theorem deliverNotice_frame (s : State) (f : NoticeFields) : OnlyChanges [.ddc, .bpu, .csc, .mgp] s (s.deliverNotice f) := by
  unfold State.deliverNotice
  exact .ite ((countDdc_frame s _).seq (raiseSite_frame _ _ _ _)) (takeNotice_frame s _).widen

theorem reachNotice_frame (s : State) (i : InHand) (d : Directive) :
    OnlyChanges [.ddc, .bpu, .csc, .mgp] s (s.reachNotice i d) := by
  unfold State.reachNotice
  split
  · exact (malformed_frame s).widen
  · exact filterArea_frame s _ _ (deliverNotice_frame s _)

theorem reachCancel_frame (s : State) (i : InHand) (d : Directive) :
    OnlyChanges [.ddc, .bpu, .csc, .mgp] s (s.reachCancel i d) := by
  unfold State.reachCancel
  exact .ite (filterArea_frame s _ _ (takeCancel_frame s _).widen) (malformed_frame s).widen

theorem reachReturn_frame (s : State) (i : InHand) (d : Directive) : OnlyChanges [.ddc, .bpu] s (s.reachReturn i d) := by
  unfold State.reachReturn
  refine .ite ?_ (malformed_frame s).widen
  split
  · exact filterArea_frame s _ _ (takeReturn_frame s _).widen
  · exact (malformed_frame s).widen

theorem reachMute_frame (s : State) (i : InHand) (d : Directive) : OnlyChanges [.ddc, .esc, .mgp] s (s.reachMute i d) := by
  unfold State.reachMute
  exact .ite (.ite (setMute_frame s _ _).widen (countDdc_frame s _).widen) (malformed_frame s).widen

theorem reachUnknown_frame (s : State) (i : InHand) (d : Directive) : OnlyChanges [.ddc] s (s.reachUnknown i d) :=
  countDdc_frame s _

end Machine
end Sys2Proof
end

