-- ==== Sys2Proof/Laws/Memory.lean ====
section
/-! SUPPORT. The packet memory: what a write leaves, that every operation keeps the canonical form, and the bytes of a slot. -/

set_option Elab.async false

namespace Sys2Proof
namespace Machine

/-! ## The canonical form as propositions -/

theorem Memory.rising_iff : ∀ m : Memory, Memory.rising m = true ↔ m.Pairwise (fun a b => a.1 < b.1)
  | [] => by simp [Memory.rising]
  | [a] => by simp [Memory.rising]
  | a :: b :: rest => by
    rw [Memory.rising, Bool.and_eq_true, Memory.rising_iff (b :: rest), decide_eq_true_eq, List.pairwise_cons (a := a)]
    constructor
    · rintro ⟨h, hp⟩
      refine ⟨fun c hc => ?_, hp⟩
      rcases List.mem_cons.1 hc with rfl | hc
      · exact h
      · exact Nat.lt_trans h ((List.pairwise_cons.1 hp).1 c hc)
    · rintro ⟨h, hp⟩
      exact ⟨h b (List.mem_cons_self ..), hp⟩

theorem Memory.wf_iff (m : Memory) :
    Memory.wf m = true ↔ m.Pairwise (fun a b => a.1 < b.1) ∧ ∀ c ∈ m, c.2 ≠ Config.dramByte := by
  simp [Memory.wf, Memory.rising_iff, List.all_eq_true, bne_iff_ne]

/-! ## Cells of a run -/

theorem Memory.mem_cells : ∀ (bytes : List Byte) (a : Nat) (c : Host.Cell), c ∈ Memory.cells a bytes →
    a ≤ c.1 ∧ c.1 < a + bytes.length ∧ c.2 ≠ Config.dramByte
  | [], _, _, h => by simp [Memory.cells] at h
  | b :: bs, a, c, h => by
    unfold Memory.cells at h
    split at h
    · obtain ⟨h1, h2, h3⟩ := Memory.mem_cells bs (a + 1) c h
      simp only [List.length_cons]
      exact ⟨by omega, by omega, h3⟩
    · next hb =>
      rcases List.mem_cons.1 h with rfl | h
      · simp only [List.length_cons]; exact ⟨Nat.le_refl _, by omega, hb⟩
      · obtain ⟨h1, h2, h3⟩ := Memory.mem_cells bs (a + 1) c h
        simp only [List.length_cons]
        exact ⟨by omega, by omega, h3⟩

theorem Memory.cells_rising : ∀ (bytes : List Byte) (a : Nat), (Memory.cells a bytes).Pairwise (fun x y => x.1 < y.1)
  | [], _ => by simp [Memory.cells]
  | b :: bs, a => by
    unfold Memory.cells
    split
    · exact Memory.cells_rising bs (a + 1)
    · refine List.pairwise_cons.2 ⟨fun c hc => ?_, Memory.cells_rising bs (a + 1)⟩
      have := Memory.mem_cells bs (a + 1) c hc
      exact this.1

/-! ## A write keeps the form -/

theorem Memory.write_wf (m : Memory) (a : Nat) (bytes : List Byte) (h : Memory.wf m = true) :
    Memory.wf (m.write a bytes) = true := by
  rw [Memory.wf_iff] at *
  obtain ⟨hp, hn⟩ := h
  unfold Memory.write
  refine ⟨?_, ?_⟩
  · rw [List.pairwise_append, List.pairwise_append]
    refine ⟨⟨hp.filter _, Memory.cells_rising _ _, fun x hx y hy => ?_⟩, hp.filter _, fun x hx y hy => ?_⟩
    · have h1 := (List.mem_filter.1 hx).2
      have h2 := (Memory.mem_cells _ _ _ hy).1
      simp only [decide_eq_true_eq] at h1
      omega
    · have h1 := (List.mem_filter.1 hy).2
      simp only [decide_eq_true_eq] at h1
      rcases List.mem_append.1 hx with hx | hx
      · have h2 := (List.mem_filter.1 hx).2
        simp only [decide_eq_true_eq] at h2
        omega
      · have := (Memory.mem_cells _ _ _ hx).2.1
        omega
  · intro c hc
    rcases List.mem_append.1 hc with hc | hc
    · rcases List.mem_append.1 hc with hc | hc
      · exact hn c (List.mem_filter.1 hc).1
      · exact (Memory.mem_cells _ _ _ hc).2.2
    · exact hn c (List.mem_filter.1 hc).1

theorem Memory.writeSlot_wf {m : Memory} {slot : Nat} {bytes : List Byte} (h : Memory.wf m = true) :
    Memory.wf (Memory.writeSlot m slot bytes) = true := Memory.write_wf m _ _ h

/-! ## What a write leaves to read -/

theorem Memory.find_none {m : Memory} {x : Nat} (h : ∀ c ∈ m, c.1 ≠ x) : m.find? (fun c => c.1 == x) = none := by
  rw [List.find?_eq_none]
  intro c hc
  simp [h c hc]

theorem Memory.find_filter (m : Memory) (x : Nat) (p : Host.Cell → Bool) (h : ∀ c : Host.Cell, c.1 = x → p c = true) :
    (m.filter p).find? (fun c => c.1 == x) = m.find? (fun c => c.1 == x) := by
  induction m with
  | nil => rfl
  | cons c rest ih =>
    by_cases hx : c.1 = x
    · simp [h c hx, hx]
    · by_cases hp : p c = true
      · simp [hp, hx, ih]
      · simp [hp, hx, ih]

/-- The value that a search finds. -/
def foundByte (c : Option Host.Cell) : Byte := (c.map (·.2)).getD Config.dramByte

theorem Memory.read_eq (m : Memory) (x : Nat) : m.read x = foundByte (m.find? (fun c => c.1 == x)) := by
  unfold Memory.read foundByte
  split <;> simp [*]

theorem Memory.cells_find : ∀ (bytes : List Byte) (a j : Nat), j < bytes.length →
    foundByte ((Memory.cells a bytes).find? (fun c => c.1 == a + j)) = bytes.getD j Config.dramByte
  | [], _, _, h => by simp at h
  | b :: bs, a, 0, _ => by
    by_cases hb : b = Config.dramByte
    · rw [Memory.cells, if_pos hb]
      rw [Memory.find_none (fun c hc => by have := (Memory.mem_cells _ _ _ hc).1; omega)]
      simp [hb, foundByte]
    · rw [Memory.cells, if_neg hb]
      simp [foundByte]
  | b :: bs, a, j + 1, h => by
    have ih := Memory.cells_find bs (a + 1) j (by simpa using h)
    have e : a + (j + 1) = a + 1 + j := by omega
    rw [e]
    by_cases hb : b = Config.dramByte
    · rw [Memory.cells, if_pos hb]
      simpa using ih
    · rw [Memory.cells, if_neg hb, List.find?_cons_of_neg (by simp; omega)]
      simpa using ih

/-- Outside a written run every byte reads as before. -/
theorem Memory.read_write_outside (m : Memory) (a x : Nat) (bytes : List Byte) (h : x < a ∨ a + bytes.length ≤ x) :
    Memory.read (m.write a bytes) x = Memory.read m x := by
  rw [Memory.read_eq, Memory.read_eq]
  unfold Memory.write
  have hc : (Memory.cells a bytes).find? (fun c => c.1 == x) = none :=
    Memory.find_none (fun c hc => by have := Memory.mem_cells _ _ _ hc; omega)
  rw [List.find?_append, List.find?_append, hc]
  rcases h with h | h
  · rw [Memory.find_filter m x (fun c => decide (c.1 < a)) (fun c hc => by simp [hc, h])]
    rw [Memory.find_none (m := m.filter (fun c => decide (a + bytes.length ≤ c.1)))
      (fun c hc => by have := (List.mem_filter.1 hc).2; simp only [decide_eq_true_eq] at this; omega)]
    simp
  · rw [Memory.find_filter m x (fun c => decide (a + bytes.length ≤ c.1)) (fun c hc => by simp [hc, h])]
    rw [Memory.find_none (m := m.filter (fun c => decide (c.1 < a)))
      (fun c hc => by have := (List.mem_filter.1 hc).2; simp only [decide_eq_true_eq] at this; omega)]
    simp

/-- Inside a written run each byte reads as written. -/
theorem Memory.read_write_inside (m : Memory) (a j : Nat) (bytes : List Byte) (h : j < bytes.length) :
    Memory.read (m.write a bytes) (a + j) = bytes.getD j Config.dramByte := by
  rw [Memory.read_eq]
  unfold Memory.write
  rw [List.find?_append, List.find?_append]
  rw [Memory.find_none (m := m.filter (fun c => decide (c.1 < a)))
    (fun c hc => by have := (List.mem_filter.1 hc).2; simp only [decide_eq_true_eq] at this; omega)]
  rw [Memory.find_none (m := m.filter (fun c => decide (a + bytes.length ≤ c.1)))
    (fun c hc => by have := (List.mem_filter.1 hc).2; simp only [decide_eq_true_eq] at this; omega)]
  simpa using Memory.cells_find bytes a j h

/-! ## Slots -/

theorem padTo_length (n : Nat) (l : List Byte) : (padTo n l).length = n := by
  simp only [padTo, List.length_append, List.length_take, List.length_replicate]
  omega

theorem slotImage_length (p : List Byte) (i : SlotInfo) : (slotImage p i).length = 192 := by
  simp [slotImage, padTo_length, Config.packetBytes, toBytes]

theorem padTo_self {n : Nat} {l : List Byte} (h : l.length = n) : padTo n l = l := by
  subst h
  simp [padTo]

/-- A memory slot is addressed by the 19 bits of its number, and a slot of R112 by its number itself. -/
theorem Memory.address_of_lt {slot : Nat} (h : slot < 524288) : Memory.address slot = 192 * slot := by
  unfold Memory.address
  rw [Nat.mod_eq_of_lt (show slot < Config.memorySlots from h), Nat.mul_comm]
  rfl

/-- A slot's write: its 192 bytes read as the image, every other byte as before. -/
theorem Memory.writeSlot_image (m : Memory) {slot : Nat} (h : slot < 524288) (p : List Byte) (i : SlotInfo) :
    (∀ j, j < 192 → Memory.read (Memory.writeSlot m slot (slotImage p i)) (192 * slot + j) = (slotImage p i).getD j 0#8)
      ∧ (∀ a, a < 192 * slot ∨ 192 * slot + 192 ≤ a →
          Memory.read (Memory.writeSlot m slot (slotImage p i)) a = Memory.read m a) := by
  unfold Memory.writeSlot
  rw [show padTo Config.slotBytes (slotImage p i) = slotImage p i from padTo_self (slotImage_length p i),
    Memory.address_of_lt h]
  refine ⟨fun j hj => Memory.read_write_inside m _ j _ (by rw [slotImage_length]; exact hj), fun a ha => ?_⟩
  exact Memory.read_write_outside m _ a _ (by rw [slotImage_length]; exact ha)

/-- The bytes that a read of a slot gives. -/
theorem Memory.readSlot_of_lt (m : Memory) {slot : Nat} (h : slot < 524288) :
    Memory.readSlot m slot = (List.range 192).map (fun j => Memory.read m (192 * slot + j)) := by
  unfold Memory.readSlot
  rw [Memory.address_of_lt h]
  rfl

/-- The memory of the reset state is canonical. -/
theorem reset_memory_wf : Memory.wf State.reset.csc.memory = true := rfl

end Machine
end Sys2Proof
end

