-- ==== Sys2Proof/Laws/PerInstr.lean ====
section
/-! SUPPORT. One lemma for each command about its operands: when they have a shape the part can send, and that no word of the
opcode table spells it. -/

set_option Elab.async false

namespace Sys2Proof
namespace Laws

/-- The bytes 2 to 188 that a completion carries; none for any other command (R26, R122). -/
def packetRest? : Instr → Option (List Byte)
  | .packetComplete rest _ => some rest
  | .insertionPacketComplete rest => some rest
  | _ => none

/-- A command is well formed exactly when the packet bytes it carries, if any, are 187; and no table word spells it (log 24). -/
def Operands.Statement (i : Instr) : Prop :=
  (i.wellFormed = true ↔ ∀ rest, packetRest? i = some rest → rest.length = 187)
    ∧ ∀ nbits w, decodeTableWord nbits w ≠ some i

/-- A command that carries no packet bytes is well formed, and no word spells it. -/
theorem operands_plain (i : Instr) (hw : i.wellFormed = true) (hr : packetRest? i = none) : Operands.Statement i :=
  ⟨⟨fun _ rest h => (by rw [hr] at h; cases h), fun _ => hw⟩, fun _ _ h => (by cases h)⟩

/-- A completion is well formed exactly with 187 bytes, and no word spells it. -/
theorem operands_rest (i : Instr) (rest : List Byte) (hw : i.wellFormed = restWellFormed rest)
    (hr : packetRest? i = some rest) : Operands.Statement i := by
  refine ⟨?_, fun _ _ h => (by cases h)⟩
  rw [hw, hr]
  simp [restWellFormed]

theorem Operands.powerOn : Operands.Statement .powerOn := operands_plain _ rfl rfl
theorem Operands.resetPin : Operands.Statement .resetPin := operands_plain _ rfl rfl
theorem Operands.resetEnds : ∀ a0 a1, Operands.Statement (.resetEnds a0 a1) := by
  intros; exact operands_plain _ rfl rfl
theorem Operands.siteSecondBoundary : Operands.Statement .siteSecondBoundary := operands_plain _ rfl rfl
theorem Operands.ppsEdge : Operands.Statement .ppsEdge := operands_plain _ rfl rfl
theorem Operands.missingPulse : Operands.Statement .missingPulse := operands_plain _ rfl rfl
theorem Operands.refokFall : Operands.Statement .refokFall := operands_plain _ rfl rfl
theorem Operands.refokRise : Operands.Statement .refokRise := operands_plain _ rfl rfl
theorem Operands.timeMessage : ∀ a0 a1, Operands.Statement (.timeMessage a0 a1) := by
  intros; exact operands_plain _ rfl rfl
theorem Operands.timeMessageInterbyteTimeout : Operands.Statement .timeMessageInterbyteTimeout := operands_plain _ rfl rfl
theorem Operands.steeringWordSent : Operands.Statement .steeringWordSent := operands_plain _ rfl rfl
theorem Operands.packetComplete (rest : List Byte) (f : Bool) : Operands.Statement (.packetComplete rest f) := operands_rest _ rest rfl rfl
theorem Operands.shortPacket : ∀ a0 a1, Operands.Statement (.shortPacket a0 a1) := by
  intros; exact operands_plain _ rfl rfl
theorem Operands.longPacket : Operands.Statement .longPacket := operands_plain _ rfl rfl
theorem Operands.gapExpiry : Operands.Statement .gapExpiry := operands_plain _ rfl rfl
theorem Operands.feedOutTimerExpiry : Operands.Statement .feedOutTimerExpiry := operands_plain _ rfl rfl
theorem Operands.feedWrite : Operands.Statement .feedWrite := operands_plain _ rfl rfl
theorem Operands.takeControlPacket : Operands.Statement .takeControlPacket := operands_plain _ rfl rfl
theorem Operands.emissionMark : Operands.Statement .emissionMark := operands_plain _ rfl rfl
theorem Operands.breakNotice : Operands.Statement .breakNotice := operands_plain _ rfl rfl
theorem Operands.breakCancel : Operands.Statement .breakCancel := operands_plain _ rfl rfl
theorem Operands.returnNow : Operands.Statement .returnNow := operands_plain _ rfl rfl
theorem Operands.siteMute : Operands.Statement .siteMute := operands_plain _ rfl rfl
theorem Operands.unknownDirective : Operands.Statement .unknownDirective := operands_plain _ rfl rfl
theorem Operands.directiveOverrun : Operands.Statement .directiveOverrun := operands_plain _ rfl rfl
theorem Operands.fetchRequest : Operands.Statement .fetchRequest := operands_plain _ rfl rfl
theorem Operands.ringReadTaken : Operands.Statement .ringReadTaken := operands_plain _ rfl rfl
theorem Operands.ringReadComplete : Operands.Statement .ringReadComplete := operands_plain _ rfl rfl
theorem Operands.slotEmission : Operands.Statement .slotEmission := operands_plain _ rfl rfl
theorem Operands.fillEmission : Operands.Statement .fillEmission := operands_plain _ rfl rfl
theorem Operands.drivenPacketEnd : Operands.Statement .drivenPacketEnd := operands_plain _ rfl rfl
theorem Operands.armTimeReached : ∀ a0, Operands.Statement (.armTimeReached a0) := by
  intros; exact operands_plain _ rfl rfl
theorem Operands.endReached : ∀ a0, Operands.Statement (.endReached a0) := by
  intros; exact operands_plain _ rfl rfl
theorem Operands.reserve : ∀ a0 a1, Operands.Statement (.reserve a0 a1) := by
  intros; exact operands_plain _ rfl rfl
theorem Operands.confirm : ∀ a0, Operands.Statement (.confirm a0) := by
  intros; exact operands_plain _ rfl rfl
theorem Operands.discard : ∀ a0, Operands.Statement (.discard a0) := by
  intros; exact operands_plain _ rfl rfl
theorem Operands.findBreak : ∀ a0 a1, Operands.Statement (.findBreak a0 a1) := by
  intros; exact operands_plain _ rfl rfl
theorem Operands.clearBooking : ∀ a0 a1, Operands.Statement (.clearBooking a0 a1) := by
  intros; exact operands_plain _ rfl rfl
theorem Operands.openLoad : ∀ a0 a1 a2 a3 a4, Operands.Statement (.openLoad a0 a1 a2 a3 a4) := by
  intros; exact operands_plain _ rfl rfl
theorem Operands.abortLoad : ∀ a0 a1, Operands.Statement (.abortLoad a0 a1) := by
  intros; exact operands_plain _ rfl rfl
theorem Operands.retireClip : ∀ a0 a1, Operands.Statement (.retireClip a0 a1) := by
  intros; exact operands_plain _ rfl rfl
theorem Operands.forceSlate : ∀ a0 a1 a2, Operands.Statement (.forceSlate a0 a1 a2) := by
  intros; exact operands_plain _ rfl rfl
theorem Operands.releaseSlate : ∀ a0 a1, Operands.Statement (.releaseSlate a0 a1) := by
  intros; exact operands_plain _ rfl rfl
theorem Operands.forceMute : ∀ a0, Operands.Statement (.forceMute a0) := by
  intros; exact operands_plain _ rfl rfl
theorem Operands.releaseMute : ∀ a0, Operands.Statement (.releaseMute a0) := by
  intros; exact operands_plain _ rfl rfl
theorem Operands.saveSettings : ∀ a0, Operands.Statement (.saveSettings a0) := by
  intros; exact operands_plain _ rfl rfl
theorem Operands.saveComplete : Operands.Statement .saveComplete := operands_plain _ rfl rfl
theorem Operands.streamRestart : ∀ a0, Operands.Statement (.streamRestart a0) := by
  intros; exact operands_plain _ rfl rfl
theorem Operands.clearCounters : ∀ a0, Operands.Statement (.clearCounters a0) := by
  intros; exact operands_plain _ rfl rfl
theorem Operands.stagingWrite : ∀ a0 a1 a2, Operands.Statement (.stagingWrite a0 a1 a2) := by
  intros; exact operands_plain _ rfl rfl
theorem Operands.streamMapAdd : ∀ a0 a1 a2 a3 a4, Operands.Statement (.streamMapAdd a0 a1 a2 a3 a4) := by
  intros; exact operands_plain _ rfl rfl
theorem Operands.streamMapChange : ∀ a0 a1 a2 a3 a4, Operands.Statement (.streamMapChange a0 a1 a2 a3 a4) := by
  intros; exact operands_plain _ rfl rfl
theorem Operands.streamMapRemove : ∀ a0 a1 a2 a3 a4, Operands.Statement (.streamMapRemove a0 a1 a2 a3 a4) := by
  intros; exact operands_plain _ rfl rfl
theorem Operands.writeOnceSettingWrite : ∀ a0 a1 a2, Operands.Statement (.writeOnceSettingWrite a0 a1 a2) := by
  intros; exact operands_plain _ rfl rfl
theorem Operands.operatingSettingWrite : ∀ a0 a1 a2, Operands.Statement (.operatingSettingWrite a0 a1 a2) := by
  intros; exact operands_plain _ rfl rfl
theorem Operands.writePhase : ∀ a0 a1 a2, Operands.Statement (.writePhase a0 a1 a2) := by
  intros; exact operands_plain _ rfl rfl
theorem Operands.noticeHeadRead : ∀ a0 a1, Operands.Statement (.noticeHeadRead a0 a1) := by
  intros; exact operands_plain _ rfl rfl
theorem Operands.resetCauseRead : ∀ a0, Operands.Statement (.resetCauseRead a0) := by
  intros; exact operands_plain _ rfl rfl
theorem Operands.packetAdmitted : ∀ a0, Operands.Statement (.packetAdmitted a0) := by
  intros; exact operands_plain _ rfl rfl
theorem Operands.insertionPacketRefused : Operands.Statement .insertionPacketRefused := operands_plain _ rfl rfl
theorem Operands.insertionShortPacket : ∀ a0, Operands.Statement (.insertionShortPacket a0) := by
  intros; exact operands_plain _ rfl rfl
theorem Operands.insertionLongPacket : Operands.Statement .insertionLongPacket := operands_plain _ rfl rfl
theorem Operands.insertionPacketComplete (rest : List Byte) : Operands.Statement (.insertionPacketComplete rest) := operands_rest _ rest rfl rfl
theorem Operands.loadWrite : Operands.Statement .loadWrite := operands_plain _ rfl rfl
theorem Operands.loadIdleTimeout : Operands.Statement .loadIdleTimeout := operands_plain _ rfl rfl
theorem Operands.clipReadTaken : Operands.Statement .clipReadTaken := operands_plain _ rfl rfl
theorem Operands.clipReadComplete : Operands.Statement .clipReadComplete := operands_plain _ rfl rfl
theorem Operands.timeMessageByte : ∀ a0 a1, Operands.Statement (.timeMessageByte a0 a1) := by
  intros; exact operands_plain _ rfl rfl
theorem Operands.feedPacketOpens : ∀ a0 a1, Operands.Statement (.feedPacketOpens a0 a1) := by
  intros; exact operands_plain _ rfl rfl

end Laws
end Sys2Proof
end

