-- ==== Sys2Proof/Laws/StoreFrames.lean ====
section
/-! SUPPORT. What the clip store, the settings, the restart and the Management Port leave alone. -/

set_option Elab.async false

namespace Sys2Proof
namespace Machine

/-! ## The Clip Store Controller -/

theorem faultClip_frame (s : State) (p : Nat) (id : Word32) (w : FaultCause) : OnlyChanges [.csc, .mgp] s (s.faultClip p id w) :=
  (setCsc_frame s _).seq (raiseBoth_frame _ _ _ _)

theorem stampLoad_frame (s : State) (p : Nat) : OnlyChanges [.csc] s (s.stampLoad p) := setCsc_frame s _

theorem closeStamped_frame (s : State) (p : Nat) : OnlyChanges [.csc] s ((s.setCsc s.csc.closeLoad).stampLoad p) :=
  (setCsc_frame s _).seq (stampLoad_frame _ p)

theorem faultLoad_frame (s : State) (p : Nat) (id : Word32) (w : FaultCause) : OnlyChanges [.csc, .mgp] s (s.faultLoad p id w) :=
  (closeStamped_frame s p).seq (faultClip_frame _ p id w)

theorem startLoad_frame (s : State) (p : Nat) (c : Clip) (l : List FreeRun) : OnlyChanges [.csc] s (s.startLoad p c l) :=
  setCsc_frame s _

theorem emptyPosition_frame (s : State) (p : Nat) (c : Clip) : OnlyChanges [.csc] s (s.emptyPosition p c) := setCsc_frame s _

theorem ownOpenLoad_frame (id : Word32) (v : Byte) (n fp : Word32) (s : State) :
    OnlyChanges [.mgp, .csc] s (ownOpenLoad id v n fp s).state := by
  unfold ownOpenLoad
  repeat' split
  all_goals first
    | exact (startLoad_frame s _ _ _).widen
    | exact .refl _ s

theorem ownAbortLoad_frame (id : Word32) (s : State) : OnlyChanges [.mgp, .csc] s (ownAbortLoad id s).state := by
  have h : ∀ p c, OnlyChanges [.mgp, .csc] s ((s.setCsc s.csc.closeLoad).emptyPosition p c) := fun p c =>
    ((setCsc_frame s _).seq (emptyPosition_frame _ p c) (c := [.csc])).widen
  unfold ownAbortLoad
  split
  · exact .refl _ s
  · split
    · split
      · exact h _ _
      · exact .refl _ s
    · exact .refl _ s

theorem ownRetireClip_frame (id : Word32) (s : State) : OnlyChanges [.mgp, .csc] s (ownRetireClip id s).state := by
  unfold ownRetireClip
  split
  · exact .refl _ s
  · split
    · exact .refl _ s
    · split
      · exact .refl _ s
      · exact (emptyPosition_frame s _ _).widen

theorem setFraming_frame (s : State) (f : InsertionFraming) : OnlyChanges [.csc] s (s.setFraming f) := setCsc_frame s _

theorem openPacket_frame (s : State) (b : Byte) : OnlyChanges [.csc] s (s.openPacket b) := by
  unfold State.openPacket
  exact .ite (setFraming_frame s _) ((setFraming_frame s _).seq (countCsc_frame _ _))

theorem acceptPacket_frame (s : State) (l : LoadContext) (c : Clip) (p : List Byte) : OnlyChanges [.csc] s (s.acceptPacket l c p) :=
  setCsc_frame s _

theorem completeInsertion_frame (s : State) (l : LoadContext) (c : Clip) (p : List Byte) :
    OnlyChanges [.csc, .mgp] s (s.completeInsertion l c p) := by
  have h : ∀ f, OnlyChanges [.csc, .mgp] s ((s.setFraming .completed).countCsc f) := fun f =>
    ((setFraming_frame s _).seq (countCsc_frame _ f) (c := [.csc])).widen
  unfold State.completeInsertion
  split
  · exact h _
  · exact (setFraming_frame s _).widen
  · exact faultLoad_frame s _ _ _
  · exact (acceptPacket_frame s l c p).widen

theorem completeLoad_frame (s : State) (p : Nat) (c : Clip) : OnlyChanges [.csc, .mgp] s (s.completeLoad p c) := by
  unfold State.completeLoad
  dsimp only
  split
  · exact (closeStamped_frame s p).seq (faultClip_frame _ _ _ _)
  · exact ((closeStamped_frame s p).seq (setCsc_frame _ _) (c := [.csc])).seq (raiseBoth_frame _ _ _ _)

theorem takeLoadWrite_frame (s : State) (l : LoadContext) (c : Clip) (r : List LoadEntry) (m : Memory) :
    OnlyChanges [.csc, .mgp] s (s.takeLoadWrite l c r m) := by
  unfold State.takeLoadWrite
  dsimp only
  exact .ite ((setCsc_frame s _).seq (completeLoad_frame _ _ _)) (setCsc_frame s _).widen

theorem faultyRead_frame (s : State) (p : Nat) (c : Clip) : OnlyChanges [.csc, .mgp] s (s.faultyRead p c) := by
  unfold State.faultyRead
  dsimp only
  exact .ite ((countCsc_frame s _).seq (faultClip_frame _ _ _ _)) (countCsc_frame s _).widen

theorem takeClipRead_frame (s : State) (n : Word32) (b : Bool) (p : Nat) (c : Clip) (r : ClipReadResult) :
    OnlyChanges [.csc, .mgp] s (s.takeClipRead n b p c r) := by
  unfold State.takeClipRead
  dsimp only
  split
  · exact (setCsc_frame s _).widen
  · exact (setCsc_frame s _).seq (faultyRead_frame _ _ _)

/-! ## The booking commands -/

theorem ownReserve_frame (r : Role) (n : Word16) (s : State) : OnlyChanges [.mgp, .bpu] s (ownReserve r n s).state := by
  unfold ownReserve
  split
  · exact .refl _ s
  · split
    · exact (updateStaging_frame s r _).widen
    · exact .refl _ s

theorem refuseConfirm_frame (s : State) (c : ResultCode) (v : List Byte) :
    OnlyChanges [.mgp, .bpu, .csc] s (refuseConfirm s c v).state := (countBpu_frame s _).widen

theorem ownConfirm_frame (r : Role) (s : State) : OnlyChanges [.mgp, .bpu, .csc] s (ownConfirm r s).state := by
  unfold ownConfirm
  split
  · exact refuseConfirm_frame s _ _
  · exact refuseConfirm_frame s _ _
  · split
    · exact refuseConfirm_frame s _ _
    · split
      · exact refuseConfirm_frame s _ _
      · split
        · exact refuseConfirm_frame s _ _
        · split
          · exact refuseConfirm_frame s _ _
          · exact (installBooking_frame s r _).widen

theorem ownDiscard_frame (r : Role) (s : State) : OnlyChanges [.mgp, .bpu] s (ownDiscard r s).state :=
  (updateStaging_frame s r _).widen

theorem ownFindBreak_frame (n : Word16) (s : State) : OnlyChanges [.mgp] s (ownFindBreak n s).state := by
  unfold ownFindBreak
  split <;> exact .refl _ s

theorem ownClearBooking_frame (n : Word16) (s : State) : OnlyChanges [.mgp, .bpu, .csc] s (ownClearBooking n s).state := by
  unfold ownClearBooking
  split
  · exact .refl _ s
  · split
    · exact (removeBooking_frame s _ _ _).widen
    · split
      · exact (removeBooking_frame s _ _ _).seq (raiseBoth_frame _ _ _ _)
      · exact .refl _ s

theorem ownForceMute_frame (s : State) : OnlyChanges [.mgp, .esc] s (ownForceMute s).state := (setMute_frame s _ _).widen
theorem ownReleaseMute_frame (s : State) : OnlyChanges [.mgp, .esc] s (ownReleaseMute s).state := (setMute_frame s _ _).widen

/-! ## Settings -/

theorem setLive_frame (s : State) (x : Settings) (b : Bool) : OnlyChanges [.sst] s (s.setLive x b) := setSst_frame s _

theorem editChecked_frame (s : State) (op : EditOp) (n : Nat) (a b : Option StreamClass) :
    OnlyChanges [.mgp, .sst] s (s.editChecked op n a b).state := by
  unfold State.editChecked
  split
  · exact .refl _ s
  · split
    · exact .refl _ s
    · exact (setLive_frame s _ _).widen

theorem ownMapEdit_frame (op : EditOp) (n : Word16) (c v k : Byte) (s : State) :
    OnlyChanges [.mgp, .sst] s (ownMapEdit op n c v k s).state := by
  unfold ownMapEdit
  dsimp only
  repeat' split
  all_goals first
    | exact editChecked_frame s _ _ _ _
    | exact .refl _ s

theorem ownWriteOnce_frame (w : WriteOnceSetting) (v : Word32) (s : State) :
    OnlyChanges [.mgp, .sst] s (ownWriteOnce w v s).state := by
  unfold ownWriteOnce
  dsimp only
  split
  · exact .refl _ s
  · split
    · exact (setLive_frame s _ _).widen
    · exact .refl _ s

theorem applySetting_frame (s : State) (o : OperatingSetting) : OnlyChanges [.tbu, .esc, .mgp] s (s.applySetting o) := by
  unfold State.applySetting
  split
  case h_1 => exact (setTbu_frame s _).seq (afterTbu_frame _ _)
  case h_2 => exact (setTbu_frame s _).widen
  case h_3 => exact .ite ((setEsc_frame s _).seq (setMute_frame _ _ _)) (.refl _ s)
  all_goals exact .refl _ s

theorem ownOperating_frame (o : OperatingSetting) (v : Word32) (s : State) :
    OnlyChanges [.mgp, .tbu, .esc, .sst] s (ownOperating o v s).state := by
  unfold ownOperating
  split
  · exact (setLive_frame s _ _).seq (applySetting_frame _ _)
  · exact .refl _ s

theorem ownSaveSettings_frame (s : State) : OnlyChanges [.mgp, .sst] s (ownSaveSettings s).state :=
  (setSst_frame s _).seq (updatePort_frame _ _ _)

/-! ## The stream restart (R199) -/

theorem restartEntry_frame (s : State) (e : BreakEntry) : OnlyChanges [.bpu, .csc, .mgp] s (s.restartEntry e) := by
  unfold State.restartEntry
  exact .ite (finishBreak_frame s _ _ _) (.ite (fallBack_frame s _ _) (.refl _ s))

theorem restartBpu_frame (s : State) : OnlyChanges [.bpu, .csc, .mgp] s s.restartBpu :=
  OnlyChanges.foldl State.restartEntry restartEntry_frame _ s

theorem releaseAtRestart_frame (s : State) (v : Service) : OnlyChanges [.csc, .spe, .mgp] s (s.releaseAtRestart v) := by
  unfold State.releaseAtRestart
  split
  · exact dropSlate_frame s _ _
  · exact .refl _ s

theorem restartSpe_frame (s : State) : OnlyChanges [.csc, .spe, .mgp] s s.restartSpe :=
  (OnlyChanges.foldl State.releaseAtRestart releaseAtRestart_frame Service.all s).seq (setSpe_frame _ _)

theorem noteRestart_frame (s : State) : OnlyChanges [.sst, .mgp] s s.noteRestart :=
  (setSst_frame s _).seq (raiseBoth_frame _ _ _ _)

theorem restartFiu_frame (s : State) : OnlyChanges [.fiu, .esc, .mgp] s s.restartFiu :=
  (setFiu_frame s _).seq (setFeed_frame _ _)

theorem restartCsc_frame (s : State) : OnlyChanges [.csc] s s.restartCsc := setCsc_frame s _

theorem restartDdc_frame (s : State) : OnlyChanges [.ddc] s s.restartDdc := setDdc_frame s _

theorem restartEsc_frame (s : State) : OnlyChanges [.esc, .mgp] s s.restartEsc :=
  (setEsc_frame s _).seq (setMute_frame _ _ _)

/-- A stream restart leaves site time, REFOK, the queue and the free choices alone. -/
theorem ownStreamRestart_frame (s : State) :
    OnlyChanges [.mgp, .fiu, .esc, .ddc, .bpu, .csc, .spe, .sst] s (ownStreamRestart s).state := by
  have h1 := (noteRestart_frame s).seq (restartFiu_frame s.noteRestart) (c := [.mgp, .fiu, .esc, .sst])
  have h2 := h1.seq (restartCsc_frame _) (c := [.mgp, .fiu, .esc, .csc, .sst])
  have h3 := h2.seq (restartDdc_frame _) (c := [.mgp, .fiu, .esc, .ddc, .csc, .sst])
  have h4 := h3.seq (restartEsc_frame _) (c := [.mgp, .fiu, .esc, .ddc, .csc, .sst])
  have h5 := h4.seq (restartBpu_frame _) (c := [.mgp, .fiu, .esc, .ddc, .bpu, .csc, .sst])
  exact h5.seq (restartSpe_frame _)

/-! ## The Management Port -/

theorem nameObject_frame (s : State) (o : Option (Role × Word16)) (b : Bool) : OnlyChanges [.mgp] s (s.nameObject o b) :=
  setMgp_frame s _

theorem takeCopy_frame (s : State) (b : List Byte) : OnlyChanges [.mgp] s (s.takeCopy b) := setMgp_frame s _

theorem clearCounters_frame (s : State) :
    OnlyChanges [.mgp, .tbu, .fiu, .esc, .ddc, .bpu, .csc, .spe] s s.clearCounters := by
  intro p hp
  cases p <;> first | rfl | simp at hp

end Machine
end Sys2Proof
end

