-- ==== Sys2Proof/Laws/Tables.lean ====
section
/-! SUPPORT. The break table by number and the clip directory by position: what an update, an insertion and a removal leave to
find. -/

set_option Elab.async false

namespace Sys2Proof
namespace Machine

/-! ## The break table (R82) -/

theorem State.findBreak_number {s : State} {n : Word16} {e : BreakEntry} (h : s.findBreak? n = some e) : e.number = n := by
  have := List.find?_some h
  simpa using this

theorem find_map_number (table : List BreakEntry) (m : Word16) (f : BreakEntry → BreakEntry)
    (hf : ∀ e, (f e).number = e.number) :
    (table.map f).find? (fun e => e.number == m) = (table.find? (fun e => e.number == m)).map f := by
  induction table with
  | nil => rfl
  | cons x rest ih =>
    by_cases h : x.number = m
    · simp [h, hf]
    · simp [h, hf, ih]

/-- An update of the entry with a number, by a change that keeps its number, finds every entry as before but that one. -/
theorem State.findBreak_updateBreak (s : State) (n m : Word16) (f : BreakEntry → BreakEntry)
    (hf : ∀ e, (f e).number = e.number) :
    (s.updateBreak n f).findBreak? m = (s.findBreak? m).map (fun e => if m = n then f e else e) := by
  unfold State.findBreak? State.updateBreak
  simp only [State.setBpu_bpu]
  rw [find_map_number _ m (fun e => if e.number = n then f e else e) (fun e => by split <;> simp [hf])]
  cases h : s.bpu.table.find? (fun e => e.number == m) with
  | none => rfl
  | some e =>
    have he : e.number = m := by have := List.find?_some h; simpa using this
    simp [he]

theorem find_insertBreak (e : BreakEntry) (m : Word16) : ∀ table : List BreakEntry, (∀ x ∈ table, x.number ≠ e.number) →
    (insertBreak e table).find? (fun x => x.number == m)
      = if m = e.number then some e else table.find? (fun x => x.number == m)
  | [], _ => by
    by_cases h : m = e.number
    · simp [insertBreak, h]
    · simp [insertBreak, h, Ne.symm h]
  | x :: rest, hx => by
    unfold insertBreak
    split
    · by_cases h : m = e.number
      · simp [h]
      · rw [if_neg h, List.find?_cons_of_neg (by simpa using Ne.symm h)]
    · have ih := find_insertBreak e m rest (fun y hy => hx y (List.mem_cons_of_mem _ hy))
      by_cases hm : x.number = m
      · have : m ≠ e.number := fun h => hx x (List.mem_cons_self ..) (hm.trans h)
        simp [hm, this]
      · rw [List.find?_cons_of_neg (by simpa using hm), List.find?_cons_of_neg (by simpa using hm), ih]

theorem insertBreak_length (e : BreakEntry) : ∀ table : List BreakEntry, (insertBreak e table).length = table.length + 1
  | [] => rfl
  | x :: rest => by
    unfold insertBreak
    split
    · rfl
    · simp [insertBreak_length e rest]

theorem insertBreak_perm (e : BreakEntry) : ∀ table : List BreakEntry, (insertBreak e table).Perm (e :: table)
  | [] => .refl _
  | x :: rest => by
    unfold insertBreak
    split
    · exact .refl _
    · exact ((insertBreak_perm e rest).cons x).trans (.swap e x rest)

theorem removeBreak_none {table : List BreakEntry} {n : Word16} : ∀ x ∈ removeBreak table n, x.number ≠ n := by
  intro x hx
  have := (List.mem_filter.1 hx).2
  simpa using this

/-- No entry has a number that finds none. -/
theorem State.findBreak_none {s : State} {n : Word16} (h : s.findBreak? n = none) : ∀ x ∈ s.bpu.table, x.number ≠ n := by
  unfold State.findBreak? at h
  intro x hx
  have := List.find?_eq_none.1 h x hx
  simpa using this

theorem State.findBreak_congr {s t : State} (h : t.bpu = s.bpu) (n : Word16) : t.findBreak? n = s.findBreak? n := by
  simp [State.findBreak?, h]

/-- The pins of a booking leave the break table alone. -/
theorem State.addPins_bpu (s : State) (ids : List Word32) : (s.addPins ids).bpu = s.bpu := (addPins_frame s ids) .bpu (by decide)
theorem State.dropPins_bpu (s : State) (ids : List Word32) : (s.dropPins ids).bpu = s.bpu := (dropPins_frame s ids) .bpu (by decide)
theorem State.addPins_mgp (s : State) (ids : List Word32) : (s.addPins ids).mgp = s.mgp := (addPins_frame s ids) .mgp (by decide)
theorem State.dropPins_mgp (s : State) (ids : List Word32) : (s.dropPins ids).mgp = s.mgp := (dropPins_frame s ids) .mgp (by decide)
theorem State.addPins_tbu (s : State) (ids : List Word32) : (s.addPins ids).tbu = s.tbu := (addPins_frame s ids) .tbu (by decide)
theorem State.dropPins_tbu (s : State) (ids : List Word32) : (s.dropPins ids).tbu = s.tbu := (dropPins_frame s ids) .tbu (by decide)

/-- Pins act on the directory as it stands in the Clip Store Controller alone. -/
theorem State.dropPins_csc_congr : ∀ (ids : List Word32) {s t : State}, t.csc = s.csc → (t.dropPins ids).csc = (s.dropPins ids).csc
  | [], _, _, h => h
  | id :: ids, s, t, h => by
    have : (t.dropPin id).csc = (s.dropPin id).csc := by simp [State.dropPin, h]
    simpa [State.dropPins] using State.dropPins_csc_congr ids this

theorem State.addPins_csc_congr : ∀ (ids : List Word32) {s t : State}, t.csc = s.csc → (t.addPins ids).csc = (s.addPins ids).csc
  | [], _, _, h => h
  | id :: ids, s, t, h => by
    have : (t.addPin id).csc = (s.addPin id).csc := by simp [State.addPin, h]
    simpa [State.addPins] using State.addPins_csc_congr ids this

/-! ## The clip directory (R115) -/

theorem clipAt_mapClipAt (dir : List (Nat × Clip)) (p q : Nat) (f : Clip → Clip) :
    clipAt? (mapClipAt dir p f) q = (clipAt? dir q).map (fun c => if q = p then f c else c) := by
  unfold clipAt? mapClipAt
  induction dir with
  | nil => rfl
  | cons x rest ih =>
    by_cases h : x.1 = q
    · by_cases hp : x.1 = p
      · simp [h.symm, hp]
      · simp [h.symm, hp]
    · by_cases hp : x.1 = p
      · simp only [List.map_cons, hp, if_true]
        rw [List.find?_cons_of_neg (by simpa [← hp] using h), List.find?_cons_of_neg (by simpa using h)]
        simpa [hp] using ih
      · simp only [List.map_cons, hp, if_false]
        rw [List.find?_cons_of_neg (by simpa using h), List.find?_cons_of_neg (by simpa using h)]
        exact ih

theorem findClip_id {dir : List (Nat × Clip)} {id : Word32} {x : Nat × Clip} (h : findClip? dir id = some x) : x.2.id = id := by
  have := List.find?_some h
  simpa using this

/-- A change at one position that keeps block counts keeps the blocks of the directory. -/
theorem clipBlocks_mapClipAt (dir : List (Nat × Clip)) (p : Nat) (f : Clip → Clip) (hf : ∀ c, (f c).blockCount = c.blockCount) :
    clipBlocks (mapClipAt dir p f) = clipBlocks dir := by
  unfold clipBlocks mapClipAt
  rw [List.map_map]
  congr 1
  apply List.map_congr_left
  intro x _
  simp only [Function.comp]
  split <;> simp [hf]

theorem positions_mapClipAt (dir : List (Nat × Clip)) (p : Nat) (f : Clip → Clip) :
    (mapClipAt dir p f).map (·.1) = dir.map (·.1) := by
  unfold mapClipAt
  rw [List.map_map]
  apply List.map_congr_left
  intro x _
  simp only [Function.comp]
  split <;> rfl

end Machine
end Sys2Proof
end

