-- ==== Sys2Proof/Tests/Slice0.lean ====
section
/-! SUPPORT. Tests: terms that `wellFormed` refuses, the manual's own worked figures, one step each, and for every statement
of Certificates/Slice0/Obligations.lean states that meet its hypotheses, clause by clause. -/

set_option Elab.async false

namespace Sys2Proof
namespace Tests

open Sys2Proof.Machine

/-! ## Ill-formed terms -/

theorem test_wellFormed_refuses_a_short_completion : (Instr.packetComplete (List.replicate 186 0#8) false).wellFormed = false := by
  decide +kernel

theorem test_wellFormed_refuses_a_long_completion : (Instr.packetComplete (List.replicate 188 0#8) false).wellFormed = false := by
  decide +kernel

theorem test_wellFormed_takes_187_bytes : (Instr.packetComplete (List.replicate 187 0#8) false).wellFormed = true := by
  decide +kernel

theorem test_wellFormed_refuses_a_short_insertion : (Instr.insertionPacketComplete (List.replicate 186 0#8)).wellFormed = false := by
  decide +kernel

theorem test_no_word_spells_a_command : decodeTableWord 8 0 = none := rfl

/-! ## Helpers -/

/-- A field of the state that a command leaves. -/
def after {α : Type} (c : Instr) (s : State) (f : State → α) : Option α :=
  match exec c s with
  | .next t => some (f t)
  | .fault _ => none
  | .refused _ => none

/-- A LOCKED part at a site time, in the manual's default settings, with REFOK high and the boundary before served. -/
def locked (sec tick : Nat) : State :=
  { State.reset with
    refok := true
    tbu := { state := .locked, time := ⟨BitVec.ofNat 32 sec, tick⟩, lastServed := some (BitVec.ofNat 32 sec - 1#32),
             shifting := none, lastLoopError := 3, integrator := 1309520 }
    esc := { mute := { timing := false, schedule := true } } }

/-- A part on air: LOCKED, the feed ON, the schedule running, CARINH released. -/
def onAir (sec tick : Nat) : State :=
  { locked sec tick with
    fiu := { state := .on }
    esc := { mute := { timing := false, schedule := false }, running := true, carinh := .released, feedOutTimer := none } }

/-- A packet of a stream with a first byte, a fourth byte and bytes of zeros behind. -/
def packetOf (first : Byte) (stream : Nat) (fourth : Byte) : List Byte :=
  [first, BitVec.ofNat 8 (stream / 256), BitVec.ofNat 8 (stream % 256), fourth] ++ List.replicate 184 0#8

/-- A control packet of one directive with the given kind and body, as the packet in hand. -/
def inHand (s : State) (kind : Byte) (body : List Byte) : State :=
  s.setDdc { s.ddc with inHand := some {
    packet := [0x47#8, 0x1F#8, 0xF0#8, 0x10#8, 1#8, 0#8, 1#8, 1#8, kind, BitVec.ofNat 8 body.length] ++ body
      ++ List.replicate (178 - body.length) 0#8
    slot := 49999#32, pos := 5, left := 1 } }

/-- A READY clip of service 2. -/
def clip (id : Nat) (first pins : Nat) (fingerprint : Nat) : Clip :=
  { id := BitVec.ofNat 32 id, service := .s2, state := .ready, firstBlock := first, blockCount := 2, expected := 100,
    stored := 100, expectedFp := BitVec.ofNat 32 fingerprint, computedFp := BitVec.ofNat 32 fingerprint,
    streams := [0x200], firstStamp := some 27000, lastStamp := some 30000, pins := pins }

/-- Break 517 of the manual's examples, in a state, with its booking of clips 1001 and 1002 (05, A merged re-booking). -/
def break517 (state : BreakState) : BreakEntry :=
  { number := 517#16, service := .s2, area := 12#8, start := ⟨1700000089#32, 26998650⟩, finish := ⟨1700000119#32, 26998650⟩,
    arm := ⟨1700000087#32, 26998650⟩, plan := none, policy := .carry, state := state, revision := 3#16,
    booking := some ⟨[0x1001#32, 0x1002#32], 77#32, .insertion, 0#32⟩ }

/-- A part with break 517 in its table, the three clips of the example and the clock stream of service 2 in the map. -/
def booked (state : BreakState) : State :=
  { onAir 1700000000 5 with
    bpu := { table := [break517 state] }
    csc := { directory := [(1, clip 0x1001 256 1 0x1A2B3C4D), (2, clip 0x1002 258 1 0x0F0E0D0C), (3, clip 0x1003 260 0 5)],
             freeRuns := [⟨262, 7930⟩] }
    spe := { services := ⟨{}, { tracker := some ⟨1000, ⟨1#32, 0⟩⟩ }, {}, {}⟩ }
    sst := { live := { areaCode := some 12, siteNumber := some 305, map := [⟨0x200, .service .s2 true⟩] } } }

/-! ## The manual's worked figures -/

/-- 01, One loop pulse in LOCKED: I, W and the word on STDAT, under a lock window of 2,700. -/
theorem test_ppsEdge_loop_pulse :
    after .ppsEdge
      (((locked 100 150).setSst { live := { lockWindow := 2700 } }).setTbu { (locked 100 150).tbu with integrator := 1310720 })
      (fun t => (t.tbu.integrator, t.tbu.steer, t.tbu.shifting)) = some (1309520, 19, some 0x8013#16) := by
  decide +kernel

/-- 01, Convergent rounding. -/
theorem test_convergent_rounding :
    [163840, 229376, -163840, 196608, 163841].map (fun n => convergent n 65536) = [2, 4, -2, 3, 3] := by
  decide +kernel

/-- 01, A step in ACQUIRING. -/
theorem test_ppsEdge_phase_step :
    after .ppsEdge
      ((State.reset.setTbu { time := ⟨1000#32, 26990000⟩, state := .acquiring, held := some ⟨1001#32, true⟩,
                             lastServed := some 1000#32, lockCount := 3 }).setRefok true)
      (fun t => (t.tbu.time, t.tbu.lastServed, t.tbu.lockCount, t.tbu.counters.timeSteps))
      = some (⟨1001#32, 0⟩, some 1001#32, 0, 1) := by
  decide +kernel

/-- 01, A short loss of reference: REFOK falls, W is the holdover word 20, H is 768. -/
theorem test_refokFall_enters_holdover :
    after .refokFall (locked 5000 13000000) (fun t => (t.tbu.state, t.tbu.cause, t.tbu.steer, t.tbu.n, t.tbu.h))
      = some (.holdover, some .refLost, 20, 0, 768) := by
  decide +kernel

/-- 01, Holdover expiry: at n = 385 the estimate passes 6,912 and the state is EXPIRED. -/
theorem test_siteSecondBoundary_expires :
    after .siteSecondBoundary
      ((locked 100 26999999).setTbu { (locked 100 26999999).tbu with state := .holdover, n := 384, h := 6912 })
      (fun t => (t.tbu.state, t.tbu.n, t.tbu.h, t.esc.mute.timing)) = some (.expired, 385, 6928, true) := by
  decide +kernel

/-- 01, A short loss of reference: the third good pulse makes LOCKED. -/
theorem test_ppsEdge_relocks :
    after .ppsEdge
      ((locked 5007 4).setTbu { (locked 5007 4).tbu with state := .holdover, relockCount := 2, n := 6, h := 864 })
      (fun t => (t.tbu.state, t.tbu.n, t.tbu.h)) = some (.locked, 0, 0) := by
  decide +kernel

/-- 02, Framing: the good packet after a short one counts one good packet. -/
theorem test_shortPacket_breaks_the_good_run :
    after (.shortPacket 0x47#8 false)
      (State.reset.setFiu { state := .syncing, goodRun := 5, slotCounter := 5#32, framing := .opened [0x47#8] false })
      (fun t => (t.fiu.slotCounter, t.fiu.goodRun, t.fiu.counters.shortPackets)) = some (5#32, 0, 1) := by
  decide +kernel

/-- 02, Framing: the eighth good packet, slot 12, turns the feed ON. -/
theorem test_packetComplete_turns_the_feed_on :
    after (.packetComplete ((packetOf 0x47#8 0x100 0x10#8).drop 1) false)
      (State.reset.setFiu { state := .syncing, goodRun := 7, slotCounter := 12#32, framing := .opened [0x47#8] false })
      (fun t => (t.fiu.state, t.fiu.slotCounter, t.fiu.writeBuffer.map (·.slot))) = some (.on, 13#32, [12#32]) := by
  decide +kernel

/-- 02, Framing: 20 ms without a completion. -/
theorem test_gapExpiry_loses_the_feed :
    after .gapExpiry (State.reset.setFiu { state := .on, gapTimer := some 540000 })
      (fun t => (t.fiu.state, t.fiu.counters.feedLosses)) = some (.lost, 1) := by
  decide +kernel

/-- The state of 02, The ring write rule: fetch position f, and one entry for slot s waiting. -/
def ringCase (f s : Nat) : State :=
  { onAir 100 20 with
    esc := { (onAir 100 20).esc with fetchPos := some (BitVec.ofNat 32 f) }
    fiu := { state := .on, writeBuffer :=
      [⟨BitVec.ofNat 32 s, packetOf 0x47#8 0x100 0x10#8, ⟨s % 65536, false, 0, false, 0x5A#8⟩⟩] } }

/-- 02, The ring write rule: slot 116,383 is stored in ring slot 1,695 with tag 50,847. -/
theorem test_feedWrite_stores :
    after .feedWrite (ringCase 100000 116383)
      (fun t => (t.csc.written, (Memory.read t.csc.memory (192 * 1695 + 188)).toNat * 256
        + (Memory.read t.csc.memory (192 * 1695 + 189)).toNat)) = some ([1695], 50847) := by
  decide +kernel

/-- 02, The ring write rule: slot 116,384 overruns the ring. -/
theorem test_feedWrite_overruns :
    after .feedWrite (ringCase 100000 116384) (fun t => (t.csc.written, t.fiu.counters.ringOverruns)) = some ([], 1) := by
  decide +kernel

/-- 02, The ring write rule: near the wrap, slot 0 comes after f = 4,294,960,000. -/
theorem test_feedWrite_wraps :
    after .feedWrite (ringCase 4294960000 0) (fun t => t.csc.written) = some [0] := by
  decide +kernel

/-- 03, Period from rate: Pi, Pf and the fetch lead. -/
theorem test_period_from_rate :
    [24000000, 22118400, 21000000, 60000000, 1000000].map (fun b =>
      (40608000000 * 16777216 / b / 16777216, 40608000000 * 16777216 / b % 16777216, fetchLead (40608000000 * 16777216 / b)))
      = [(1692, 0, 13536), (1835, 15728640, 14688), (1933, 11983725, 15470), (676, 13421772, 5415), (40608, 0, 324864)] := by
  decide +kernel

/-- The anchor of 03, Slot instants under one anchor, with reference slot 7. -/
def anchor03 : Anchor := ⟨7#32, ⟨1000#32, 500000⟩, 40608000000 * 16777216 / 22118400, 0#8⟩

/-- 03, Slot instants under one anchor. -/
theorem test_slot_instants :
    [7#32, 8#32, 9#32, 23#32].map (fun n => ((anchor03.slotTimes n).instant.tick, (anchor03.slotTimes n).fetchTime.tick))
      = [(500000, 485312), (501836, 487148), (503672, 488984), (529375, 514687)] := by
  decide +kernel

/-- The schedule of 03, A schedule stepped forward and backward: slot 49,999 at 2000:1,790,308, rate 24,000,000. -/
def stepped (tick : Nat) (newer : List Anchor) : State :=
  { onAir 2000 tick with
    esc := { (onAir 2000 tick).esc with
      anchors := ⟨49999#32, ⟨2000#32, 1790308⟩, 1692 * 16777216, 7#8⟩ :: newer
      fetchPos := some 49999#32
      next := some ((⟨49999#32, ⟨2000#32, 1790308⟩, 1692 * 16777216, 7#8⟩ : Anchor).slotTimes 49999#32) } }

/-- 03, A schedule stepped forward: D = +5,000 is a schedule step. -/
theorem test_emissionMark_steps_the_schedule :
    after .emissionMark
      (inHand (stepped 1000000 []) 0x01#8
        ([8#8] ++ toBytes 2 1 ++ toBytes 4 2000 ++ toBytes 4 1797000 ++ toBytes 4 24000000))
      (fun t => (t.esc.anchors.length, t.esc.counters.scheduleSteps)) = some (2, 1) := by
  decide +kernel

/-- 03, A schedule stepped backward: slots 50,000 to 50,002 are skipped and 50,003 is accepted at 2000:1,792,076. -/
theorem test_fetchRequest_skips :
    after .fetchRequest (stepped 1776772 [⟨50000#32, ⟨2000#32, 1787000⟩, 1692 * 16777216, 8#8⟩])
      (fun t => (t.esc.next.map (fun n => (n.slot, n.instant.tick)), t.esc.counters.skippedSlots))
      = some (some (50003#32, 1792076), 3) := by
  decide +kernel

/-- 03, A schedule stepped forward: two fill packets behind slot 49,999, at 1,792,000 and 1,793,692. -/
theorem test_slotEmission_places_fill :
    after .slotEmission
      ((stepped 1790308 []).setEsc { (stepped 1790308 []).esc with
        requested := [⟨49999#32, ⟨⟨2000#32, 1790308⟩, 0⟩, ⟨2000#32, 1790308⟩, 1692 * 16777216, false⟩]
        next := some ((⟨50000#32, ⟨2000#32, 1797000⟩, 1692 * 16777216, 8#8⟩ : Anchor).slotTimes 50000#32) })
      (fun t => t.esc.fills.map (fun f => (f.instant.tick, ({ f with next := f.next + 1 } : FillRun).instant.tick, f.last)))
      = some [(1792000, 1793692, 2)] := by
  decide +kernel

/-- 03, A first anchor in the past: 26 slots are skipped, 5,026 is accepted at 2000:10,043,992. -/
theorem test_emissionMark_starts_in_the_past :
    after .emissionMark
      (inHand ((locked 2000 10030000).setFiu { state := .on }) 0x01#8
        ([0#8] ++ toBytes 2 1 ++ toBytes 4 2000 ++ toBytes 4 10000000 ++ toBytes 4 24000000))
      (fun t => (t.esc.next.map (fun n => (n.slot - 50000#32, n.instant.tick, n.fetchTime.tick)), t.esc.counters.skippedSlots,
        t.esc.carinh)) = some (some (26#32, 10043992, 10030456), 26, .pending) := by
  decide +kernel

/-- 04, A packet with five directives: the offset of −1,350 ticks borrows one second. -/
theorem test_breakNotice_offset :
    after .breakNotice
      (inHand ((locked 1700000000 5).setSst { live := { areaCode := some 12, siteOffset := some (-1350) } }) 0x10#8
        (toBytes 2 517 ++ [2#8, 12#8, 15#8] ++ toBytes 4 1700000090 ++ toBytes 4 0 ++ toBytes 4 1700000120 ++ toBytes 4 0
          ++ toBytes 4 0x5A0C11E2 ++ [0#8]))
      (fun t => t.bpu.table.map (fun e => (e.start, e.finish, e.state)))
      = some [(⟨1700000089#32, 26998650⟩, ⟨1700000119#32, 26998650⟩, .announced)] := by
  decide +kernel

/-- 04, A packet with five directives: end only is INCOMPLETE. -/
theorem test_breakNotice_incomplete :
    after .breakNotice
      (inHand (booked .booked) 0x10#8 (toBytes 2 518 ++ [3#8, 12#8, 2#8] ++ toBytes 4 1700000200 ++ toBytes 4 0))
      (fun t => (t.bpu.table.length, t.ddc.counters.incompleteNotices)) = some (1, 1) := by
  decide +kernel

/-- 04, A packet with five directives: area 9 is not 12. -/
theorem test_breakCancel_other_area :
    after .breakCancel (inHand (booked .booked) 0x11#8 (toBytes 2 517 ++ [9#8]))
      (fun t => (t.bpu.table.map (·.state), t.ddc.counters.otherAreas)) = some ([.booked], 1) := by
  decide +kernel

/-- 04, A packet with five directives: kind 0x7E is skipped. -/
theorem test_unknownDirective_skips :
    after .unknownDirective (inHand State.reset 0x7E#8 [1#8, 2#8, 3#8, 4#8, 5#8, 6#8])
      (fun t => (t.ddc.inHand, t.ddc.counters.unknown)) = some (none, 1) := by
  decide +kernel

/-- 04, A control packet that overruns: length 200 does not fit the region. -/
theorem test_directiveOverrun_ends_the_packet :
    after .directiveOverrun
      (State.reset.setDdc { inHand := some {
        packet := [0x47#8, 0x1F#8, 0xF0#8, 0x10#8, 1#8, 0#8, 1#8, 1#8, 0x7E#8, 200#8] ++ List.replicate 178 0#8
        slot := 7#32, pos := 5, left := 1 } })
      (fun t => (t.ddc.inHand, t.ddc.counters.overruns)) = some (none, 1) := by
  decide +kernel

/-- 05, A merged re-booking: the merge takes length and position 3 from the staging record, the rest from the booking. -/
theorem test_confirm_merges :
    after (.confirm .insertion)
      ((booked .booked).setBpu { (booked .booked).bpu with staging := ⟨{
        reservation := .held 517#16 3#16
        length := ⟨3#8, true⟩
        positions := [⟨0#32, false⟩, ⟨0#32, false⟩, ⟨0x1003#32, true⟩] ++ List.replicate 5 ⟨0#32, false⟩ }, {}⟩ })
      (fun t => (t.bpu.table.map (fun e => (e.revision, e.clips, (e.booking.map (·.reference)))),
        t.csc.directory.map (fun c => c.2.pins)))
      = some ([(4#16, [0x1001#32, 0x1002#32, 0x1003#32], some 77#32)], [1, 1, 1]) := by
  decide +kernel

/-- 05, Two roles on one break: RESERVE holds revision 3. -/
theorem test_reserve_holds :
    after (.reserve .insertion 517#16) (booked .booked)
      (fun t => (t.bpu.staging.insertion.reservation, t.mgp.ports.insertion.result.code)) = some (.held 517#16 3#16, .done) := by
  decide +kernel

/-- 05, A merged re-booking: the partial first byte of position 1 is neither marked nor changed. -/
theorem test_stagingWrite_partial_position :
    after (.stagingWrite .insertion 1#8 [3#8, 0x99#8]) (booked .booked)
      (fun t => (t.bpu.staging.insertion.length, t.bpu.staging.insertion.positions.head?))
      = some (⟨3#8, true⟩, some ⟨0#32, false⟩) := by
  decide +kernel

/-- 05, Revisions around arming: a notice that moves the start 1 s later brings ARMED back to BOOKED. -/
theorem test_breakNotice_revises :
    after .breakNotice
      (inHand ((booked .armed).setTbu { (booked .armed).tbu with time := ⟨1700000088#32, 10000000⟩ }) 0x10#8
        (toBytes 2 517 ++ [2#8, 12#8, 1#8] ++ toBytes 4 1700000090 ++ toBytes 4 26998650))
      (fun t => t.bpu.table.map (fun e => (e.state, e.revision, e.arm)))
      = some [(.booked, 4#16, ⟨1700000088#32, 26998650⟩)] := by
  decide +kernel

/-- A table of 16 entries: 411 CANCELLED and 410 ENDED with the same end, and 14 announced breaks. -/
def fullTable : List BreakEntry :=
  { break517 .cancelled with number := 411#16, finish := ⟨1699999500#32, 0⟩ }
    :: { break517 .ended with number := 410#16, finish := ⟨1699999500#32, 0⟩ }
    :: (List.range 14).map (fun k => { break517 .announced with number := BitVec.ofNat 16 (600 + k) })

/-- 05, Reuse of a full table: of two finished entries with the earliest end the lower number goes. -/
theorem test_breakNotice_reuses_the_oldest :
    after .breakNotice
      (inHand ((booked .booked).setBpu { table := fullTable }) 0x10#8
        (toBytes 2 530 ++ [3#8, 12#8, 11#8] ++ toBytes 4 1700001000 ++ toBytes 4 0 ++ toBytes 4 1700001010 ++ toBytes 4 0
          ++ [1#8]))
      (fun t => (t.bpu.table.length, t.bpu.table.any (·.number == 410#16), t.bpu.table.any (·.number == 411#16),
        t.bpu.table.any (·.number == 530#16))) = some (16, false, true, true) := by
  decide +kernel

/-- 06, Allocation: A of 100,000 packets takes 1,563 blocks. -/
theorem test_openLoad_first_fit :
    after (.openLoad .insertion 1#32 2#8 100000#32 0#32) State.reset (fun t => t.csc.freeRuns)
      = some [⟨1819, 6373⟩] := by
  decide +kernel

/-- 06, Merging: D returned between two free runs makes one. -/
theorem test_retireClip_merges :
    after (.retireClip .insertion 4#32)
      (State.reset.setCsc { directory := [(3, { clip 4 1885 0 0 with blockCount := 32 })], freeRuns := [⟨1819, 66⟩, ⟨1917, 6275⟩] })
      (fun t => t.csc.freeRuns) = some [⟨1819, 6373⟩] := by
  decide +kernel

/-- 06, One load: a packet of stream 0x0300, a stream of service 3, ends a load of service 2. -/
theorem test_insertionPacketComplete_foreign :
    after (.insertionPacketComplete ((packetOf 0x47#8 0x300 0x10#8).drop 1))
      ((booked .booked).setCsc {
        directory := [(2, { clip 0x2001 1819 0 5 with state := .loading })]
        load := some { position := 2, idleLimit := 135000000 }
        framing := .admitted [0x47#8] })
      (fun t => t.csc.directory.map (fun c => (c.2.state, c.2.cause))) = some [(.fault, some .foreign)] := by
  decide +kernel

/-- 06, The arbiter under load: with the marker at feed the load write is taken, at 8 entries the feed write. -/
theorem test_grant_alternates :
    let load : LoadContext := { position := 1, buffer := [⟨0, [], ⟨0, false, 0, false, 0#8⟩⟩], idleLimit := 1 }
    let entry : FeedEntry := ⟨0#32, [], ⟨0, false, 0, false, 0#8⟩⟩
    ((State.reset.setFiu { writeBuffer := List.replicate 6 entry }).setCsc { load := some load, marker := .feed }).grant?
        = some .loadWrite
      ∧ ((State.reset.setFiu { writeBuffer := List.replicate 8 entry }).setCsc { load := some load, marker := .feed }).grant?
        = some .feedWrite := by
  decide +kernel

/-- 07, Four breaks armed at one tick: an ANNOUNCED entry with no booking falls back. -/
theorem test_armTimeReached_no_booking :
    after (.armTimeReached 517#16)
      (((booked .booked).setBpu { table := [{ break517 .announced with booking := none }] }).setTbu
        { (booked .booked).tbu with time := ⟨1700000087#32, 26998650⟩ })
      (fun t => t.bpu.table.map (fun e => (e.state, e.reason))) = some [(.fallback, some .noBooking)] := by
  decide +kernel

/-- 08, Rebasing at splice-out and across the wrap: the offset O′. -/
theorem test_rebasing_offsets :
    passOffset ⟨1000000000, ⟨1000#32, 600000⟩⟩ ⟨1000#32, 1100123⟩ 27000 = 1000473000
      ∧ passOffset ⟨2576966877600, ⟨1000#32, 0⟩⟩ ⟨1001#32, 0⟩ 27000000 = 2576966877600 := by
  decide +kernel

/-- 08, A slate during a break: FORCE SLATE pins the clip and starts the slate at packet 0. -/
theorem test_forceSlate_pins :
    after (.forceSlate .site 2#8 0x1003#32) (booked .active)
      (fun t => (t.spe.services.s2.slate, t.spe.services.s2.slatePos, t.csc.directory.map (fun c => c.2.pins)))
      = some (some 0x1003#32, 0, [1, 1, 1]) := by
  decide +kernel

/-- 09, A booking in check mode: a write with a good check byte is taken. The straps are A2 = 0, A1 = 1. -/
theorem test_writePhase_check_good :
    after (.writePhase 0x32#7 ([0x00#8, 0x11#8, 0x01#8, 0x02#8, 0x05#8]
        ++ [crc8 [0x64#8, 0x00#8, 0x11#8, 0x01#8, 0x02#8, 0x05#8]]) true)
      { booked .booked with
        sst := { live := { checkModeInsertion := true } }
        mgp := { insertionAddress := 0x32#7, siteAddress := 0x33#7, ports := ⟨{ result := { seq := 17#8 } }, {}⟩ } }
      (fun t => (t.mgp.ports.insertion.result.code, t.mgp.ports.insertion.result.seq, t.bpu.staging.insertion.reservation))
      = some (.done, 18#8, .held 517#16 3#16) := by
  decide +kernel

/-- 09, A booking in check mode: a write with a bad check byte is discarded with CHECK. -/
theorem test_writePhase_check_bad :
    after (.writePhase 0x32#7 [0x00#8, 0x10#8, 0x01#8, 0x03#8, 0x77#8] true)
      { booked .booked with
        sst := { live := { checkModeInsertion := true } }
        mgp := { insertionAddress := 0x32#7, siteAddress := 0x33#7, ports := ⟨{ result := { seq := 18#8 } }, {}⟩ } }
      (fun t => (t.mgp.ports.insertion.result.code, t.mgp.ports.insertion.result.seq,
        t.mgp.ports.insertion.counters.checkFailures, t.bpu.staging.insertion.length)) = some (.check, 19#8, 1, ⟨0#8, false⟩) := by
  decide +kernel

/-- 09, A queue that fills: the 33rd notice is lost and counted. -/
theorem test_notice_lost :
    ((({ notices := List.replicate 32 restartedAtPowerOn } : RolePort).push restartedAtPowerOn).notices.length,
      (({ notices := List.replicate 32 restartedAtPowerOn } : RolePort).push restartedAtPowerOn).counters.noticesLost) = (32, 1) := by
  decide +kernel

/-- 09, A queue that fills: the head goes when all its bytes have been sent. -/
theorem test_noticeHeadRead_removes :
    after (.noticeHeadRead .site 20) State.reset (fun t => (t.mgp.ports.site.notices.length, t.mgp.ports.insertion.notices.length))
      = some (0, 1) := by
  decide +kernel

/-- A part with a save in progress. -/
def saving : State :=
  { State.reset with
    sst := { save := some ⟨{ siteNumber := some 305 }, 5⟩ }
    mgp := { ports := ⟨{}, { hold := true, result := { code := .inProgress, seq := 40#8 } }⟩ } }

/-- 09, A write during a save: FORCE MUTE is refused, not recorded, and counted. -/
theorem test_forceMute_during_save :
    after (.forceMute .site) saving
      (fun t => (t.esc.mute.site, t.mgp.ports.site.result.seq, t.mgp.ports.site.counters.refusedDuringSave))
      = some (false, 40#8, 1) := by
  decide +kernel

/-- 09, A write during a save: at its end the result is DONE at sequence 40. -/
theorem test_saveComplete_done :
    after .saveComplete saving
      (fun t => (t.mgp.ports.site.result.code, t.mgp.ports.site.result.seq, t.sst.imageState)) = some (.done, 40#8, .valid) := by
  decide +kernel

/-- 10: arm lead 40,000 is CLAMPED to 30,000. -/
theorem test_operatingSettingWrite_clamps :
    after (.operatingSettingWrite .site .armLead 40000#32) State.reset
      (fun t => (t.sst.live.armLead, t.mgp.ports.site.result.code, t.mgp.ports.site.result.value.take 4))
      = some (30000, .clamped, [0x00#8, 0x00#8, 0x75#8, 0x30#8]) := by
  decide +kernel

/-- 10: a second write of the site number is LOCKED. -/
theorem test_writeOnceSettingWrite_locked :
    after (.writeOnceSettingWrite .site .siteNumber 306#32) (booked .booked)
      (fun t => (t.sst.live.siteNumber, t.mgp.ports.site.result.code)) = some (some 305, .locked) := by
  decide +kernel

/-- 10: the saved ring size of 32,768 slots leaves a clip store of 7,680 blocks after reset. -/
theorem test_resetEnds_divides_the_memory :
    after (.resetEnds false false)
      { State.reset with
        inReset := some .resetPin
        sst := { image := savedImage { ringSize := some 32768 } } }
      (fun t => (t.fiu.ringSize, t.csc.freeRuns, t.sst.cause, t.sst.storeInvalid)) = some (32768, [⟨512, 7680⟩], .resetPin, false) := by
  decide +kernel

/-- 10: a site role read of the reset cause leaves NONE. -/
theorem test_resetCauseRead_clears :
    after (.resetCauseRead .site) State.reset (fun t => (t.sst.cause, t.sst.storeInvalid, t.mgp.transaction.copy))
      = some (.none, false, [1#8, 1#8]) := by
  decide +kernel

/-! ## Witnesses: states that meet the hypotheses of each statement, clause by clause -/

/-- A LOCKED part with a packet in the hand-off queue, which an internal step takes at a free moment. -/
def withHandoff : State := (locked 7 5).setFiu { handoff := [⟨nullPacket, 3#32⟩] }

theorem witness_StepOnEmptyQueue :
    ({ State.reset with inReset := some .resetPin }.pending = [] ∧ { State.reset with inReset := some .resetPin }.inReset ≠ none)
    ∧ ((State.reset.setFiu { gapTimer := some 540000 }).pending = []
      ∧ (State.reset.setFiu { gapTimer := some 540000 }).Running
      ∧ (State.reset.setFiu { gapTimer := some 540000 }).dueCommands = .gapExpiry :: [])
    ∧ (withHandoff.pending = [] ∧ withHandoff.Running ∧ withHandoff.dueCommands = [] ∧ withHandoff.internalCommands ≠ [])
    ∧ ((locked 7 26999999).pending = [] ∧ (locked 7 26999999).Running ∧ (locked 7 26999999).dueCommands = []
      ∧ (locked 7 26999999).internalCommands = [] ∧ (locked 7 26999999).tbu.time.tick = 26999999)
    ∧ ((locked 7 26999998).pending = [] ∧ (locked 7 26999998).Running ∧ (locked 7 26999998).dueCommands = []
      ∧ (locked 7 26999998).internalCommands = [] ∧ (locked 7 26999998).tbu.time.tick ≠ 26999999) := by
  and_intros <;> first | decide +kernel | rfl

theorem witness_ResetTakesNoInput :
    { State.reset with inReset := some .powerOn }.inReset ≠ none
    ∧ Instr.discard .site ≠ .powerOn ∧ Instr.discard .site ≠ .resetPin ∧ (∀ a1 a2, Instr.discard .site ≠ .resetEnds a1 a2)
    ∧ Instr.discard .site ≠ .refokFall ∧ Instr.discard .site ≠ .refokRise := by
  and_intros <;> decide

theorem witness_ResetHoldsTheLines :
    ((Instr.powerOn = .powerOn ∧ ResetSource.powerOn = .powerOn) ∨ (Instr.powerOn = .resetPin ∧ ResetSource.powerOn = .resetPin))
    ∧ ((Instr.resetPin = .powerOn ∧ ResetSource.resetPin = .powerOn)
      ∨ (Instr.resetPin = .resetPin ∧ ResetSource.resetPin = .resetPin))
    ∧ ({ saving with sst := { saving.sst with imageState := .invalid } }.SaveConsistent ∧ saving.sst.save.isSome = true) := by
  refine ⟨.inl ⟨rfl, rfl⟩, .inr ⟨rfl, rfl⟩, ?_⟩
  and_intros <;> decide +kernel

theorem witness_ResetEndLoadsThePart :
    ({ State.reset with inReset := some .powerOn }.inReset = some .powerOn
      ∧ { State.reset with inReset := some .powerOn }.sst.image.valid = false)
    ∧ ((savedImage {}).valid = true)
    ∧ (State.reset.sst.image = {} ∧ State.reset.csc.memory = [] ∧ State.reset.tbu.loaded = none ∧ State.reset.refok = false
      ∧ State.reset.pending = [] ∧ State.reset.choices = 0) := by
  and_intros <;> decide +kernel

/-- A part in a discipline state at the last tick of a second, with an estimate. -/
def boundary (d : DisciplineState) (h : Nat) : State :=
  { locked 7 26999999 with
    tbu := { (locked 7 26999999).tbu with state := d, h := h }
    esc := { mute := { timing := !d.fit, schedule := true } } }

theorem witness_SecondBoundaryGrowsTheEstimate :
    ((boundary .locked 0).Running ∧ (boundary .locked 0).tbu.time.tick = 26999999 ∧ (boundary .locked 0).tbu.state ≠ .holdover
      ∧ (boundary .locked 0).tbu.state ≠ .expired)
    ∧ ((boundary .holdover 6896).Running ∧ (boundary .holdover 6896).tbu.time.tick = 26999999
      ∧ (boundary .holdover 6896).tbu.state = .holdover)
    ∧ ((boundary .holdover 6897).Running ∧ (boundary .holdover 6897).CarrierConsistent
      ∧ (boundary .holdover 6897).tbu.state = .holdover
      ∧ after .siteSecondBoundary (boundary .holdover 6897) (·.tbu.state) = some .expired)
    ∧ (boundary .expired 281474976710655).tbu.state = .expired := by
  and_intros <;> first | decide +kernel | rfl

/-- A part in a discipline state with a time, a held message and a served boundary. -/
def pulse (d : DisciplineState) (tick : Nat) (held : Option HeldMessage) (served : Option Word32) : State :=
  { locked 7 tick with
    tbu := { (locked 7 tick).tbu with state := d, held := held, lastServed := served }
    esc := { mute := { timing := !d.fit, schedule := true } } }

theorem witness_PulsesOutsideTheLoop :
    ((pulse .unset 5 (some ⟨9#32, true⟩) none).Running ∧ (pulse .unset 5 (some ⟨9#32, true⟩) none).refok = true
      ∧ (pulse .unset 5 (some ⟨9#32, true⟩) none).tbu.state = .unset
      ∧ (pulse .unset 5 (some ⟨9#32, true⟩) none).tbu.held = some ⟨9#32, true⟩
      ∧ (pulse .unset 5 (some ⟨9#32, true⟩) none).CarrierConsistent)
    ∧ ((pulse .unset 5 none none).refok = true ∧ (pulse .unset 5 none none).tbu.state = .unset
      ∧ ∀ m, (pulse .unset 5 none none).tbu.held = some m → m.tracking = false)
    ∧ State.reset.refok = false
    ∧ ((pulse .locked 2700000 none (some 7#32)).refok = true ∧ (pulse .locked 2700000 none (some 7#32)).tbu.state ≠ .unset
      ∧ (phaseError (pulse .locked 2700000 none (some 7#32)).tbu.time).natAbs ≤ 2700000
      ∧ (pulse .locked 2700000 none (some 7#32)).tbu.lastServed
          = some (nearestSecond (pulse .locked 2700000 none (some 7#32)).tbu.time)) := by
  and_intros <;> first | decide +kernel | rfl

theorem witness_LockedPulseRunsTheLoop :
    (pulse .locked 27 none (some 6#32)).Running ∧ (pulse .locked 27 none (some 6#32)).refok = true
    ∧ (pulse .locked 27 none (some 6#32)).tbu.state = .locked ∧ 27 = phaseError (pulse .locked 27 none (some 6#32)).tbu.time
    ∧ (27 : Int).natAbs ≤ (pulse .locked 27 none (some 6#32)).sst.live.lockWindow
    ∧ (pulse .locked 27 none (some 6#32)).sst.live.lockWindow ≤ 2700
    ∧ (pulse .locked 27 none (some 6#32)).tbu.lastServed ≠ some (nearestSecond (pulse .locked 27 none (some 6#32)).tbu.time)
    ∧ (∀ h, h = none ∨ h = some ⟨9#32, false⟩ → ∀ m, (pulse .locked 27 h (some 6#32)).tbu.held = some m → m.tracking = false)
    ∧ (pulse .locked 27 none (some 6#32)).tbu.mismatchCount < 3
    ∧ (27 : Int) = max (-32768) (min 32767 27)
    ∧ (1309304 : Int) = max (-34359738368) (min 34359738367 (1309520 - 27 * 2 ^ 3))
    ∧ (20 : Int) = convergent (1309304 - 27 * 2 ^ 8) 65536 := by
  refine ⟨?_, ?_, ?_, ?_, ?_, ?_, ?_, fun h hh m hm => ?_, ?_⟩
  on_goal 8 =>
    rcases hh with rfl | rfl
    · cases hm
    · cases hm; rfl
  all_goals and_intros
  all_goals first | decide +kernel | rfl

/-- A LOCKED part whose loop word is at the upper limit for the sixteenth time in a row, with a held message. -/
def limiting (held : Option HeldMessage) : State :=
  (pulse .locked 27 held (some 6#32)).setTbu
    { (pulse .locked 27 held (some 6#32)).tbu with integrator := 34359738367, steerLimitRun := 15, mismatchCount := 2 }

theorem witness_LockedPulseRunsTheLoop_limit :
    (∀ h, (limiting h).Running ∧ (limiting h).refok = true ∧ (limiting h).tbu.state = .locked
      ∧ 27 = phaseError (limiting h).tbu.time ∧ 7#32 = nearestSecond (limiting h).tbu.time
      ∧ (limiting h).tbu.lastServed ≠ some 7#32 ∧ (limiting h).tbu.held = h ∧ (limiting h).tbu.mismatchCount = 2
      ∧ (limiting h).tbu.steerLimitRun + 1 = 16)
    ∧ 32767 < convergent (max (-34359738368) (min 34359738367 (34359738367 - 27 * 2 ^ 3)) - 27 * 2 ^ 8) 65536
    ∧ (limiting (some ⟨9#32, true⟩)).CarrierConsistent := by
  refine ⟨fun h => ⟨rfl, rfl, rfl, ?_, ?_, ?_, rfl, rfl, rfl⟩, ?_, ?_⟩
  on_goal 1 => show 27 = phaseError ⟨7#32, 27⟩
  on_goal 2 => show 7#32 = nearestSecond ⟨7#32, 27⟩
  on_goal 3 => show some (6#32) ≠ some (7#32)
  all_goals and_intros
  all_goals decide +kernel

/-- R19, R21: STEER-LIMIT at the sixteenth saturated word, at the upper limit. -/
theorem test_ppsEdge_steer_limit :
    after .ppsEdge (limiting none) (fun t => (t.mgp.ports.site.notices.map (·.detail), t.tbu.steerLimitRun))
      = some ((limiting none).mgp.ports.site.notices.map (·.detail) ++ [.steer true], 16) := by
  decide +kernel

theorem witness_AcquiringPulseStepsTheTime :
    (pulse .acquiring 2701 none (some 6#32)).Running ∧ (pulse .acquiring 2701 none (some 6#32)).refok = true
    ∧ (pulse .acquiring 2701 none (some 6#32)).tbu.state = .acquiring ∧ (pulse .acquiring 2701 none (some 6#32)).ClockInRange
    ∧ (pulse .acquiring 2701 none (some 6#32)).tbu.held = none
    ∧ (pulse .acquiring 2701 none (some 6#32)).sst.live.stepThreshold
        < (phaseError (pulse .acquiring 2701 none (some 6#32)).tbu.time).natAbs
    ∧ ¬ ((phaseError (pulse .acquiring 2701 none (some 6#32)).tbu.time).natAbs ≤ 2700000
      ∧ (pulse .acquiring 2701 none (some 6#32)).tbu.lastServed
          = some (nearestSecond (pulse .acquiring 2701 none (some 6#32)).tbu.time)) := by
  refine ⟨rfl, rfl, rfl, ?_, rfl, ?_, ?_⟩
  · show (2701 : Nat) < 27000000
    decide
  · decide +kernel
  · decide +kernel

theorem witness_RefokEdges :
    ∀ d : DisciplineState, (pulse d 5 none none).Running ∧ (pulse d 5 none none).refok = true
      ∧ (pulse d 5 none none).tbu.state = d ∧ (pulse d 5 none none).CarrierConsistent := by
  intro d
  cases d <;> and_intros <;> first | decide +kernel | rfl

theorem witness_MissingPulseByState :
    ∀ d : DisciplineState, d ≠ .unset → (pulse d 2700000 none none).Running ∧ (pulse d 2700000 none none).tbu.state = d
      ∧ (pulse d 2700000 none none).tbu.time.tick = 2700000
      ∧ (pulse d 2700000 none none).tbu.lastServed ≠ some (pulse d 2700000 none none).tbu.time.sec
      ∧ (pulse d 2700000 none none).tbu.lastMissing ≠ some (pulse d 2700000 none none).tbu.time.sec
      ∧ (pulse d 2700000 none none).tbu.missingCount = 0 := by
  intro d _
  cases d <;> and_intros <;> first | decide +kernel | rfl

/-- A part with an assembly of TMSG bytes. -/
def assembling (bytes : List Byte) (idle : Nat) : State := State.reset.setTbu { assembly := some ⟨bytes, idle⟩ }

/-- Seven bytes of a good time message for second 1, tracking. -/
def sevenBytes : List Byte := [0xA5#8, 0x01#8, 0#8, 0#8, 0#8, 1#8, 1#8]

theorem witness_SerialLinesOfTheTimeBase :
    (State.reset.Running ∧ State.reset.tbu.shifting = some 0x8000#16)
    ∧ ((State.reset.tbu.assembly.map (·.bytes)).getD [] = [] ∧ ([] : List Byte).length < 7)
    ∧ (((assembling (sevenBytes.take 6) 0).tbu.assembly.map (·.bytes)).getD [] = sevenBytes.take 6
      ∧ (sevenBytes.take 6).length < 7)
    ∧ (((assembling sevenBytes 0).tbu.assembly.map (·.bytes)).getD [] = sevenBytes ∧ sevenBytes.length = 7
      ∧ byteAt (sevenBytes ++ [0x58#8]) 1 = 0xA5#8 ∧ byteAt (sevenBytes ++ [0x58#8]) 2 = 0x01#8
      ∧ ((sevenBytes ++ [0x58#8]).map BitVec.toNat).sum % 256 = 0)
    ∧ ¬ (byteAt (sevenBytes ++ [0x59#8]) 1 = 0xA5#8 ∧ byteAt (sevenBytes ++ [0x59#8]) 2 = 0x01#8
      ∧ ((sevenBytes ++ [0x59#8]).map BitVec.toNat).sum % 256 = 0)
    ∧ (assembling sevenBytes 45001).interbyteDue = true
    ∧ (assembling sevenBytes 45000).interbyteDue = false := by
  and_intros <;> first | decide +kernel | rfl

/-- R5: a byte that comes after the gap opens a new assembly, and the one it finds is counted bad, in either order with the
timeout. -/
theorem test_timeMessageByte_after_the_gap :
    after (.timeMessageByte 0xA5#8 true) (assembling sevenBytes 45001)
      (fun t => (t.tbu.assembly.map (·.bytes), t.tbu.counters.badTimeMessages)) = some (some [0xA5#8], 1) := by
  decide +kernel

/-- A part in a feed state with a packet open and a run of good or bad packets. -/
def feeding (f : FeedState) (good bad : Nat) (head : List Byte) : State :=
  { onAir 100 20 with fiu := { state := f, goodRun := good, badRun := bad, framing := .opened head false } }

theorem witness_FeedPacketOpensAndShort :
    (State.reset.Running ∧ ∀ bytes g, State.reset.fiu.framing ≠ .opened bytes g)
    ∧ ∀ f, ((feeding f 7 2 [0x47#8]).Running ∧ (feeding f 7 2 [0x47#8]).fiu.framing = .opened [0x47#8] false
        ∧ (feeding f 7 2 [0x47#8]).fiu.state = f ∧ (feeding f 7 2 [0x47#8]).fiu.badRun + 1 < 4
        ∧ 4 ≤ (feeding f 7 3 [0x47#8]).fiu.badRun + 1) := by
  refine ⟨⟨rfl, fun _ _ h => (by cases h)⟩, fun f => ?_⟩
  cases f <;> and_intros <;> first | decide +kernel | rfl

theorem witness_ExcessBytesCountOnce :
    ((State.reset.setFiu { framing := .completed }).Running ∧ (State.reset.setFiu { framing := .completed }).fiu.framing = .completed)
    ∧ (State.reset.setFiu { framing := .excess }).fiu.framing = .excess := ⟨⟨rfl, rfl⟩, rfl⟩

/-- The verdict on a packet whose first byte and stream id are given, under a map with a DROP entry. -/
def verdictOf (first : Byte) (stream : Nat) : Verdict := classify [⟨0x55, .drop⟩] (packetOf first stream 0x10#8)

theorem witness_PacketCompletes :
    ((feeding .on 0 0 [0x47#8]).Running ∧ (feeding .on 0 0 [0x47#8]).fiu.framing = .opened [0x47#8] false
      ∧ ([0x47#8] ++ (packetOf 0x47#8 8176 0x10#8).drop 1).length = 188
      ∧ (feeding .on 0 0 [0x47#8]).fiu.writeBuffer.length < 16 ∧ (feeding .on 0 0 [0x47#8]).fiu.handoff.length < 4)
    ∧ verdictOf 0x47#8 8176 = .control ∧ verdictOf 0x07#8 0x100 = .bad ∧ verdictOf 0x47#8 0x55 = .drop
    ∧ 16 ≤ ({ writeBuffer := List.replicate 16 ⟨0#32, [], ⟨0, false, 0, false, 0#8⟩⟩ } : Fiu).writeBuffer.length
    ∧ 4 ≤ ({ handoff := List.replicate 4 ⟨[], 0#32⟩ } : Fiu).handoff.length := by
  and_intros <;> first | decide +kernel | rfl

theorem witness_PacketsMoveTheFeedState :
    (∀ f, (feeding f 7 3 [0x47#8]).Running ∧ (feeding f 7 3 [0x47#8]).CarrierConsistent
      ∧ (feeding f 7 3 [0x47#8]).fiu.framing = .opened [0x47#8] false ∧ (feeding f 7 3 [0x47#8]).fiu.state = f
      ∧ 8 ≤ (feeding f 7 3 [0x47#8]).fiu.goodRun + 1 ∧ 4 ≤ (feeding f 7 3 [0x47#8]).fiu.badRun + 1
      ∧ (feeding f 6 2 [0x47#8]).fiu.goodRun + 1 < 8 ∧ (feeding f 6 2 [0x47#8]).fiu.badRun + 1 < 4)
    ∧ ([0x47#8] ++ (packetOf 0x47#8 0 0x10#8).drop 1).length = 188
    ∧ byteAt ([0x47#8] ++ (packetOf 0x47#8 0 0x10#8).drop 1) 1 = 0x47#8
    ∧ byteAt ([0x46#8] ++ (packetOf 0x46#8 0 0x10#8).drop 1) 1 ≠ 0x47#8
    ∧ (feeding .on 7 3 []).sst.live.feedMuteDelay ≠ 0
    ∧ ((feeding .on 7 3 []).setSst { live := { feedMuteDelay := 0 } }).sst.live.feedMuteDelay = 0 := by
  refine ⟨fun f => ?_, ?_⟩
  · cases f <;> and_intros <;> first | decide +kernel | rfl
  · and_intros <;> decide +kernel

theorem witness_FeedTimersExpire :
    (∀ f, ({ onAir 100 20 with fiu := { state := f, gapTimer := some 540000 } }).Running
      ∧ ({ onAir 100 20 with fiu := { state := f, gapTimer := some 540000 } }).fiu.gapTimer = some 540000
      ∧ ({ onAir 100 20 with fiu := { state := f, gapTimer := some 540000 } }).fiu.gapLimit ≤ 540000
      ∧ ({ onAir 100 20 with fiu := { state := f, gapTimer := some 540000 } }).fiu.state = f)
    ∧ ({ onAir 100 20 with esc := { (onAir 100 20).esc with feedOutTimer := some 13500000 } }).CarrierConsistent
    ∧ ({ onAir 100 20 with esc := { (onAir 100 20).esc with feedOutTimer := some 13500000 } }).esc.feedOutTimer = some 13500000
    ∧ (onAir 100 20).sst.live.feedMuteDelay * 27000 ≤ 13500000 := by
  refine ⟨fun f => ?_, ?_⟩
  · cases f <;> and_intros <;> first | decide +kernel | rfl
  · and_intros <;> decide +kernel

theorem witness_RingWriteRule :
    ((ringCase 100000 116383).Running ∧ (ringCase 100000 116383).grant? = some .feedWrite
      ∧ (ringCase 100000 116383).esc.fetchPos = some 100000#32
      ∧ (116383#32).toNat % (ringCase 100000 116383).fiu.ringSize = 1695
      ∧ 0 ≤ sdiff 116383#32 100000#32 ∧ sdiff 116383#32 100000#32 < 16384)
    ∧ (∃ e, (ringCase 100000 116383).fiu.writeBuffer = e :: [] ∧ e.slot = 116383#32)
    ∧ ((ringCase 100000 99999).grant? = some .feedWrite ∧ sdiff 99999#32 100000#32 < 0)
    ∧ ((ringCase 100000 116384).grant? = some .feedWrite ∧ (16384 : Int) ≤ sdiff 116384#32 100000#32)
    ∧ ({ ringCase 0 5 with esc := {} }).esc.running = false := by
  refine ⟨?_, ⟨_, rfl, rfl⟩, ?_⟩ <;> and_intros <;> first | decide +kernel | rfl

/-- A control packet with a version, a sequence count and no directive, its CRC good. -/
def controlPacket (version : Byte) (seq : Nat) : List Byte :=
  let region := [version] ++ toBytes 2 seq ++ [0#8] ++ List.replicate 176 0#8
  [0x47#8, 0x1F#8, 0xF0#8, 0x10#8] ++ region ++ toBytes 4 (crc32 region).toNat

/-- A part with a control packet at the head of the hand-off queue, and a last accepted sequence. -/
def handed (packet : List Byte) (last : Option Word16) : State :=
  (State.reset.setFiu { handoff := [⟨packet, 3#32⟩] }).setDdc { lastSeq := last }

theorem witness_ControlPacketIsParsed :
    ((handed (controlPacket 1#8 300) none).Running ∧ (handed (controlPacket 1#8 300) none).ddc.inHand = none
      ∧ (handed (controlPacket 1#8 300) none).fiu.handoff = ⟨controlPacket 1#8 300, 3#32⟩ :: [])
    ∧ errorMark (setErrorMark (controlPacket 1#8 300)) = true
    ∧ (errorMark (controlPacket 1#8 300) = false ∧ scrambling (setByte (controlPacket 1#8 300) 4 0x50#8) ≠ 0
      ∧ adaptation (setByte (controlPacket 1#8 300) 4 0x30#8) ≠ 1)
    ∧ (scrambling (controlPacket 1#8 300) = 0 ∧ adaptation (controlPacket 1#8 300) = 1
      ∧ (crc32 (payloadBytes (setByte (controlPacket 1#8 300) 188 0#8) 1 180)).toNat
          ≠ ofBytes (payloadBytes (setByte (controlPacket 1#8 300) 188 0#8) 181 4))
    ∧ ((crc32 (payloadBytes (controlPacket 2#8 300) 1 180)).toNat = ofBytes (payloadBytes (controlPacket 2#8 300) 181 4)
      ∧ payloadByte (controlPacket 2#8 300) 1 ≠ 0x01#8)
    ∧ ((crc32 (payloadBytes (controlPacket 1#8 300) 1 180)).toNat = ofBytes (payloadBytes (controlPacket 1#8 300) 181 4)
      ∧ payloadByte (controlPacket 1#8 300) 1 = 0x01#8
      ∧ (handed (controlPacket 1#8 300) (some 300#16)).ddc.lastSeq = some (packetSequence (controlPacket 1#8 300))
      ∧ (handed (controlPacket 1#8 300) (some 298#16)).ddc.lastSeq ≠ some (packetSequence (controlPacket 1#8 300))
      ∧ packetSequence (controlPacket 1#8 300) ≠ 298#16 + 1 ∧ payloadByte (controlPacket 1#8 300) 4 = 0#8)
    ∧ ((inHand State.reset 0x7E#8 [1#8]).Running
      ∧ ((inHand State.reset 0x7E#8 [1#8]).ddc.inHand.bind InHand.directive?) = some ⟨0x7E#8, [1#8]⟩)
    ∧ (180 < 180 + 1 ∧ 180 < 5 + 1 + (200#8 : Byte).toNat) := by
  and_intros <;> first | decide +kernel | rfl

/-- The packet in hand and directive of a part made by `inHand`. -/
def directiveOf (s : State) : Option (Byte × List Byte) :=
  (s.ddc.inHand.bind InHand.directive?).map (fun d => (d.kind, d.body))

theorem witness_SiteMuteOrder :
    ((inHand (booked .booked) 0x20#8 [1#8, 49#8, 1#8]).Running ∧ (inHand (booked .booked) 0x20#8 [1#8, 49#8, 1#8]).CarrierConsistent
      ∧ directiveOf (inHand (booked .booked) 0x20#8 [1#8, 49#8, 1#8]) = some (0x20#8, [1#8, 49#8, 1#8])
      ∧ (booked .booked).sst.live.siteNumber = some (bodyNum [1#8, 49#8, 1#8] 1 2))
    ∧ (directiveOf (inHand (booked .booked) 0x20#8 [0xFF#8, 0xFF#8, 0#8]) = some (0x20#8, [0xFF#8, 0xFF#8, 0#8])
      ∧ bodyNum [0xFF#8, 0xFF#8, 0#8] 1 2 = 0xFFFF)
    ∧ (directiveOf (inHand (booked .booked) 0x20#8 [1#8, 50#8, 1#8]) = some (0x20#8, [1#8, 50#8, 1#8])
      ∧ bodyNum [1#8, 50#8, 1#8] 1 2 ≠ 0xFFFF ∧ (booked .booked).sst.live.siteNumber ≠ some (bodyNum [1#8, 50#8, 1#8] 1 2))
    ∧ (directiveOf (inHand (booked .booked) 0x20#8 [1#8, 49#8, 2#8]) = some (0x20#8, [1#8, 49#8, 2#8])
      ∧ byteAt [1#8, 49#8, 2#8] 3 ≠ 0#8 ∧ byteAt [1#8, 49#8, 2#8] 3 ≠ 1#8)
    ∧ (directiveOf (inHand (booked .booked) 0x20#8 [1#8, 49#8]) = some (0x20#8, [1#8, 49#8]) ∧ [1#8, 49#8].length ≠ 3) := by
  and_intros <;> first | decide +kernel | rfl

/-- The body of a notice for break 530 of service 3, area 12, with start, end and policy. -/
def notice530 (start finish : Nat) : List Byte :=
  toBytes 2 530 ++ [3#8, 12#8, 11#8] ++ toBytes 4 start ++ toBytes 4 0 ++ toBytes 4 finish ++ toBytes 4 0 ++ [1#8]

theorem witness_FirstNoticeMakesAnEntry :
    ((inHand (booked .booked) 0x10#8 (notice530 1700001000 1700001010)).Running
      ∧ directiveOf (inHand (booked .booked) 0x10#8 (notice530 1700001000 1700001010))
          = some (0x10#8, notice530 1700001000 1700001010)
      ∧ (parseNotice? (notice530 1700001000 1700001010)).map (fun f => (f.number, f.start, f.finish, f.policy))
          = some (530#16, some ⟨1700001000#32, 0⟩, some ⟨1700001010#32, 0⟩, some .blank)
      ∧ (booked .booked).sst.live.areaCode = some (12#8 : Byte).toNat ∧ (booked .booked).findBreak? 530#16 = none
      ∧ (booked .booked).tbu.time.before ⟨1700001000#32, 0⟩ = true
      ∧ overlapsOther (booked .booked).bpu.table 530#16 .s3 ⟨1700001000#32, 0⟩ ⟨1700001010#32, 0⟩ = false
      ∧ (booked .booked).bpu.table.length < 16
      ∧ (booked .booked).tbu.time.before (SiteTime.add ⟨1700001000#32, 0⟩ (-54000000)) = true)
    ∧ (parseNotice? (toBytes 2 530 ++ [3#8, 12#8, 0#8])).map (fun f => (f.number, f.start)) = some (530#16, none)
    ∧ (booked .booked).tbu.time.before ⟨1700000000#32, 5⟩ = false
    ∧ overlapsOther (booked .booked).bpu.table 530#16 .s2 ⟨1700000080#32, 0⟩ ⟨1700000090#32, 0⟩ = true
    ∧ (booked .booked).tbu.time.before (SiteTime.add ⟨1700000001#32, 0⟩ (-54000000)) = false := by
  and_intros <;> first | decide +kernel | rfl

theorem witness_CancelAndReturnNow :
    (∀ st : BreakState, (inHand (booked st) 0x11#8 [2#8, 5#8, 12#8]).Running
      ∧ directiveOf (inHand (booked st) 0x11#8 [2#8, 5#8, 12#8]) = some (0x11#8, [2#8, 5#8, 12#8])
      ∧ (booked st).sst.live.areaCode = some (byteAt [2#8, 5#8, 12#8] 3).toNat
      ∧ (inHand (booked st) 0x11#8 [2#8, 5#8, 12#8]).findBreak? 517#16 = some (break517 st))
    ∧ (booked .booked).findBreak? 518#16 = none
    ∧ (directiveOf (inHand (booked .active) 0x12#8 [2#8, 0#8]) = some (0x12#8, [2#8, 0#8])
      ∧ Service.ofNat? (byteAt [2#8, 0#8] 1).toNat = some .s2 ∧ byteAt [2#8, 0#8] 2 = 0#8
      ∧ openEntry? (booked .active).bpu.table .s2 = some (break517 .active))
    ∧ (∀ e ∈ (booked .booked).bpu.table, e.service = .s2 → e.state ≠ .active ∧ ¬ (e.state = .fallback ∧ e.windowOpen = true)) := by
  refine ⟨fun st => ?_, ?_⟩
  · cases st <;> and_intros <;> first | decide +kernel | rfl
  · and_intros <;> decide +kernel

/-- The body of a mark: network time 2000:ticks, with a rate. -/
def markBody (ticks rate : Nat) : List Byte := [8#8] ++ toBytes 2 1 ++ toBytes 4 2000 ++ toBytes 4 ticks ++ toBytes 4 rate

theorem witness_FirstMarkStartsTheSchedule :
    ((inHand ((locked 2000 0).setFiu { state := .on }) 0x01#8 (markBody 26999999 1000000)).Running
      ∧ directiveOf (inHand ((locked 2000 0).setFiu { state := .on }) 0x01#8 (markBody 26999999 1000000))
          = some (0x01#8, markBody 26999999 1000000)
      ∧ (parseMark? (markBody 26999999 1000000)).map (fun m => (m.rate, m.ticks)) = some (1000000, 26999999)
      ∧ ((locked 2000 0).setFiu { state := .on }).esc.anchors = [])
    ∧ parseMark? [8#8] = none
    ∧ (locked 2000 0).fiu.state ≠ .on
    ∧ (parseMark? (markBody 27000000 999999)).map (fun m => (m.rate, m.ticks)) = some (999999, 27000000)
    ∧ (parseMark? (markBody 0 60000001)).map (fun m => (m.rate, m.ticks)) = some (60000001, 0)
    ∧ firstWaiting? ((locked 2000 0).setFiu { state := .on }).csc.reads = none := by
  and_intros <;> first | decide +kernel | rfl

theorem witness_SkippedSlotsFailTheTests :
    0 < anchor03.period
    ∧ skipsUnder anchor03 7#32 ⟨1000#32, 485312⟩ none = 0
    ∧ skipsUnder anchor03 7#32 ⟨1000#32, 485313⟩ (some ⟨1000#32, 501649⟩) = 2 := by
  and_intros <;> decide +kernel

theorem witness_FetchIsRequested :
    (stepped 1776772 []).Running ∧ (stepped 1776772 []).esc.running = true
    ∧ ((stepped 1776772 []).esc.next.map (fun n => (stepped 1776772 []).tbu.time.before n.fetchTime)) = some false
    ∧ ((stepped 1776772 []).esc.next.map (·.slot)) = some 49999#32
    ∧ (stepped 1776772 []).esc.lastEmission = none := by
  and_intros <;> first | decide +kernel | rfl

/-- A part with slot 5 requested and its ring read taken, with the bytes read. -/
def readTaken (live mark : Bool) (bytes : List Byte) : State :=
  { booked .armed with
    esc := { (booked .armed).esc with
      requested := [⟨5#32, ⟨⟨1700000089#32, 26998650⟩, 0⟩, ⟨1700000089#32, 26998650⟩, 1692 * 16777216, false⟩] }
    csc := { (booked .armed).csc with taken := some (.ring 5#32 live mark bytes) } }

/-- The 192 bytes of a stored slot 5 with a packet. -/
def slotBytes (packet : List Byte) : List Byte := slotImage packet ⟨5, false, 0, false, crc8 packet⟩

theorem witness_RingReadIsJudged :
    ((State.reset.setCsc { reads := [.ring 5#32 true] }).Running ∧ (State.reset.setCsc { reads := [.ring 5#32 true] }).csc.taken = none
      ∧ (State.reset.setCsc { reads := [.ring 5#32 true] }).csc.reads = .ring 5#32 true :: []
      ∧ (5#32).toNat % (State.reset.setCsc { reads := [.ring 5#32 true] }).fiu.ringSize < 524288)
    ∧ ((readTaken false true []).csc.taken = some (.ring 5#32 false true [])
      ∧ ∀ q ∈ State.reset.esc.requested, q.slot ≠ 5#32)
    ∧ ((readTaken true true []).Running ∧ (readTaken true true []).csc.taken = some (.ring 5#32 true true [])
      ∧ ((readTaken true true []).esc.requested.find? (fun x => x.slot == 5#32)).isSome = true)
    ∧ ((readTaken true false []).csc.taken = some (.ring 5#32 true false []) ∧ (slotInfo []).tag ≠ (5#32).toNat % 65536)
    ∧ ((slotInfo (slotImage nullPacket ⟨5, true, 0, false, 0#8⟩)).tag = (5#32).toNat % 65536
      ∧ (slotInfo (slotImage nullPacket ⟨5, true, 0, false, 0#8⟩)).void = true)
    ∧ ((slotInfo (slotImage nullPacket ⟨5, false, 0, false, 0#8⟩)).void = false
      ∧ (slotInfo (slotImage nullPacket ⟨5, false, 0, false, 0#8⟩)).check
          ≠ crc8 ((slotImage nullPacket ⟨5, false, 0, false, 0#8⟩).take 188))
    ∧ ((slotInfo (slotBytes (packetOf 0x47#8 0x100 0x10#8))).tag = (5#32).toNat % 65536
      ∧ (slotInfo (slotBytes (packetOf 0x47#8 0x100 0x10#8))).check = crc8 ((slotBytes (packetOf 0x47#8 0x100 0x10#8)).take 188)
      ∧ serviceOf? (booked .armed).sst.live.map (streamId ((slotBytes (packetOf 0x47#8 0x100 0x10#8)).take 188)) = none) := by
  and_intros <;> first | decide +kernel | rfl

/-- The state of 07, Two sites of one area, site 305: the first target-service slot at the start of an ARMED break. -/
def splicing : State := readTaken true true (slotBytes (packetOf 0x47#8 0x200 0x10#8))

theorem witness_HandOffStartsTheBreak :
    (splicing.Running ∧ splicing.csc.taken = some (.ring 5#32 true true (slotBytes (packetOf 0x47#8 0x200 0x10#8)))
      ∧ (splicing.esc.requested.find? (fun x => x.slot == 5#32)).map (·.exact) = some ⟨⟨1700000089#32, 26998650⟩, 0⟩
      ∧ (slotInfo (slotBytes (packetOf 0x47#8 0x200 0x10#8))).tag = (5#32).toNat % 65536
      ∧ (slotInfo (slotBytes (packetOf 0x47#8 0x200 0x10#8))).void = false
      ∧ (slotInfo (slotBytes (packetOf 0x47#8 0x200 0x10#8))).check = crc8 ((slotBytes (packetOf 0x47#8 0x200 0x10#8)).take 188)
      ∧ serviceOf? splicing.sst.live.map (streamId ((slotBytes (packetOf 0x47#8 0x200 0x10#8)).take 188)) = some .s2)
    ∧ (∀ w, (splicing.spe.services.get w).window = .none)
    ∧ ((splicing.spe.services.get .s2).slate = none
      ∧ opens? splicing.bpu.table .s2 ⟨⟨1700000089#32, 26998650⟩, 0⟩ = some (break517 .armed)
      ∧ noOtherOpen splicing.bpu.table .s2 517#16 = true ∧ splicing.findBreak? 517#16 = some (break517 .armed)
      ∧ (break517 .armed).clips.head? = some 0x1001#32
      ∧ findClip? splicing.csc.directory 0x1001#32 = some (1, clip 0x1001 256 1 0x1A2B3C4D)
      ∧ 1 < (clip 0x1001 256 1 0x1A2B3C4D).stored) := by
  refine ⟨?_, fun w => (by cases w <;> rfl), ?_⟩
  · and_intros <;> first | decide +kernel | rfl
  · and_intros <;> decide +kernel

/-- A part at the instant of its one requested slot 5, with a carrier state, and the slot's content. -/
def emitting (c : Carinh) (done : Bool) (content : Content) : State :=
  { onAir 2000 100 with
    esc := { (onAir 2000 100).esc with
      requested := [⟨5#32, ⟨⟨2000#32, 100⟩, 0⟩, ⟨2000#32, 100⟩, 1692 * 16777216, done⟩]
      carinh := c }
    spe := { pendingSlots := [⟨5#32, ⟨2000#32, 100⟩, content⟩] } }

/-- `emitting` with a run of fill waiting too, whose next instant is its base. -/
def emittingFill (base : Nat) : State :=
  (emitting .released true .null).setEsc
    { (emitting .released true .null).esc with fills := [⟨⟨2000#32, base⟩, 1692 * 16777216, 0, 1⟩] }

/-- A full continuity table: streams 1 to 32. -/
def fullContinuity : List Continuity := (List.range 32).map fun k => ⟨k + 1, 3, false⟩

theorem witness_SlotIsEmitted_fillsAndFullTable :
    ((FillRun.instant ⟨⟨2000#32, 99⟩, 1692 * 16777216, 0, 1⟩).before ⟨2000#32, 100⟩ = true
      ∧ (FillRun.instant ⟨⟨2000#32, 100⟩, 1692 * 16777216, 0, 1⟩).before ⟨2000#32, 100⟩ = false)
    ∧ ((emittingFill 99).Running ∧ (emittingFill 99).esc.fills = ⟨⟨2000#32, 99⟩, 1692 * 16777216, 0, 1⟩ :: []
      ∧ (emittingFill 99).esc.requested = ⟨5#32, ⟨⟨2000#32, 100⟩, 0⟩, ⟨2000#32, 100⟩, 1692 * 16777216, true⟩ :: [])
    ∧ (emittingFill 100).esc.fills = ⟨⟨2000#32, 100⟩, 1692 * 16777216, 0, 1⟩ :: []
    ∧ (((booked .booked).setSpe { continuity := fullContinuity }).QueuesBounded
      ∧ (serviceOf? (booked .booked).sst.live.map 0x200).isSome = true ∧ fullContinuity.length = 32
      ∧ continuityOf? fullContinuity 0x200 = none
      ∧ (⟨1, 3, false⟩ ∈ fullContinuity ∧ serviceOf? (booked .booked).sst.live.map 1 = none
        ∧ ∀ x ∈ fullContinuity, 1 ≤ x.stream)) := by
  refine ⟨?_, ⟨rfl, rfl, rfl⟩, rfl, ?_⟩
  all_goals and_intros
  all_goals decide +kernel

theorem witness_SlotIsEmitted :
    (∀ c, (emitting c true .null).Running ∧ (emitting c true .null).esc.carinh = c ∧ (emitting c true .null).esc.fills = []
      ∧ (emitting c true .null).esc.requested =
          ⟨5#32, ⟨⟨2000#32, 100⟩, 0⟩, ⟨2000#32, 100⟩, 1692 * 16777216, true⟩ :: []
      ∧ (emitting c true .null).tbu.time.before ⟨2000#32, 100⟩ = false
      ∧ (emitting c true .null).spe.pendingSlots = ⟨5#32, ⟨2000#32, 100⟩, .null⟩ :: [])
    ∧ (emitting .released false .null).esc.requested.map (·.done) = [false]
    ∧ (emitting .released true (.stored nullPacket ⟨5, false, 0, false, 0#8⟩)).spe.pendingSlots
        = ⟨5#32, ⟨2000#32, 100⟩, .stored nullPacket ⟨5, false, 0, false, 0#8⟩⟩ :: []
    ∧ ∀ x ∈ (emitting .released true .null).spe.continuity, x.stream = streamId nullPacket → x.returning = false := by
  refine ⟨fun c => ?_, rfl, rfl, fun x hx => (by cases hx)⟩
  cases c <;> and_intros <;> first | decide +kernel | rfl

/-- A part at a fill instant, with a carrier state and the number of the last fill. -/
def filling (c : Carinh) (last : Nat) : State :=
  { onAir 2000 1792 with
    esc := { (onAir 2000 1792).esc with fills := [⟨⟨2000#32, 100⟩, 1692 * 16777216, 1, last⟩], carinh := c } }

theorem witness_FillAndPacketEnd :
    (∀ c, (filling c 1).Running ∧ (filling c 1).esc.carinh = c
      ∧ (filling c 1).esc.fills = ⟨⟨2000#32, 100⟩, 1692 * 16777216, 1, 1⟩ :: [] ∧ (filling c 1).esc.requested = []
      ∧ (filling c 1).tbu.time.before (FillRun.instant ⟨⟨2000#32, 100⟩, 1692 * 16777216, 1, 1⟩) = false)
    ∧ (filling .released 2).esc.fills = ⟨⟨2000#32, 100⟩, 1692 * 16777216, 1, 2⟩ :: []
    ∧ ((emittingFill 100).Running ∧ (emittingFill 99).esc.fills = ⟨⟨2000#32, 99⟩, 1692 * 16777216, 0, 1⟩ :: []
      ∧ (emittingFill 99).tbu.time.before (FillRun.instant ⟨⟨2000#32, 99⟩, 1692 * 16777216, 0, 1⟩) = false)
    ∧ ({ onAir 7 7 with esc := { (onAir 7 7).esc with port := some ⟨nullPacket, 188⟩ } }).esc.port = some ⟨nullPacket, 188⟩ := by
  refine ⟨fun c => ?_, rfl, ⟨rfl, rfl, ?_⟩, rfl⟩
  · cases c <;> and_intros <;> first | decide +kernel | rfl
  · decide +kernel

theorem witness_MuteCommands : (onAir 7 7).Listens .site ∧ (onAir 7 7).CarrierConsistent := by
  and_intros <;> first | decide +kernel | rfl

/-- A part at the arm time of break 517, with the entry given. -/
def arming (e : BreakEntry) : State :=
  { booked .booked with
    tbu := { (booked .booked).tbu with time := e.arm }
    bpu := { table := [e] } }

/-- A part at the end of break 517, with the entry given. -/
def ending (e : BreakEntry) : State :=
  { booked .booked with
    tbu := { (booked .booked).tbu with time := e.finish }
    bpu := { table := [e] } }

theorem witness_ArmTimeAndEnd :
    ((arming (break517 .booked)).Running ∧ (arming (break517 .booked)).findBreak? 517#16 = some (break517 .booked)
      ∧ (arming (break517 .booked)).tbu.time.before (break517 .booked).arm = false
      ∧ (break517 .booked).booking.isSome = true
      ∧ clipNotReady (arming (break517 .booked)).csc.directory .s2 (break517 .booked).clips = false
      ∧ planMismatch (break517 .booked) = false
      ∧ streamMismatch (arming (break517 .booked)).sst.live.map (arming (break517 .booked)).csc.directory .s2
          (break517 .booked).clips = false
      ∧ ((arming (break517 .booked)).spe.services.get .s2).tracker.isSome = true
      ∧ (arming (break517 .booked)).esc.running = true ∧ (arming (break517 .booked)).tbu.state.fit = true)
    ∧ ({ break517 .announced with booking := none }.booking.isNone = true)
    ∧ (∀ st, (ending (break517 st)).Running ∧ (ending (break517 st)).findBreak? 517#16 = some (break517 st)
      ∧ (ending (break517 st)).tbu.time.before (break517 st).finish = false)
    ∧ (break517 .fallback).windowOpen = false := by
  refine ⟨?_, rfl, fun st => ?_, rfl⟩
  · and_intros <;> first | decide +kernel | rfl
  · cases st <;> and_intros <;> first | decide +kernel | rfl

theorem witness_ReserveHoldsTheRevision :
    (∀ r, (booked .booked).Listens r) ∧ (booked .booked).findBreak? 516#16 = none
    ∧ ∀ st, (booked st).findBreak? 517#16 = some (break517 st) :=
  ⟨fun r => ⟨rfl, (by cases r <;> rfl)⟩, rfl, fun _ => rfl⟩

/-- Break 517 with a reservation of the insertion role, staging as in 05, A merged re-booking, with position 3 staged. -/
def confirming (st : BreakState) (res : Reservation) (third : Word32) : State :=
  (booked st).setBpu { (booked st).bpu with staging := ⟨{
    reservation := res
    length := ⟨3#8, true⟩
    positions := [⟨0#32, false⟩, ⟨0#32, false⟩, ⟨third, true⟩] ++ List.replicate 5 ⟨0#32, false⟩ }, {}⟩ }

theorem witness_ConfirmBooksTheEntry :
    (∀ st res third, (confirming st res third).Listens .insertion
      ∧ ((confirming st res third).bpu.staging.get .insertion).reservation = res)
    ∧ (confirming .booked (.held 517#16 2#16) 0#32).findBreak? 517#16 = some (break517 .booked)
    ∧ (break517 .booked).revision ≠ 2#16
    ∧ (confirming .booked (.held 516#16 2#16) 0#32).findBreak? 516#16 = none
    ∧ ((break517 .armed).state ≠ .announced ∧ (break517 .armed).state ≠ .booked)
    ∧ mergeFault? (booked .booked).csc.directory .s2
        ((confirming .booked (.held 517#16 3#16) 0x9999#32).bpu.staging.get .insertion) (break517 .booked).booking ≠ none
    ∧ mergeFault? (booked .booked).csc.directory .s2
        ((confirming .booked (.held 517#16 3#16) 0x1003#32).bpu.staging.get .insertion) (break517 .booked).booking = none
    ∧ (((confirming .booked (.held 517#16 3#16) 0x1003#32).bpu.staging.get .site).reservation.holds 517#16 = false) := by
  refine ⟨fun st res third => ⟨⟨rfl, rfl⟩, rfl⟩, ?_⟩
  and_intros <;> decide +kernel

theorem witness_DiscardClearsTheStaging :
    (confirming .booked (.held 517#16 3#16) 5#32).Listens .insertion ∧ (confirming .booked .none 5#32).Listens .site :=
  ⟨⟨rfl, rfl⟩, rfl, rfl⟩

theorem witness_FindBreakReadsTheEntry :
    (booked .booked).Listens .site ∧ (booked .booked).findBreak? 516#16 = none
    ∧ (booked .booked).bpu.table = [] ++ break517 .booked :: [] ∧ (break517 .booked).number = 517#16 :=
  ⟨⟨rfl, rfl⟩, rfl, rfl, rfl⟩

theorem witness_ClearBookingByState :
    (∀ r, (booked .booked).Listens r) ∧ (booked .booked).findBreak? 516#16 = none
    ∧ ∀ st, (booked st).Listens .site ∧ (booked st).findBreak? 517#16 = some (break517 st) :=
  ⟨fun r => ⟨rfl, (by cases r <;> rfl)⟩, rfl, fun _ => ⟨⟨rfl, rfl⟩, rfl⟩⟩

theorem witness_StagingTakesWholeFields :
    State.reset.Listens .insertion ∧ (State.reset.bpu.staging.get .insertion).positions.length = 8
    ∧ 9 < (10#8 : Byte).toNat ∧ (9#8 : Byte).toNat ≤ 9
    ∧ stagingOffset 0 9 + 4 = 37 ∧ stagingOffset 9 9 + 4 = 4 ∧ stagingOffset 1 1 + 1 = 1 := by
  and_intros <;> first | decide +kernel | rfl

theorem witness_OpenLoadAllocatesFirstFit :
    (∀ r, State.reset.Listens r) ∧ State.reset.csc.load = none ∧ (∀ c ∈ State.reset.csc.directory, c.2.id ≠ 7#32)
    ∧ ({ load := some { position := 1, idleLimit := 1 } } : Csc).load ≠ none
    ∧ (∃ c ∈ (booked .booked).csc.directory, c.2.id = 0x1001#32)
    ∧ (∀ p, 1 ≤ p → p ≤ 64 → ∃ c ∈ ((List.range 64).map (fun k => (k + 1, clip 1 0 0 0))), c.1 = p)
    ∧ (∀ c ∈ State.reset.csc.directory, c.1 ≠ 1)
    ∧ Service.ofNat? (4#8 : Byte).toNat = some .s4
    ∧ State.reset.csc.freeRuns = [] ++ ⟨256, 7936⟩ :: [] ∧ ((500000#32).toNat + 63) / 64 ≤ 7936
    ∧ (∀ f ∈ [FreeRun.mk 256 7812], f.count < ((500000#32).toNat + 63) / 64) := by
  refine ⟨fun r => ⟨rfl, (by cases r <;> rfl)⟩, rfl, fun c hc => (by cases hc), ?_, ?_, fun p h1 h2 => ?_,
    fun c hc => (by cases hc), rfl, rfl, ?_, ?_⟩
  · decide
  · exact ⟨_, List.mem_cons_self, rfl⟩
  · exact ⟨(p - 1 + 1, clip 1 0 0 0), List.mem_map.2 ⟨p - 1, List.mem_range.2 (by omega), rfl⟩, by simp; omega⟩
  · decide +kernel
  · decide +kernel

/-- A part loading clip 0x2001 at position 2, with the given packets in the load buffer. -/
def loading (expected stored : Nat) (buffer : List LoadEntry) (framing : InsertionFraming) : State :=
  (booked .booked).setCsc { (booked .booked).csc with
    directory := [(2, { clip 0x2001 1819 0 5 with
      state := .loading, expected := expected, stored := stored, streams := [0x200], pins := 0 })]
    load := some { position := 2, accepted := stored + buffer.length, buffer := buffer, idleLimit := 135000000 }
    framing := framing }

theorem witness_AbortAndRetireFreeThePosition :
    (∀ r, (loading 130 0 [] .noPacket).Listens r)
    ∧ State.reset.csc.load = none
    ∧ ((loading 130 0 [] .noPacket).csc.load.map (·.position) = some 2
      ∧ (clipAt? (loading 130 0 [] .noPacket).csc.directory 2).map (·.id) = some 0x2001#32)
    ∧ (∀ c ∈ State.reset.csc.directory, c.2.id ≠ 5#32)
    ∧ findClip? (booked .booked).csc.directory 0x1001#32 = some (1, clip 0x1001 256 1 0x1A2B3C4D)
    ∧ 0 < (clip 0x1001 256 1 0x1A2B3C4D).pins
    ∧ findClip? (booked .booked).csc.directory 0x1003#32 = some (3, clip 0x1003 260 0 5) ∧ (clip 0x1003 260 0 5).pins = 0
    ∧ ((findClip? (loading 130 0 [] .noPacket).csc.directory 0x2001#32).map (fun c => (c.2.pins, c.2.state)))
        = some (0, .loading) := by
  refine ⟨fun r => ⟨rfl, (by cases r <;> rfl)⟩, rfl, ?_, fun c hc => (by cases hc), ?_⟩ <;>
    and_intros <;> decide +kernel

theorem witness_ReturnedRunMerges :
    0 < (FreeRun.mk 1885 32).count ∧ (∀ x ∈ [FreeRun.mk 1819 66, FreeRun.mk 1917 6275], 0 < x.count)
    ∧ [FreeRun.mk 1819 66, FreeRun.mk 1917 6275].Pairwise (fun a b => a.first + a.count < b.first)
    ∧ (∀ x ∈ [FreeRun.mk 1819 66, FreeRun.mk 1917 6275], x.first + x.count ≤ 1885 ∨ 1885 + 32 ≤ x.first) := by
  and_intros <;> decide

theorem witness_InsertionPortFraming :
    ((loading 130 0 [] .noPacket).Running ∧ (∀ bytes, (loading 130 0 [] .noPacket).csc.framing ≠ .admitted bytes)
      ∧ (loading 130 0 [] .noPacket).csc.iready = true)
    ∧ ((∀ bytes, State.reset.csc.framing ≠ .admitted bytes) ∧ State.reset.csc.iready = false)
    ∧ ((loading 1 0 [] (.admitted [0x47#8])).csc.framing = .admitted [0x47#8]
      ∧ (loading 1 0 [] (.admitted [0x47#8])).csc.load = some { position := 2, accepted := 0, buffer := [], idleLimit := 135000000 }
      ∧ (clipAt? (loading 1 0 [] (.admitted [0x47#8])).csc.directory 2).map (·.expected) = some 1)
    ∧ (loading 130 0 [] .completed).csc.framing = .completed ∧ (loading 130 0 [] .excess).csc.framing = .excess := by
  refine ⟨⟨rfl, fun _ h => (by cases h), ?_⟩, ⟨fun _ h => (by cases h), ?_⟩, ?_⟩
  · decide +kernel
  · decide +kernel
  · and_intros <;> decide +kernel

theorem witness_InsertionPacketIsJudged :
    ((loading 130 0 [] (.admitted [0x47#8])).Running ∧ (loading 130 0 [] (.admitted [0x47#8])).csc.framing = .admitted [0x47#8]
      ∧ (loading 130 0 [] (.admitted [0x47#8])).csc.load =
          some { position := 2, accepted := 0, buffer := [], idleLimit := 135000000 }
      ∧ ([0x47#8] ++ (packetOf 0x47#8 0x200 0x10#8).drop 1).length = 188
      ∧ byteAt ([0x47#8] ++ (packetOf 0x47#8 0x200 0x10#8).drop 1) 1 = 0x47#8
      ∧ streamId ([0x47#8] ++ (packetOf 0x47#8 0x200 0x10#8).drop 1) = 0x200
      ∧ serviceOf? (loading 130 0 [] .noPacket).sst.live.map 0x200 = some .s2
      ∧ serviceOf? (loading 130 0 [] .noPacket).sst.live.map 0x300 ≠ some .s2)
    ∧ byteAt (packetOf 0x46#8 0x200 0x10#8) 1 ≠ 0x47#8
    ∧ streamId (packetOf 0x47#8 8191 0x10#8) = 8191
    ∧ (0x201 ∉ List.replicate 8 0x200 ∧ 8 ≤ (List.replicate 8 0x200).length) := by
  and_intros <;> first | decide +kernel | rfl

/-- The one packet of a load that waits for its write, at memory slot 116,416. -/
def waiting : LoadEntry := ⟨116416, packetOf 0x47#8 0x200 0x10#8, ⟨0, false, 2, false, 0#8⟩⟩

theorem witness_LoadWritesAndTimeout :
    ((loading 130 0 [waiting] .completed).Running ∧ (loading 130 0 [waiting] .completed).grant? = some .loadWrite
      ∧ (loading 130 0 [waiting] .completed).csc.load =
          some { position := 2, accepted := 1, buffer := [waiting], idleLimit := 135000000 }
      ∧ waiting.slot < 524288
      ∧ (clipAt? (loading 130 0 [waiting] .completed).csc.directory 2).map (fun c => decide (c.stored + 1 ≠ c.expected)) = some true
      ∧ (clipAt? (loading 1 0 [waiting] .completed).csc.directory 2).map
          (fun c => (decide (c.stored + 1 = c.expected), decide (c.computedFp = c.expectedFp), c.firstStamp.isSome))
          = some (true, true, true))
    ∧ ({ clip 1 0 0 5 with computedFp := 6#32 }.computedFp ≠ { clip 1 0 0 5 with computedFp := 6#32 }.expectedFp)
    ∧ ({ clip 1 0 0 5 with firstStamp := none }.firstStamp = none)
    ∧ (({ position := 2, idle := some 135000000, idleLimit := 135000000 } : LoadContext).idle = some 135000000
      ∧ ({ position := 2, idle := some 135000000, idleLimit := 135000000 } : LoadContext).idleLimit ≤ 135000000) := by
  and_intros <;> first | decide +kernel | rfl

/-- A part with the read of packet 0 of a clip, asked at memory slot 16,384, at the head of the fetch reads. -/
def clipReading (position : Nat) (id : Word32) : State :=
  (booked .booked).setCsc { (booked .booked).csc with reads := [.clip 5#32 true position id 0 16384] }

theorem witness_ClipReadsAreJudged :
    ((clipReading 1 0x1001#32).Running ∧ (clipReading 1 0x1001#32).csc.taken = none
      ∧ (clipReading 1 0x1001#32).csc.reads = .clip 5#32 true 1 0x1001#32 0 16384 :: []
      ∧ clipAt? (clipReading 1 0x1001#32).csc.directory 1 = some (clip 0x1001 256 1 0x1A2B3C4D)
      ∧ (16384 : Nat) < 524288)
    ∧ (∀ c, clipAt? (clipReading 9 0x1001#32).csc.directory 9 = some c → c.id ≠ 0x1001#32)
    ∧ ((slotInfo (slotImage nullPacket ⟨0, false, 2, false, crc8 nullPacket⟩)).tag = 0 % 65536
      ∧ slotValid (slotImage nullPacket ⟨0, false, 2, false, crc8 nullPacket⟩) = true
      ∧ (slotInfo (slotImage nullPacket ⟨0, false, 2, false, crc8 nullPacket⟩)).check
          = crc8 ((slotImage nullPacket ⟨0, false, 2, false, crc8 nullPacket⟩).take 188))
    ∧ slotValid (List.replicate 192 0#8) = false
    ∧ (State.reset.setCsc { taken := some (.clip 5#32 true .faulty) }).csc.taken = some (.clip 5#32 true .faulty)
    ∧ (State.reset.setCsc { taken := some (.clip 5#32 false .faulty) }).csc.taken = some (.clip 5#32 false .faulty) := by
  refine ⟨?_, fun c h => (by cases h), ?_⟩ <;> and_intros <;> first | decide +kernel | rfl

/-- Break 517 on air, with a slate on service 2 and a window. -/
def slated (w : Window) : State :=
  { booked .active with spe := { services := ⟨{}, { slate := some 0x1003#32, window := w }, {}, {}⟩ } }

theorem witness_SlateCommands :
    (booked .active).Listens .site
    ∧ (Service.ofNat? (2#8 : Byte).toNat = some .s2
      ∧ findClip? (booked .active).csc.directory 0x1003#32 = some (3, clip 0x1003 260 0 5)
      ∧ (clip 0x1003 260 0 5).state = .ready ∧ (clip 0x1003 260 0 5).service = .s2
      ∧ ((booked .active).spe.services.get .s2).slate = none)
    ∧ (4 < (5#8 : Byte).toNat ∧ (0#8 : Byte).toNat < 1)
    ∧ findClip? (booked .active).csc.directory 0x9999#32 = none
    ∧ Service.ofNat? (3#8 : Byte).toNat ≠ some (clip 0x1003 260 0 5).service
    ∧ ((slated .none).Listens .site ∧ ((slated .none).spe.services.get .s2).slate = some 0x1003#32
      ∧ ((slated .none).spe.services.get .s2).window = .none
      ∧ ((slated (.clip 517#16)).spe.services.get .s2).window = .clip 517#16) := by
  and_intros <;> first | decide +kernel | rfl

theorem witness_StreamMapEdits :
    (booked .booked).Listens .site
    ∧ ((4#8 : Byte) ≠ 1#8 ∧ (4#8 : Byte) ≠ 2#8 ∧ (4#8 : Byte) ≠ 3#8 ∧ 8190 < (8191#16).toNat)
    ∧ (∀ e ∈ State.reset.sst.live.map, e.stream ≠ (8190#16).toNat)
    ∧ (8190#16 ≠ 8176#16 ∧ (8190#16).toNat ≤ 8190 ∧ Service.ofNat? (2#8 : Byte).toNat = some .s2)
    ∧ (∃ e ∈ (booked .booked).sst.live.map, e.stream = (0x200#16).toNat)
    ∧ 32 ≤ (List.replicate 32 (MapEntry.mk 5 .carry)).length
    ∧ clockTaken (booked .booked).sst.live.map 8190 (.service .s2 true) = true
    ∧ clockTaken (booked .booked).sst.live.map 8190 (.service .s2 false) = false
    ∧ (StreamClass.service .s2 false).service?.map (booked .booked).serviceBusy ≠ some true
    ∧ (StreamClass.service .s2 false).service?.map (booked .armed).serviceBusy = some true
    ∧ streamClass? (booked .booked).sst.live.map (0x200#16).toNat = some (.service .s2 true) := by
  refine ⟨⟨rfl, rfl⟩, ?_, fun e he => (by cases he), ?_, ⟨_, List.mem_cons_self, rfl⟩, ?_⟩ <;>
    and_intros <;> decide +kernel

theorem witness_SettingWrites :
    State.reset.Listens .site
    ∧ (booked .booked).sst.live.locked .siteNumber = true ∧ State.reset.sst.live.locked .siteNumber = false
    ∧ onceAdmits .siteNumber (65535#32).toInt = false ∧ onceAdmits .siteNumber (65534#32).toInt = true
    ∧ settingLimits? .armLead = some (500, 30000) ∧ (500#32).toInt = 500 ∧ (30000#32).toInt = 30000
    ∧ (499#32).toInt < 500 ∧ 30000 < (30001#32).toInt
    ∧ settingLimits? .timeMessageBaud = none ∧ (3#32).toInt < settingChoices .timeMessageBaud
    ∧ (settingChoices .timeMessageBaud : Int) ≤ (4#32).toInt ∧ (0xFFFFFFFF#32).toInt < 0 := by
  and_intros <;> first | decide +kernel | rfl

theorem witness_SaveAndItsCompletion :
    State.reset.Listens .site ∧ saving.Running ∧ saving.sst.save = some ⟨{ siteNumber := some 305 }, 5⟩
    ∧ (saving.mgp.ports.get .site).result.code = .inProgress := ⟨⟨rfl, rfl⟩, rfl, rfl, rfl⟩

theorem witness_StreamRestartReachesEachBlock :
    ∀ st, (booked st).Listens .site ∧ (booked st).CarrierConsistent ∧ ((booked st).bpu.table.map (·.number)).Nodup
      ∧ (booked st).findBreak? 517#16 = some (break517 st) := by
  intro st
  cases st <;> and_intros <;> first | decide +kernel | rfl

theorem witness_RightsAndTheSaveHold :
    (State.reset.Running ∧ senderOf? (.forceMute .insertion) = some (.insertion, 11)
      ∧ siteOnlyCommand (.forceMute .insertion) = true ∧ State.reset.held .insertion = false)
    ∧ (saving.Running ∧ senderOf? (.forceMute .site) = some (.site, 11) ∧ saving.held .site = true) := by
  and_intros <;> first | decide +kernel | rfl

theorem witness_WritePhaseIsJudged :
    State.reset.Running
    ∧ (0x10#7 ≠ State.reset.mgp.insertionAddress ∧ 0x10#7 ≠ State.reset.mgp.siteAddress)
    ∧ (∀ r, State.reset.sst.live.checkMode r = false ∧ State.reset.held r = false)
    ∧ (0x31#7 = State.reset.mgp.siteAddress ∧ 0x31#7 ≠ State.reset.mgp.insertionAddress)
    ∧ (0x00#8 : Byte).toNat * 256 + (0x12#8 : Byte).toNat = 0x0012 := by
  refine ⟨rfl, ?_, fun r => ⟨(by cases r <;> rfl), (by cases r <;> rfl)⟩, ?_⟩ <;>
    and_intros <;> decide +kernel

theorem witness_ReadsAndClearCounters : State.reset.Running ∧ State.reset.Listens .site := ⟨rfl, rfl, rfl⟩

/-- A part at a pulse with the given counts of relocking pulses, of the consistent run, of lock pulses and of outliers, the last
pulse of the run one second before. -/
def counted (d : DisciplineState) (tick : Nat) (held : Option HeldMessage) (count : Nat) : State :=
  (pulse d tick held (some 6#32)).setTbu { (pulse d tick held (some 6#32)).tbu with
    relockCount := count, runCount := count, runLast := ⟨6#32, tick⟩, lockCount := count, outlierCount := count,
    mismatchCount := count }

theorem witness_PulsesOutsideTheLoop_relock :
    (∀ d, d = .holdover ∨ d = .expired →
      (counted d 27 none 1).Running ∧ (counted d 27 none 1).refok = true ∧ (counted d 27 none 1).tbu.state = d
      ∧ 7#32 = nearestSecond (counted d 27 none 1).tbu.time ∧ 27 = phaseError (counted d 27 none 1).tbu.time
      ∧ (27 : Int).natAbs ≤ (counted d 27 none 1).sst.live.lockWindow ∧ (counted d 27 none 1).sst.live.lockWindow ≤ 2700
      ∧ (counted d 27 none 1).tbu.lastServed ≠ some 7#32
      ∧ (∀ m, (counted d 27 none 1).tbu.held = some m → m.tracking = true → m.seconds = 7#32)
      ∧ (counted d 27 none 1).tbu.relockCount + 1 < 3 ∧ 3 ≤ (counted d 27 none 2).tbu.relockCount + 1)
    ∧ (∀ d, d = .holdover ∨ d = .expired →
      (counted d 2701 none 7).sst.live.lockWindow < (2701 : Int).natAbs
      ∧ ¬ ((2701 : Int).natAbs ≤ 2700000 ∧ (counted d 2701 none 7).tbu.lastServed = some 7#32)
      ∧ 27000000 = (counted d 2701 none 7).tbu.time.since (counted d 2701 none 7).tbu.runLast
      ∧ (counted d 2701 none 7).tbu.runCount + 1 = 8 ∧ (counted d 2701 none 6).tbu.runCount + 1 < 8
      ∧ (counted d 2701 none 7).sst.live.stepThreshold < (2701 : Int).natAbs
      ∧ (counted d 2701 none 7).tbu.time.tick < 27000000 ∧ (counted d 2701 none 7).CarrierConsistent)
    ∧ ((counted .expired 27 (some ⟨9#32, true⟩) 7).tbu.held = some ⟨9#32, true⟩ ∧ (9#32 : Word32) ≠ 7#32
      ∧ (27 : Int).natAbs ≤ (counted .expired 27 (some ⟨9#32, true⟩) 7).sst.live.stepThreshold) := by
  refine ⟨fun d h => ?_, fun d h => ?_, ?_⟩
  · rcases h with rfl | rfl <;> and_intros <;> first | decide +kernel | rfl
  · rcases h with rfl | rfl <;> and_intros <;> decide +kernel
  · and_intros <;> decide +kernel

theorem witness_LockedPulseRunsTheLoop_message :
    ((counted .locked 27 (some ⟨7#32, true⟩) 2).Running ∧ (counted .locked 27 (some ⟨7#32, true⟩) 2).tbu.state = .locked
      ∧ (counted .locked 27 (some ⟨7#32, true⟩) 2).refok = true
      ∧ 7#32 = nearestSecond (counted .locked 27 (some ⟨7#32, true⟩) 2).tbu.time
      ∧ 27 = phaseError (counted .locked 27 (some ⟨7#32, true⟩) 2).tbu.time
      ∧ (counted .locked 27 (some ⟨7#32, true⟩) 2).tbu.held = some ⟨7#32, true⟩
      ∧ (27 : Int).natAbs ≤ (counted .locked 27 (some ⟨7#32, true⟩) 2).sst.live.lockWindow
      ∧ (counted .locked 27 (some ⟨7#32, true⟩) 2).tbu.lastServed ≠ some 7#32)
    ∧ (9#32 : Word32) ≠ 7#32 ∧ (counted .locked 27 (some ⟨9#32, true⟩) 1).tbu.mismatchCount + 1 < 3
    ∧ 3 ≤ (counted .locked 27 (some ⟨9#32, true⟩) 2).tbu.mismatchCount + 1
    ∧ (∀ k, k = 28 ∨ k = 2700001 →
      (counted .locked k none 2).sst.live.lockWindow < (phaseError (counted .locked k none 2).tbu.time).natAbs
      ∧ nearestSecond (counted .locked k none 2).tbu.time = 7#32 ∧ (counted .locked k none 2).tbu.lastServed ≠ some 7#32
      ∧ (counted .locked k none 2).CarrierConsistent)
    ∧ (phaseError (counted .locked 28 none 2).tbu.time).natAbs ≤ 2700000
    ∧ 2700000 < (phaseError (counted .locked 2700001 none 2).tbu.time).natAbs
    ∧ (counted .locked 28 none 1).tbu.outlierCount + 1 < 3 ∧ 3 ≤ (counted .locked 28 none 2).tbu.outlierCount + 1 := by
  refine ⟨?_, ?_, ?_, ?_, fun k h => ?_, ?_⟩
  on_goal 5 => rcases h with rfl | rfl
  all_goals and_intros
  all_goals first | decide +kernel | rfl

theorem witness_AcquiringPulseStepsTheTime_loop :
    ((counted .acquiring 27 none 7).Running ∧ (counted .acquiring 27 none 7).refok = true
      ∧ (counted .acquiring 27 none 7).tbu.state = .acquiring ∧ 7#32 = nearestSecond (counted .acquiring 27 none 7).tbu.time
      ∧ 27 = phaseError (counted .acquiring 27 none 7).tbu.time
      ∧ (27 : Int).natAbs ≤ (counted .acquiring 27 none 7).sst.live.stepThreshold
      ∧ (counted .acquiring 27 none 7).tbu.lastServed ≠ some 7#32
      ∧ (∀ m, (counted .acquiring 27 none 7).tbu.held = some m → m.tracking = true → m.seconds = 7#32)
      ∧ (27 : Int).natAbs ≤ (counted .acquiring 27 none 7).sst.live.lockWindow
      ∧ 8 ≤ (counted .acquiring 27 none 7).tbu.lockCount + 1 ∧ (counted .acquiring 27 none 6).tbu.lockCount + 1 < 8
      ∧ (counted .acquiring 27 none 7).CarrierConsistent)
    ∧ (counted .acquiring 28 none 7).sst.live.lockWindow < (phaseError (counted .acquiring 28 none 7).tbu.time).natAbs
    ∧ ((counted .acquiring 13500000 (some ⟨9#32, true⟩) 7).tbu.held = some ⟨9#32, true⟩
      ∧ nearestSecond (counted .acquiring 13500000 (some ⟨9#32, true⟩) 7).tbu.time ≠ 9#32
      ∧ (counted .acquiring 13500000 (some ⟨9#32, true⟩) 7).tbu.time.tick < 27000000) := by
  refine ⟨?_, ?_, ?_⟩ <;> and_intros <;> first | decide +kernel | rfl

/-- A word that is shifted out, at the start of the bit cycle `k`. -/
def shiftingOut (k : Nat) : Tbu :=
  { State.reset.tbu with shifting := some 0x8013#16, shiftTicks := k * (Config.stclkTicks + 1) + 0 }

theorem witness_SerialLinesOfTheTimeBase_lines (k : Nat) :
    (shiftingOut k).shifting = some 0x8013#16 ∧ 0 ≤ Config.stclkTicks
    ∧ (shiftingOut k).shiftTicks = k * (Config.stclkTicks + 1) + 0 := ⟨rfl, Nat.zero_le _, rfl⟩

/-- The table of `fullTable` with every entry announced, and all of them for services and times of no new break. -/
def unfinishedTable : List BreakEntry := fullTable.map (fun e => { e with state := .announced })

/-- A part with a table, at a notice for break 530. -/
def noticed (table : List BreakEntry) : State :=
  inHand ((booked .booked).setBpu { table := table }) 0x10#8 (notice530 1700001000 1700001010)

theorem witness_FirstNoticeMakesAnEntry_full :
    ((noticed unfinishedTable).findBreak? 530#16 = none ∧ 16 ≤ (noticed unfinishedTable).bpu.table.length
      ∧ overlapsOther unfinishedTable 530#16 .s3 ⟨1700001000#32, 0⟩ ⟨1700001010#32, 0⟩ = false
      ∧ ∀ x ∈ (noticed unfinishedTable).bpu.table, x.state ≠ .ended ∧ x.state ≠ .cancelled)
    ∧ ((noticed fullTable).findBreak? 530#16 = none ∧ 16 ≤ (noticed fullTable).bpu.table.length
      ∧ overlapsOther fullTable 530#16 .s3 ⟨1700001000#32, 0⟩ ⟨1700001010#32, 0⟩ = false
      ∧ ∃ v ∈ fullTable, v.number = 410#16 ∧ (v.state = .ended ∨ v.state = .cancelled)
        ∧ ∀ x ∈ fullTable, (x.state = .ended ∨ x.state = .cancelled) → x ≠ v →
          v.finish.before x.finish = true ∨ (v.finish = x.finish ∧ v.number.toNat < x.number.toNat)) := by
  refine ⟨?_, ?_, ?_, ?_, _, List.mem_cons_of_mem _ List.mem_cons_self, ?_⟩
  all_goals and_intros
  all_goals decide +kernel

/-- Break 517 on air in a blank window. -/
def inBlank : BreakEntry := { break517 .fallback with policy := .blank, windowOpen := true }

/-- The fields that a notice gives for break 517. -/
def fieldsOf (m : Byte) (fields : List Byte) : Option (Option SiteTime × Option SiteTime × Option Word32) :=
  (parseNotice? (toBytes 2 517 ++ [2#8, 12#8, m] ++ fields)).map (fun f => (f.start, f.finish, f.plan))

theorem witness_FirstNoticeMakesAnEntry_revision :
    (∀ st, (inHand (booked st) 0x10#8 (toBytes 2 517 ++ [2#8, 12#8, 0#8])).Running
      ∧ directiveOf (inHand (booked st) 0x10#8 (toBytes 2 517 ++ [2#8, 12#8, 0#8]))
          = some (0x10#8, toBytes 2 517 ++ [2#8, 12#8, 0#8])
      ∧ (booked st).findBreak? 517#16 = some (break517 st))
    ∧ (fieldsOf 0#8 [] = some (none, none, none) ∧ (break517 .booked).start.before (break517 .booked).finish = true
      ∧ overlapsOther (booked .booked).bpu.table 517#16 .s2 (break517 .booked).start (break517 .booked).finish = false)
    ∧ (fieldsOf 1#8 (toBytes 4 1700000090 ++ toBytes 4 26998650) = some (some ⟨1700000090#32, 26998650⟩, none, none)
      ∧ (⟨1700000090#32, 26998650⟩ : SiteTime) ≠ (break517 .armed).start
      ∧ (booked .armed).tbu.time.before ⟨1700000090#32, 26998650⟩ = true
      ∧ (⟨1700000090#32, 26998650⟩ : SiteTime).before (break517 .armed).finish = true
      ∧ overlapsOther (booked .armed).bpu.table 517#16 .s2 ⟨1700000090#32, 26998650⟩ (break517 .armed).finish = false)
    ∧ (fieldsOf 1#8 (toBytes 4 1700000000 ++ toBytes 4 5) = some (some ⟨1700000000#32, 5⟩, none, none)
      ∧ (booked .booked).tbu.time.before ⟨1700000000#32, 5⟩ = false)
    ∧ (fieldsOf 1#8 (toBytes 4 1700000119 ++ toBytes 4 26998650) = some (some ⟨1700000119#32, 26998650⟩, none, none)
      ∧ (⟨1700000119#32, 26998650⟩ : SiteTime).before (break517 .booked).finish = false)
    ∧ (fieldsOf 2#8 (toBytes 4 1700000119 ++ toBytes 4 0) = some (none, some ⟨1700000119#32, 0⟩, none)
      ∧ (⟨1700000119#32, 0⟩ : SiteTime) ≠ (break517 .active).finish)
    ∧ overlapsOther [break517 .booked, { break517 .booked with number := 518#16 }] 517#16 .s2 (break517 .booked).start
        (break517 .booked).finish = true
    ∧ fieldsOf 4#8 (toBytes 4 9) = some (none, none, some 9#32)
    ∧ (inBlank.state = .fallback ∧ inBlank.windowOpen = true)
    ∧ ((noticed [{ break517 .booked with number := 530#16 }]).findBreak? 530#16 = some { break517 .booked with number := 530#16 }
      ∧ Service.s3 ≠ (break517 .booked).service) := by
  refine ⟨fun st => ?_, ?_⟩
  · cases st <;> and_intros <;> first | decide +kernel | rfl
  · and_intros <;> decide +kernel

theorem witness_FirstNoticeMakesAnEntry_malformed :
    ([2#8, 5#8, 2#8, 12#8].length < 5)
    ∧ (parseNotice? (toBytes 2 530 ++ [3#8, 9#8, 0#8])).map (·.area) = some 9#8 ∧ (9#8 : Byte) ≠ 0#8
    ∧ (booked .booked).sst.live.areaCode ≠ some (9#8 : Byte).toNat
    ∧ (⟨0#32, 0⟩ : SiteTime).before ⟨0x80000000#32, 0⟩ = false ∧ (⟨0x80000000#32, 0⟩ : SiteTime).before ⟨0#32, 0⟩ = false := by
  and_intros <;> decide +kernel

theorem witness_CancelAndReturnNow_notDelivered :
    [2#8, 5#8].length ≠ 3
    ∧ ((9#8 : Byte) ≠ 0#8 ∧ (booked .booked).sst.live.areaCode ≠ some (byteAt [2#8, 5#8, 9#8] 3).toNat)
    ∧ 4 < (byteAt [5#8, 0#8] 1).toNat
    ∧ (1 ≤ (byteAt [4#8, 9#8] 1).toNat ∧ (byteAt [4#8, 9#8] 1).toNat ≤ 4
      ∧ (booked .booked).sst.live.areaCode ≠ some (byteAt [4#8, 9#8] 2).toNat) := by
  and_intros <;> decide +kernel

/-- The anchor under which `stepped` runs. -/
def running : Anchor := ⟨49999#32, ⟨2000#32, 1790308⟩, 1692 * 16777216, 7#8⟩

theorem witness_FirstMarkStartsTheSchedule_running :
    ((inHand (stepped 1776772 []) 0x01#8 (markBody 1792000 24000000)).Running
      ∧ (parseMark? (markBody 1792000 24000000)).map (fun m => (m.seq, m.count, m.rate, m.ticks)) = some (8#8, 1, 24000000, 1792000)
      ∧ (stepped 1776772 []).fiu.state = .on ∧ (stepped 1776772 []).esc.anchors.getLast? = some running)
    ∧ sdiff (49999#32) running.ref ≤ 0 ∧ 0 < sdiff (50000#32) running.ref
    ∧ 32 ≤ (stepped 1776772 (List.replicate 31 running)).esc.anchors.length
    ∧ (stepped 1776772 []).esc.anchors.length < 32 ∧ (50000#32 - running.ref).toNat = 1
    ∧ (⟨2000#32, 1792027⟩ : SiteTime).since running.time * 16777216 - ((1 * running.period : Nat) : Int) = 27 * 16777216
    ∧ (⟨2000#32, 1792028⟩ : SiteTime).since running.time * 16777216 - ((1 * running.period : Nat) : Int) = 28 * 16777216
    ∧ (stepped 1776772 []).sst.live.markTolerance = 27
    ∧ (stepped 1776772 []).esc.next.isSome = true := by
  and_intros <;> first | decide +kernel | rfl

theorem witness_SkippedSlotsFailTheTests_times :
    (anchor03.time.tick < 27000000 ∧ (7#32 - anchor03.ref).toNat + 2 < 4294967296
      ∧ ((anchor03.exactTime 7#32).unitsSince ⟨1000#32, 485313⟩).natAbs < 1073741824 * (27000000 * 16777216)
      ∧ 2 * anchor03.period < 536870912 * (27000000 * 16777216) ∧ anchor03.period < 27000000 * 16777216)
    ∧ (firstAccepted ⟨2000#32, 1776772⟩ none 49999#32 [running]).map (fun x => (x.1.slot, x.2)) = some (49999#32, 0) := by
  and_intros <;> decide +kernel

theorem witness_FetchIsRequested_anchors :
    (stepped 1776772 []).esc.anchors ≠ []
    ∧ (firstAccepted (stepped 1776772 []).tbu.time (some ⟨2000#32, 1790308⟩) 50000#32
        (anchorsFrom 50000#32 (stepped 1776772 []).esc.anchors)).map (fun x => (x.1.slot, x.2)) = some (50000#32, 0)
    ∧ ({ stepped 1776772 [] with esc := { (stepped 1776772 []).esc with lastEmission := some ⟨2000#32, 5⟩ } }).esc.lastEmission
        = some ⟨2000#32, 5⟩ := by
  and_intros <;> decide +kernel

/-- The state of `splicing` with an entry in the table, and a window of its service. -/
def inWindow (e : BreakEntry) (x : ServiceState) : State :=
  { splicing with bpu := { table := [e] }, spe := { services := ⟨{}, x, {}, {}⟩, continuity := [⟨0x200, 6, false⟩] } }

theorem witness_HandOffStartsTheBreak_windows (e : BreakEntry) (x : ServiceState) :
    (inWindow e x).Running
    ∧ TargetRead (inWindow e x) 5#32 (slotBytes (packetOf 0x47#8 0x200 0x10#8))
        ⟨5#32, ⟨⟨1700000089#32, 26998650⟩, 0⟩, ⟨1700000089#32, 26998650⟩, 1692 * 16777216, false⟩ .s2
    ∧ (∀ w, w ≠ .s2 → ((inWindow e x).spe.services.get w).window = .none)
    ∧ (inWindow e x).spe.services.get .s2 = x := by
  have h : TargetRead splicing 5#32 (slotBytes (packetOf 0x47#8 0x200 0x10#8))
      ⟨5#32, ⟨⟨1700000089#32, 26998650⟩, 0⟩, ⟨1700000089#32, 26998650⟩, 1692 * 16777216, false⟩ .s2 := by
    refine ⟨?_, ?_, ?_, ?_, ?_, ?_⟩ <;> decide +kernel
  exact ⟨rfl, h, fun w hw => by cases w <;> first | rfl | exact absurd rfl hw, rfl⟩

theorem witness_HandOffStartsTheBreak_each :
    ((inWindow (break517 .active) { window := .clip 517#16, listPos := 2 }).findBreak? 517#16 = some (break517 .active)
      ∧ closesAt (break517 .active) ⟨⟨1700000089#32, 26998650⟩, 0⟩ = false
      ∧ (break517 .active).clips[2 - 1]? = some 0x1002#32
      ∧ findClip? splicing.csc.directory 0x1002#32 = some (2, clip 0x1002 258 1 0x0F0E0D0C)
      ∧ (break517 .active).clips[3 - 1]? = none)
    ∧ (({ window := .blank 517#16 } : ServiceState).window = .blank 517#16 ∧ ({} : ServiceState).slate = none)
    ∧ (opens? [{ break517 .fallback with policy := .blank }] .s2 ⟨⟨1700000089#32, 26998650⟩, 0⟩
          = some { break517 .fallback with policy := .blank }
      ∧ noOtherOpen [{ break517 .fallback with policy := .blank }] .s2 517#16 = true
      ∧ noOtherOpen [{ break517 .fallback with policy := .blank }, { break517 .active with number := 518#16 }] .s2 517#16 = false)
    ∧ ({ break517 .active with closure := some .cancelled }.closure ≠ none
      ∧ (⟨1700000089#32, 26998650⟩ : SiteTime).before { break517 .active with finish := ⟨1700000089#32, 26998650⟩ }.finish = false
      ∧ opens? [break517 .active] .s2 ⟨⟨1700000089#32, 26998650⟩, 0⟩ = none)
    ∧ (({ slate := some 0x1003#32, slatePos := 99 } : ServiceState).slate = some 0x1003#32
      ∧ findClip? splicing.csc.directory 0x1003#32 = some (3, clip 0x1003 260 0 5) ∧ ¬ 99 + 1 < (clip 0x1003 260 0 5).stored) := by
  and_intros <;> decide +kernel

/-- A packet of stream 0x200 with an adaptation field of 7 bytes that has room for the discontinuity mark. -/
def marked : List Byte := setByte (packetOf 0x47#8 0x200 0x37#8) 5 7#8

theorem witness_SlotIsEmitted_contents :
    (∃ r rs, [(⟨6#32, ⟨⟨2000#32, 5176⟩, 0⟩, ⟨2000#32, 5176⟩, 1692 * 16777216, false⟩ : Requested)] = r :: rs
      ∧ (2 * (1692 * 16777216) : Int) < r.instant.since ⟨2000#32, 100⟩ * 16777216)
    ∧ (⟨2000#32, 3484⟩ : SiteTime).since ⟨2000#32, 100⟩ * 16777216 ≤ (2 * (1692 * 16777216) : Int)
    ∧ (carriesStamp (setByte marked 6 0x10#8) = true ∧ Service.ofNat? 2 = some .s2)
    ∧ (continuityOf? [⟨0x200, 6, true⟩] (streamId marked) = some ⟨0x200, 6, true⟩
      ∧ continuityCount marked = expectedCount 6 marked)
    ∧ (continuityCount marked ≠ expectedCount 15 marked ∧ hasMarkRoom marked = true)
    ∧ (continuityCount (packetOf 0x47#8 0x200 0x13#8) ≠ expectedCount 15 (packetOf 0x47#8 0x200 0x13#8)
      ∧ hasMarkRoom (packetOf 0x47#8 0x200 0x13#8) = false)
    ∧ (serviceOf? (booked .booked).sst.live.map (streamId marked)).isSome = true
    ∧ (emitting .released true (.clip ⟨.s2, 0x1001#32, 0, false, true, some 27000, .waiting⟩)).spe.pendingSlots
        = ⟨5#32, ⟨2000#32, 100⟩, .clip ⟨.s2, 0x1001#32, 0, false, true, some 27000, .waiting⟩⟩ :: []
    ∧ (emitting .released true (.clip ⟨.s2, 0x1001#32, 0, false, true, some 27000, .done .faulty⟩)).spe.pendingSlots
        = ⟨5#32, ⟨2000#32, 100⟩, .clip ⟨.s2, 0x1001#32, 0, false, true, some 27000, .done .faulty⟩⟩ :: []
    ∧ (emitting .released true (.clip ⟨.s2, 0x1001#32, 0, false, true, some 27000,
          .done (.good marked ⟨0, false, 2, true, 0#8⟩)⟩)).spe.pendingSlots
        = ⟨5#32, ⟨2000#32, 100⟩, .clip ⟨.s2, 0x1001#32, 0, false, true, some 27000,
            .done (.good marked ⟨0, false, 2, true, 0#8⟩)⟩⟩ :: [] := by
  refine ⟨⟨_, _, rfl, ?_⟩, ?_⟩
  · decide +kernel
  · and_intros <;> decide +kernel

theorem witness_FillAndPacketEnd_lines :
    (({ port := some ⟨nullPacket, 0⟩ } : Esc).port = some ⟨nullPacket, 0⟩ ∧ 0 < 188)
    ∧ ({ port := some ⟨nullPacket, 187⟩ } : Esc).port = some ⟨nullPacket, 187⟩ ∧ ({} : Esc).port = none := ⟨⟨rfl, by decide⟩, rfl, rfl⟩

theorem witness_InsertionPortFraming_refused :
    (loading 0 0 [] (.admitted [0x47#8])).csc.framing = .admitted [0x47#8]
    ∧ (clipAt? (loading 0 0 [] (.admitted [0x47#8])).csc.directory 2).map (·.expected) = some 0
    ∧ (State.reset.setCsc { framing := .admitted [0x47#8] }).csc.load = none := by
  and_intros <;> decide +kernel

theorem witness_StreamMapEdits_service : (5#8 : Byte).toNat < 1 ∨ 4 < (5#8 : Byte).toNat := by decide

theorem witness_SettingWrites_effects :
    (onceAdmits .siteOffset (0#32).toInt = true ∧ onceAdmits .ringSize (16384#32).toInt = true
      ∧ State.reset.sst.live.locked .siteOffset = false ∧ State.reset.sst.live.locked .ringSize = false)
    ∧ ((boundary .holdover 6912).Listens .site ∧ (boundary .holdover 6912).CarrierConsistent
      ∧ (boundary .holdover 6912).tbu.state = .holdover ∧ 256 * 26 < (boundary .holdover 6912).tbu.h)
    ∧ ((onAir 7 7).setEsc { (onAir 7 7).esc with feedOutTimer := some 13500000 }).CarrierConsistent
    ∧ 500 * 27000 ≤ 13500000 ∧ 13500000 < 501 * 27000 := by
  and_intros <;> first | decide +kernel | rfl

theorem witness_StreamRestartReachesEachBlock_on :
    ((onAir 7 7).Listens .site ∧ (onAir 7 7).CarrierConsistent ∧ (onAir 7 7).fiu.state = .on)
    ∧ (locked 7 7).fiu.state ≠ .on
    ∧ ((onAir 7 7).setSst { live := { feedMuteDelay := 0 } }).sst.live.feedMuteDelay = 0 := by
  and_intros <;> first | decide +kernel | rfl

theorem witness_WritePhaseIsJudged_data :
    State.reset.mgp.Addresses 0x31#7 .site ∧ State.reset.mgp.Addresses 0x30#7 .insertion
    ∧ writtenBytes? (.findBreak .site 517#16) = some (.site, [0x00#8, 0x11#8, 0x04#8, 0x02#8, 0x05#8])
    ∧ State.reset.held .site = false
    ∧ (∀ x first data, Instr.findBreak .site 517#16 = .stagingWrite x first data → data.length = stagingForm first.toNat)
    ∧ (∀ x first data, Instr.stagingWrite .site 9#8 [0#8, 0#8, 0x10#8, 1#8] = .stagingWrite x first data →
        data.length = stagingForm first.toNat)
    ∧ ([0x00#8, 0x11#8] ++ [0x10#8, 0#8].drop 0 = [0x00#8, 0x11#8, 0x10#8, 0#8] ∧ 15 < (0x10#8 : Byte).toNat)
    ∧ ([0#8].length < CommandKind.argBytes .reserve ∧ CommandKind.siteOnly .reserve = false)
    ∧ ({ checkModeSite := true } : Settings).checkMode .site = true
    ∧ 0x00#8 ≠ crc8 [0x62#8, 0x00#8, 0x10#8, 0x01#8, 0x03#8] := by
  refine ⟨.inr ⟨rfl, rfl, ?_⟩, .inl ⟨rfl, rfl⟩, ?_, rfl, fun _ _ _ h => (by cases h), fun _ _ _ h => (by cases h; rfl), ?_⟩
  · decide
  · decide +kernel
  · and_intros <;> decide +kernel

theorem witness_ReadsAndClearCounters_objects :
    State.reset.mgp.Addresses 0x31#7 .site
    ∧ State.reset.mgp.transaction.named = none
    ∧ (∀ n : Word16, (State.reset.setMgp { State.reset.mgp with transaction := { named := some (.site, n) } }).mgp.transaction.named
        = some (.site, n)) := ⟨.inr ⟨rfl, rfl, by decide⟩, rfl, fun _ => rfl⟩

/-! ## Single rules: a missing pulse after a step, the port lines, a read phase -/

/-- R8: a boundary declared missing is declared again once a step has carried site time back past it. -/
theorem test_ppsEdge_step_forgets_the_missing :
    after .ppsEdge ((pulse .acquiring 26990000 (some ⟨7#32, true⟩) none).setTbu
        { (pulse .acquiring 26990000 (some ⟨7#32, true⟩) none).tbu with lastMissing := some 7#32 })
      (fun t => (t.tbu.time.sec, t.tbu.lastMissing)) = some (7#32, none) := by
  decide +kernel

/-- R56: the first byte of a driven packet stands on ED0 to ED7 with ESTART and EVALID. -/
theorem test_port_lines :
    ((onAir 7 7).setEsc { (onAir 7 7).esc with port := some ⟨nullPacket, 0⟩ }).esc.ed = 0x47#8
      ∧ ((onAir 7 7).setEsc { (onAir 7 7).esc with port := some ⟨nullPacket, 1⟩ }).esc.estart = false := by
  decide +kernel

/-- R175, R179: a read phase with no object named reads the status summary. -/
theorem test_readPhase_default :
    ((State.reset.readPhase 0x31#7 4).2 = ((State.reset.object? .site 0).getD []).take 4) := by
  decide +kernel

/-- R174, R200: in reset no address is acknowledged. -/
theorem test_readPhase_in_reset :
    (State.reset.enterReset .resetPin).readPhase 0x31#7 4 = (State.reset.enterReset .resetPin, []) := rfl

/-- A part that meets every condition that a step keeps, at the boundary of each: the last tick, the largest estimate of a
HOLDOVER, full queues. -/
theorem witness_StepKeeps :
    ((boundary .holdover 6912).ClockInRange ∧ (boundary .holdover 6912).HoldoverWithinTolerance)
    ∧ (onAir 7 7).CarrierConsistent
    ∧ ((onAir 7 7).setFiu { handoff := List.replicate 4 ⟨[], 0#32⟩ }).QueuesBounded
    ∧ ({ memory := [(5, 1#8)] } : Csc).memory = [(5, 1#8)] ∧ Memory.wf [(5, 1#8)] = true
    ∧ State.reset.BlocksAccounted ∧ saving.SaveConsistent := by
  refine ⟨⟨?_, fun _ => ?_⟩, ?_, ?_, rfl, ?_, ⟨?_, ?_⟩, ?_⟩
  · show (26999999 : Nat) < 27000000
    decide
  · decide +kernel
  all_goals and_intros <;> decide +kernel

theorem witness_ResetEndMeetsTheConditions :
    { State.reset with inReset := some .resetPin }.inReset = some .resetPin
    ∧ { State.reset with inReset := some .resetPin }.MemoryCanonical := ⟨rfl, rfl⟩

end Tests
end Sys2Proof
end

section
/-! PROOFS. Commands while the part runs, what each command may change, and what goes through the Management Port. -/

namespace Sys2Proof
namespace Machine

/-! ## Running -/

theorem ifRunning_of_running {s : State} (h : s.Running) (f : State → State) : ifRunning s f = .next (f s) := by
  unfold ifRunning
  rw [show s.inReset = none from h]

/-- A command of the running part either does its effect or, in reset, nothing. -/
theorem ifRunning_next {s t : State} {f : State → State} (h : ifRunning s f = .next t) : t = s ∨ t = f s := by
  unfold ifRunning at h
  split at h
  · exact .inr (Host.Outcome.next.inj h).symm
  · exact .inl (Host.Outcome.next.inj h).symm

theorem ifRunning_frame {a : List Part} {s t : State} {f : State → State} (h : ifRunning s f = .next t)
    (hf : OnlyChanges a s (f s)) : OnlyChanges a s t := by
  rcases ifRunning_next h with rfl | rfl
  · exact .refl a t
  · exact hf

/-! ## Through the Management Port (R177, R182) -/

/-- A relation from the state before to the state after that a change of the Management Port alone satisfies. -/
structure BeyondPort (R : State → State → Prop) : Prop where
  trans : ∀ {s t u : State}, R s t → R t u → R s u
  port : ∀ {s t : State}, OnlyChanges [.mgp] s t → R s t

theorem OnlyChanges.beyondPort {a : List Part} (h : .mgp ∈ a) : BeyondPort (OnlyChanges a) where
  trans h₁ h₂ := h₁.seq h₂ (fun _ h => h) (fun _ h => h)
  port h₁ := h₁.widen (by simpa using h)

section
variable {R : State → State → Prop} (hR : BeyondPort R)
include hR

theorem BeyondPort.takeCommand (s : State) (r : Role) (k : CommandKind) (args : List Byte) (owner : State → Taken)
    (h : ∀ s, R s (owner s).state) : R s (s.takeCommand r k args owner) := by
  unfold State.takeCommand
  split
  · exact hR.port (refuseHeld_frame s r)
  · split
    · exact hR.port (refuseRights_frame s r _)
    · exact hR.trans (hR.trans (hR.port (updatePort_frame s r _)) (h _)) (hR.port (record_frame _ _ _ _ _))

theorem BeyondPort.takeWrite (s : State) (r : Role) (o : Nat) (b : Bool) (owner : State → Taken)
    (h : ∀ s, R s (owner s).state) : R s (s.takeWrite r o b owner) := by
  unfold State.takeWrite
  split
  · exact hR.port (refuseHeld_frame s r)
  · split
    · exact hR.port (refuseRights_frame s r _)
    · exact hR.trans (h s) (hR.port (record_frame _ _ _ _ _))

end

theorem countOverlong_frame (s : State) (r : Role) (n : Nat) (d : List Byte) : OnlyChanges [.mgp] s (s.countOverlong r n d) := by
  unfold State.countOverlong
  exact .ite (countPort_frame s r _) (.refl _ s)

section
variable {R : State → State → Prop} (hR : BeyondPort R)
include hR

theorem BeyondPort.writeCommand (s : State) (r : Role) (data : List Byte)
    (command : ∀ r k args s, R s (commandOwner r k args s).state) : R s (s.writeCommand r data) := by
  unfold State.writeCommand
  dsimp only
  split
  · exact hR.port (record_frame s r _ _ _)
  · next kind _ =>
    refine hR.trans (hR.port (countOverlong_frame s r kind.argBytes (data.drop 1))) ?_
    split
    · exact hR.port (refuseRights_frame _ r _)
    · split
      · exact hR.port (record_frame _ r _ _ _)
      · exact hR.takeCommand _ r kind _ _ (command r kind _)

theorem BeyondPort.writeSiteObject (s : State) (r : Role) (o n : Nat) (data : List Byte) (owner : List Byte → State → Taken)
    (h : ∀ d s, R s (owner d s).state) : R s (s.writeSiteObject r o n data owner) := by
  unfold State.writeSiteObject
  refine hR.trans (hR.port (countOverlong_frame s r n data)) ?_
  split
  · exact hR.port (refuseRights_frame _ r o)
  · exact hR.takeWrite _ r o true _ (h _)

theorem BeyondPort.stagingWrite (s : State) (r : Role) (c : Byte) (d : List Byte)
    (h : ∀ r c d s, R s (ownStaging r c d s).state) : R s (s.stagingWrite r c d) := by
  unfold State.stagingWrite
  dsimp only
  split
  · exact hR.trans (hR.port (countPort_frame s r _)) (hR.takeWrite _ r _ _ _ (h r c d))
  · exact hR.takeWrite s r _ _ _ (h r c d)

/-- What holds of every owner of a command or object holds of a write phase, which adds changes of the port alone. -/
theorem BeyondPort.writePhase (s : State) (address : BitVec 7) (bytes : List Byte) (byStop : Bool)
    (command : ∀ r k args s, R s (commandOwner r k args s).state) (staging : ∀ r c d s, R s (ownStaging r c d s).state)
    (settings : ∀ d s, R s (ownSettingsWrite d s).state) (edit : ∀ d s, R s (ownEditRecord d s).state) :
    R s (s.writePhase address bytes byStop) := by
  have object : ∀ s r o d, R s (State.writeObject s r o d) := fun s r o d => by
    unfold State.writeObject
    split
    · exact hR.writeCommand s r d command
    · split
      · exact hR.stagingWrite s r _ _ staging
      · split
        · exact hR.writeSiteObject s r _ _ d _ settings
        · split
          · exact hR.writeSiteObject s r _ _ d _ edit
          · exact hR.port (record_frame s r _ _ _)
  have judged : ∀ r f, R s (s.judgePhase r f) := fun r f => by
    unfold State.judgePhase
    split
    · exact hR.port (.refl _ s)
    · exact hR.port (countPort_frame s r _)
    · exact hR.port (.ite ((countPort_frame s r _).seq (record_frame _ r _ _ _)) (countPort_frame s r _))
    · split
      · exact hR.port (.refl _ s)
      · split
        · exact hR.port (refuseHeld_frame s r)
        · exact object s r _ _
  unfold State.writePhase
  split
  · exact hR.port (nameObject_frame s _ _)
  · exact hR.trans (judged _ _) (hR.port (nameObject_frame _ _ _))

end

/-! ## What each command may change -/

theorem enterReset_frame (s : State) (src : ResetSource) :
    OnlyChanges [.inReset, .tbu, .fiu, .esc, .ddc, .bpu, .csc, .spe, .mgp, .sst] s (s.enterReset src) := by
  intro p hp
  cases p <;> first | rfl | simp at hp

theorem endReset_frame (s : State) (src : ResetSource) (a1 a2 : Bool) :
    OnlyChanges [.inReset, .tbu, .fiu, .esc, .ddc, .bpu, .csc, .spe, .mgp, .sst] s (s.endReset src a1 a2) := by
  intro p hp
  cases p <;> first | rfl | simp at hp

theorem openRead_frame (s : State) (r : Role) (o : Nat) : OnlyChanges [.mgp, .sst] s (s.openRead r o) := by
  unfold State.openRead
  exact .ite ((takeCopy_frame s _).seq (setSst_frame _ _)) (takeCopy_frame s _).widen

theorem endRead_frame (s : State) (r : Role) (o n : Nat) : OnlyChanges [.mgp] s (s.endRead r o n) := by
  unfold State.endRead
  exact .ite (updatePort_frame s r _) (.refl _ s)

/-- The parts that a command at its owner may change. -/
def CommandKind.touches : CommandKind → List Part
  | .reserve => [.mgp, .bpu]
  | .confirm => [.mgp, .bpu, .csc]
  | .discard => [.mgp, .bpu]
  | .findBreak => [.mgp]
  | .openLoad => [.mgp, .csc]
  | .abortLoad => [.mgp, .csc]
  | .retireClip => [.mgp, .csc]
  | .clearBooking => [.mgp, .bpu, .csc]
  | .forceSlate => [.mgp, .csc, .spe]
  | .releaseSlate => [.mgp, .csc, .spe]
  | .forceMute => [.mgp, .esc]
  | .releaseMute => [.mgp, .esc]
  | .saveSettings => [.mgp, .sst]
  | .streamRestart => [.mgp, .fiu, .esc, .ddc, .bpu, .csc, .spe, .sst]
  | .clearCounters => [.mgp, .tbu, .fiu, .esc, .ddc, .bpu, .csc, .spe]

theorem commandOwner_frame (r : Role) (k : CommandKind) (args : List Byte) (s : State) :
    OnlyChanges k.touches s (commandOwner r k args s).state := by
  cases k with
  | reserve => exact ownReserve_frame r _ s
  | confirm => exact ownConfirm_frame r s
  | discard => exact ownDiscard_frame r s
  | findBreak => exact ownFindBreak_frame _ s
  | openLoad => exact ownOpenLoad_frame _ _ _ _ s
  | abortLoad => exact ownAbortLoad_frame _ s
  | retireClip => exact ownRetireClip_frame _ s
  | clearBooking => exact ownClearBooking_frame _ s
  | forceSlate => exact ownForceSlate_frame _ _ s
  | releaseSlate => exact ownReleaseSlate_frame _ s
  | forceMute => exact ownForceMute_frame s
  | releaseMute => exact ownReleaseMute_frame s
  | saveSettings => exact ownSaveSettings_frame s
  | streamRestart => exact ownStreamRestart_frame s
  | clearCounters => exact clearCounters_frame s

theorem ownSettingsWrite_frame (d : List Byte) (s : State) :
    OnlyChanges [.mgp, .tbu, .esc, .sst] s (ownSettingsWrite d s).state := by
  have once : ∀ w v, OnlyChanges [.mgp, .tbu, .esc, .sst] s (ownWriteOnce w v s).state := fun w v =>
    (ownWriteOnce_frame w v s).widen
  unfold ownSettingsWrite
  dsimp only
  split
  · exact .refl _ s
  · split
    · exact once _ _
    · exact once _ _
    · exact once _ _
    · exact once _ _
    · split
      · exact .refl _ s
      · split
        · exact ownOperating_frame _ _ s
        · exact .refl _ s

theorem ownEditRecord_frame (d : List Byte) (s : State) : OnlyChanges [.mgp, .sst] s (ownEditRecord d s).state := by
  unfold ownEditRecord
  split
  · exact .refl _ s
  · split
    · exact ownMapEdit_frame _ _ _ _ _ s
    · exact .refl _ s

theorem writePhase_frame (s : State) (address : BitVec 7) (bytes : List Byte) (byStop : Bool) :
    OnlyChanges [.mgp, .tbu, .fiu, .esc, .ddc, .bpu, .csc, .spe, .sst] s (s.writePhase address bytes byStop) :=
  (OnlyChanges.beyondPort (by decide)).writePhase s address bytes byStop
    (fun r k args s => (commandOwner_frame r k args s).widen (by cases k <;> decide))
    (fun r c d s => (ownStaging_frame r c d s).widen)
    (fun d s => (ownSettingsWrite_frame d s).widen)
    (fun d s => (ownEditRecord_frame d s).widen)

theorem cycle_frame (s : State) : OnlyChanges [.tbu, .fiu, .esc, .csc, .sst] s s.cycle := by
  intro p hp
  cases p <;> first | rfl | simp at hp

/-- The parts of the state that a command may change. -/
def touchedParts : Instr → List Part
  | .powerOn | .resetPin | .resetEnds _ _ => [.inReset, .tbu, .fiu, .esc, .ddc, .bpu, .csc, .spe, .mgp, .sst]
  | .siteSecondBoundary => [.tbu, .fiu, .esc, .csc, .mgp, .sst]
  | .ppsEdge | .missingPulse => [.tbu, .esc, .mgp]
  | .refokFall => [.refok, .tbu, .esc, .mgp]
  | .refokRise => [.refok]
  | .timeMessage _ _ | .timeMessageByte _ _ | .timeMessageInterbyteTimeout | .steeringWordSent => [.tbu]
  | .packetComplete _ _ | .shortPacket _ _ | .gapExpiry => [.fiu, .esc, .mgp]
  | .longPacket | .feedPacketOpens _ _ => [.fiu]
  | .feedOutTimerExpiry | .fillEmission => [.esc, .mgp]
  | .feedWrite => [.fiu, .csc]
  | .takeControlPacket => [.fiu, .ddc]
  | .emissionMark | .siteMute => [.ddc, .esc, .mgp]
  | .breakNotice | .breakCancel => [.ddc, .bpu, .csc, .mgp]
  | .returnNow => [.ddc, .bpu]
  | .unknownDirective | .directiveOverrun => [.ddc]
  | .fetchRequest | .ringReadTaken => [.esc, .csc]
  | .ringReadComplete => [.esc, .bpu, .csc, .spe, .mgp]
  | .slotEmission => [.esc, .spe, .mgp]
  | .drivenPacketEnd => [.esc]
  | .armTimeReached _ | .endReached _ => [.bpu, .csc, .mgp]
  | .reserve _ _ => CommandKind.touches .reserve
  | .confirm _ => CommandKind.touches .confirm
  | .discard _ => CommandKind.touches .discard
  | .findBreak _ _ => CommandKind.touches .findBreak
  | .clearBooking _ _ => CommandKind.touches .clearBooking
  | .openLoad _ _ _ _ _ => CommandKind.touches .openLoad
  | .abortLoad _ _ => CommandKind.touches .abortLoad
  | .retireClip _ _ => CommandKind.touches .retireClip
  | .forceSlate _ _ _ => CommandKind.touches .forceSlate
  | .releaseSlate _ _ => CommandKind.touches .releaseSlate
  | .forceMute _ => CommandKind.touches .forceMute
  | .releaseMute _ => CommandKind.touches .releaseMute
  | .saveSettings _ => CommandKind.touches .saveSettings
  | .streamRestart _ => CommandKind.touches .streamRestart
  | .clearCounters _ => CommandKind.touches .clearCounters
  | .saveComplete => [.sst, .mgp]
  | .stagingWrite _ _ _ => [.mgp, .bpu]
  | .streamMapAdd _ _ _ _ _ | .streamMapChange _ _ _ _ _ | .streamMapRemove _ _ _ _ _ => [.mgp, .sst]
  | .writeOnceSettingWrite _ _ _ => [.mgp, .sst]
  | .operatingSettingWrite _ _ _ => [.mgp, .tbu, .esc, .sst]
  | .writePhase _ _ _ => [.mgp, .tbu, .fiu, .esc, .ddc, .bpu, .csc, .spe, .sst]
  | .noticeHeadRead _ _ | .resetCauseRead _ => [.mgp, .sst]
  | .packetAdmitted _ | .insertionPacketRefused | .insertionShortPacket _ | .insertionLongPacket => [.csc]
  | .insertionPacketComplete _ | .loadWrite | .loadIdleTimeout | .clipReadTaken => [.csc, .mgp]
  | .clipReadComplete => [.csc, .spe]

/-! ### The commands whose effect stands in the command's own definition -/

theorem execSiteSecondBoundary_frame {s t : State} (h : execSiteSecondBoundary s = .next t) :
    OnlyChanges [.tbu, .fiu, .esc, .csc, .mgp, .sst] s t := by
  refine ifRunning_frame h (.ite ?_ (.refl _ s))
  exact ((cycle_frame s).seq (setTbu_frame _ _) (c := [.tbu, .fiu, .esc, .csc, .sst])).seq (afterTbu_frame _ _)

theorem execMissingPulse_frame {s t : State} (h : execMissingPulse s = .next t) : OnlyChanges [.tbu, .esc, .mgp] s t :=
  ifRunning_frame h (.ite ((setTbu_frame s _).seq (afterTbu_frame _ _)) (.refl _ s))

theorem execRefokFall_frame {s t : State} (h : execRefokFall s = .next t) : OnlyChanges [.refok, .tbu, .esc, .mgp] s t := by
  unfold execRefokFall at h
  split at h
  · refine (setRefok_frame s false).seq (b := [.tbu, .esc, .mgp]) (ifRunning_frame h ?_)
    exact (setTbu_frame _ _).seq (afterTbu_frame _ _)
  · exact Host.Outcome.next.inj h ▸ .refl _ s

theorem execSteeringWordSent_frame {s t : State} (h : execSteeringWordSent s = .next t) : OnlyChanges [.tbu] s t := by
  refine ifRunning_frame h ?_
  split
  · exact setTbu_frame s _
  · exact .refl _ s

theorem execFeedPacketOpens_frame {s t : State} {b : Byte} {e : Bool} (h : execFeedPacketOpens b e s = .next t) :
    OnlyChanges [.fiu] s t := by
  refine ifRunning_frame h ?_
  split
  · exact .refl _ s
  all_goals exact setFiu_frame s _

theorem execPacketComplete_frame {s t : State} {l : List Byte} {e : Bool} (h : execPacketComplete l e s = .next t) :
    OnlyChanges [.fiu, .esc, .mgp] s t := by
  refine ifRunning_frame h ?_
  split
  · exact .ite (.ite ((setFiu_frame s _).seq (goodPacket_frame _)) ((setFiu_frame s _).seq (badPacket_frame _))) (.refl _ s)
  all_goals exact .refl _ s

theorem execShortPacket_frame {s t : State} {b : Byte} {e : Bool} (h : execShortPacket b e s = .next t) :
    OnlyChanges [.fiu, .esc, .mgp] s t := by
  refine ifRunning_frame h ?_
  split
  · exact (setFiu_frame s _).seq (badPacket_frame _)
  all_goals exact .refl _ s

theorem execLongPacket_frame {s t : State} (h : execLongPacket s = .next t) : OnlyChanges [.fiu] s t := by
  refine ifRunning_frame h ?_
  split
  · exact setFiu_frame s _
  all_goals exact .refl _ s

theorem execGapExpiry_frame {s t : State} (h : execGapExpiry s = .next t) : OnlyChanges [.fiu, .esc, .mgp] s t := by
  refine ifRunning_frame h (.ite ?_ (.refl _ s))
  dsimp only
  split
  · exact (setFiu_frame s _).seq (loseFeed_frame _)
  · exact ((setFiu_frame s _).seq (setFiu_frame _ _) (c := [.fiu])).seq (setFeed_frame _ _)
  all_goals exact (setFiu_frame s _).widen

theorem execFeedWrite_frame {s t : State} (h : execFeedWrite s = .next t) : OnlyChanges [.fiu, .csc] s t := by
  refine ifRunning_frame h (.ite ?_ (.refl _ s))
  split
  · exact .refl _ s
  · next e rest _ =>
    have taken := (setFiu_frame s { s.fiu with writeBuffer := rest }).seq
      (setCsc_frame _ { s.csc with marker := .feed }) (c := [.fiu, .csc])
    dsimp only
    split
    · exact taken.seq (countFiu_frame _ _)
    · exact taken.seq (countFiu_frame _ _)
    · exact taken.seq (setCsc_frame _ _)

theorem execTakeControlPacket_frame {s t : State} (h : execTakeControlPacket s = .next t) : OnlyChanges [.fiu, .ddc] s t := by
  refine ifRunning_frame h ?_
  split
  · exact .refl _ s
  · split
    · exact .refl _ s
    · exact (setFiu_frame s _).seq (setDdc_frame _ _)

theorem execDirectiveOverrun_frame {s t : State} (h : execDirectiveOverrun s = .next t) : OnlyChanges [.ddc] s t := by
  refine ifRunning_frame h ?_
  split
  · split
    · exact (setDdc_frame s _).seq (countDdc_frame _ _)
    · exact .refl _ s
  · exact .refl _ s

theorem execFetchRequest_frame {s t : State} (h : execFetchRequest s = .next t) : OnlyChanges [.esc, .csc] s t := by
  refine ifRunning_frame h ?_
  split
  · exact (request_frame s _).seq (examine_frame _ _)
  · exact .refl _ s

theorem execRingReadTaken_frame {s t : State} (h : execRingReadTaken s = .next t) : OnlyChanges [.esc, .csc] s t := by
  refine ifRunning_frame h (.ite ?_ (.refl _ s))
  split
  · exact (setCsc_frame s _).seq (refreshFetch_frame _)
  all_goals exact .refl _ s

theorem execRingReadComplete_frame {s t : State} (h : execRingReadComplete s = .next t) :
    OnlyChanges [.esc, .bpu, .csc, .spe, .mgp] s t := by
  refine ifRunning_frame h ?_
  split
  · dsimp only
    split
    · exact .ite ((setCsc_frame s _).seq (deliverSlot_frame _ _ _ _)) (setCsc_frame s _).widen
    · exact (setCsc_frame s _).widen
  all_goals exact .refl _ s

theorem execSlotEmission_frame {s t : State} (h : execSlotEmission s = .next t) : OnlyChanges [.esc, .spe, .mgp] s t := by
  refine ifRunning_frame h ?_
  split
  · exact emitSlot_frame s _
  all_goals exact .refl _ s

theorem execFillEmission_frame {s t : State} (h : execFillEmission s = .next t) : OnlyChanges [.esc, .mgp] s t := by
  refine ifRunning_frame h ?_
  split
  · exact emitFill_frame s _
  all_goals exact .refl _ s

theorem execSaveComplete_frame {s t : State} (h : execSaveComplete s = .next t) : OnlyChanges [.sst, .mgp] s t := by
  refine ifRunning_frame h ?_
  split
  · exact (setSst_frame s _).seq (updatePort_frame _ _ _)
  · exact .refl _ s

theorem execInsertionShortPacket_frame {s t : State} {b : Byte} (h : execInsertionShortPacket b s = .next t) :
    OnlyChanges [.csc] s t := by
  refine ifRunning_frame h ?_
  split
  · exact ((setFraming_frame s _).seq (countCsc_frame _ _) (c := [.csc])).seq (openPacket_frame _ _)
  · exact .refl _ s

theorem execInsertionPacketComplete_frame {s t : State} {l : List Byte} (h : execInsertionPacketComplete l s = .next t) :
    OnlyChanges [.csc, .mgp] s t := by
  refine ifRunning_frame h ?_
  split
  · exact .ite (completeInsertion_frame s _ _ _) (.refl _ s)
  all_goals exact .refl _ s

theorem execLoadWrite_frame {s t : State} (h : execLoadWrite s = .next t) : OnlyChanges [.csc, .mgp] s t := by
  refine ifRunning_frame h (.ite ?_ (.refl _ s))
  split
  · split
    · exact takeLoadWrite_frame s _ _ _ _
    · exact .refl _ s
  · exact .refl _ s

theorem execLoadIdleTimeout_frame {s t : State} (h : execLoadIdleTimeout s = .next t) : OnlyChanges [.csc, .mgp] s t := by
  refine ifRunning_frame h ?_
  split
  · exact .ite (faultLoad_frame s _ _ _) (.refl _ s)
  · exact .refl _ s

theorem execClipReadTaken_frame {s t : State} (h : execClipReadTaken s = .next t) : OnlyChanges [.csc, .mgp] s t := by
  refine ifRunning_frame h (.ite ?_ (.refl _ s))
  split
  · dsimp only
    split
    · exact .ite ((setCsc_frame s _).seq (takeClipRead_frame _ _ _ _ _ _)) (setCsc_frame s _).widen
    · exact (setCsc_frame s _).widen
  all_goals exact .refl _ s

theorem execClipReadComplete_frame {s t : State} (h : execClipReadComplete s = .next t) : OnlyChanges [.csc, .spe] s t := by
  refine ifRunning_frame h ?_
  split
  · exact .ite ((setCsc_frame s _).seq (setSpe_frame _ _)) (setCsc_frame s _).widen
  all_goals exact .refl _ s

/-! ### Every command -/

/-- A role's command changes what its owner may change. -/
theorem takeCommand_touches {s t : State} {r : Role} {k : CommandKind} {args : List Byte} {owner : State → Taken}
    (h : ifRunning s (·.takeCommand r k args owner) = .next t) (ho : ∀ s, OnlyChanges k.touches s (owner s).state) :
    OnlyChanges k.touches s t :=
  ifRunning_frame h ((OnlyChanges.beyondPort (by cases k <;> decide)).takeCommand s r k args owner ho)

/-- A write of another object changes what its owner may change. -/
theorem takeWrite_touches {a : List Part} {s t : State} {r : Role} {o : Nat} {b : Bool} {owner : State → Taken}
    (h : ifRunning s (·.takeWrite r o b owner) = .next t) (ho : ∀ s, OnlyChanges (.mgp :: a) s (owner s).state) :
    OnlyChanges (.mgp :: a) s t :=
  ifRunning_frame (f := (·.takeWrite r o b owner)) h (takeWrite_frame s r o b owner ho)

/-- A directive changes what its handling may change. -/
theorem onDirective_touches {a : List Part} {s t : State} {k : Byte → Bool} {f : State → InHand → Directive → State}
    (h : ifRunning s (·.onDirective k f) = .next t) (hf : ∀ s i d, OnlyChanges (.ddc :: a) s (f s i d)) :
    OnlyChanges (.ddc :: a) s t :=
  ifRunning_frame (f := (·.onDirective k f)) h (onDirective_frame s k f hf)

theorem exec_frame {c : Instr} {s t : State} (h : exec c s = .next t) : OnlyChanges (touchedParts c) s t := by
  cases c with
  | powerOn => exact Host.Outcome.next.inj h ▸ enterReset_frame s .powerOn
  | resetPin => exact Host.Outcome.next.inj h ▸ enterReset_frame s .resetPin
  | resetEnds a1 a2 =>
    change execResetEnds a1 a2 s = .next t at h
    unfold execResetEnds at h
    split at h
    · exact Host.Outcome.next.inj h ▸ endReset_frame s _ a1 a2
    · exact Host.Outcome.next.inj h ▸ .refl _ s
  | siteSecondBoundary => exact execSiteSecondBoundary_frame h
  | ppsEdge => exact ifRunning_frame h (pulse_frame s)
  | missingPulse => exact execMissingPulse_frame h
  | refokFall => exact execRefokFall_frame h
  | refokRise => exact Host.Outcome.next.inj h ▸ setRefok_frame s true
  | timeMessage b e => exact ifRunning_frame (f := (·.receive b e)) h (receive_frame s b e)
  | timeMessageByte b e => exact ifRunning_frame (f := (·.receive b e)) h (receive_frame s b e)
  | timeMessageInterbyteTimeout => exact ifRunning_frame h (.ite (badMessage_frame s) (.refl _ s))
  | steeringWordSent => exact execSteeringWordSent_frame h
  | packetComplete l e => exact execPacketComplete_frame h
  | shortPacket b e => exact execShortPacket_frame h
  | longPacket => exact execLongPacket_frame h
  | gapExpiry => exact execGapExpiry_frame h
  | feedOutTimerExpiry => exact ifRunning_frame h (.ite (feedOut_frame s) (.refl _ s))
  | feedWrite => exact execFeedWrite_frame h
  | takeControlPacket => exact execTakeControlPacket_frame h
  | emissionMark => exact onDirective_touches h (reachMark_frame)
  | breakNotice => exact onDirective_touches h (reachNotice_frame)
  | breakCancel => exact onDirective_touches h (reachCancel_frame)
  | returnNow => exact onDirective_touches h (reachReturn_frame)
  | siteMute => exact onDirective_touches h (reachMute_frame)
  | unknownDirective => exact onDirective_touches h (reachUnknown_frame)
  | directiveOverrun => exact execDirectiveOverrun_frame h
  | fetchRequest => exact execFetchRequest_frame h
  | ringReadTaken => exact execRingReadTaken_frame h
  | ringReadComplete => exact execRingReadComplete_frame h
  | slotEmission => exact execSlotEmission_frame h
  | fillEmission => exact execFillEmission_frame h
  | drivenPacketEnd => exact ifRunning_frame h (.ite (setEsc_frame s _) (.refl _ s))
  | armTimeReached n => exact ifRunning_frame (f := (·.reachArm n)) h (reachArm_frame s n)
  | endReached n => exact ifRunning_frame (f := (·.reachEnd n)) h (reachEnd_frame s n)
  | reserve r n => exact takeCommand_touches h (ownReserve_frame r n)
  | confirm r => exact takeCommand_touches h (ownConfirm_frame r)
  | discard r => exact takeCommand_touches h (ownDiscard_frame r)
  | findBreak r n => exact takeCommand_touches h (ownFindBreak_frame n)
  | clearBooking r n => exact takeCommand_touches h (ownClearBooking_frame n)
  | openLoad r id v n fp => exact takeCommand_touches h (ownOpenLoad_frame id v n fp)
  | abortLoad r id => exact takeCommand_touches h (ownAbortLoad_frame id)
  | retireClip r id => exact takeCommand_touches h (ownRetireClip_frame id)
  | forceSlate r v id => exact takeCommand_touches h (ownForceSlate_frame v id)
  | releaseSlate r v => exact takeCommand_touches h (ownReleaseSlate_frame v)
  | forceMute r => exact takeCommand_touches h ownForceMute_frame
  | releaseMute r => exact takeCommand_touches h ownReleaseMute_frame
  | saveSettings r => exact takeCommand_touches h ownSaveSettings_frame
  | saveComplete => exact execSaveComplete_frame h
  | streamRestart r => exact takeCommand_touches h ownStreamRestart_frame
  | clearCounters r => exact takeCommand_touches h clearCounters_frame
  | stagingWrite r c d => exact ifRunning_frame (f := (·.stagingWrite r c d)) h (stagingWrite_frame s r c d)
  | streamMapAdd r n c v k => exact takeWrite_touches h (ownMapEdit_frame .add n c v k)
  | streamMapChange r n c v k => exact takeWrite_touches h (ownMapEdit_frame .change n c v k)
  | streamMapRemove r n c v k => exact takeWrite_touches h (ownMapEdit_frame .remove n c v k)
  | writeOnceSettingWrite r w v => exact takeWrite_touches h (ownWriteOnce_frame w v)
  | operatingSettingWrite r o v => exact takeWrite_touches h (ownOperating_frame o v)
  | writePhase a b e => exact ifRunning_frame (f := (·.writePhase a b e)) h (writePhase_frame s a b e)
  | noticeHeadRead r n =>
    exact ifRunning_frame (f := fun s => (s.openRead r noticeHeadObject).endRead r noticeHeadObject n) h
      ((openRead_frame s r _).seq (endRead_frame _ r _ n) (c := [.mgp, .sst]))
  | resetCauseRead r => exact ifRunning_frame (f := (·.openRead r resetCauseObject)) h (openRead_frame s r _)
  | packetAdmitted b => exact ifRunning_frame h (.ite (openPacket_frame s b) (.refl _ s))
  | insertionPacketRefused => exact ifRunning_frame h (.ite (openPacket_frame s 0) (.refl _ s))
  | insertionShortPacket b => exact execInsertionShortPacket_frame h
  | insertionLongPacket =>
    exact ifRunning_frame h (.ite ((setFraming_frame s _).seq (countCsc_frame _ _)) (.refl _ s))
  | insertionPacketComplete l => exact execInsertionPacketComplete_frame h
  | loadWrite => exact execLoadWrite_frame h
  | loadIdleTimeout => exact execLoadIdleTimeout_frame h
  | clipReadTaken => exact execClipReadTaken_frame h
  | clipReadComplete => exact execClipReadComplete_frame h
  | feedPacketOpens b e => exact execFeedPacketOpens_frame h

end Machine
end Sys2Proof
end

section
/-! PROOFS. What each operation of the Time Base Unit makes of it, as one update of its fields. -/

namespace Sys2Proof
namespace Machine

/-! ## The steering output and the loop (R18, R20) -/

/-- The word that the steering output sends for a steering value, as offset binary (R20). -/
def steeringWord (w : Int) : Word16 := BitVec.ofInt 16 (w + 32768)

theorem Tbu.send_eq (t : Tbu) (w : Int) : t.send w = { t with
    shifting := some (t.shifting.getD (steeringWord w))
    waiting := if t.shifting = none then t.waiting else some (steeringWord w) } := by
  unfold Tbu.send
  split
  · next h => simp [h, steeringWord]
  · next h => simp [h, steeringWord]

/-- A loop pulse, with the limited error `ec`, the integrator `i` and the word `w` before it is limited (R18). -/
theorem Tbu.loop_eq (t : Tbu) (gp gi : Nat) (e : Int) {ec i w : Int} (hec : ec = max (-32768) (min 32767 e))
    (hi : i = max (-34359738368) (min 34359738367 (t.integrator - ec * 2 ^ gi)))
    (hw : w = convergent (i - ec * 2 ^ gp) 65536) : t.loop gp gi e = { t with
      integrator := i
      integratorSat := decide (i ≠ t.integrator - ec * 2 ^ gi)
      steer := max (-32768) (min 32767 w)
      steerSat := decide (max (-32768) (min 32767 w) ≠ w)
      lastLoopError := e
      shifting := some (t.shifting.getD (steeringWord (max (-32768) (min 32767 w))))
      waiting := if t.shifting = none then t.waiting else some (steeringWord (max (-32768) (min 32767 w))) } := by
  have hs : i + -ec * 2 ^ gp = i - ec * 2 ^ gp := by rw [Int.neg_mul, Int.sub_eq_add_neg]
  subst hw hi hec
  simp only [Tbu.loop, Tbu.send_eq, clampSteer, clampIntegrator, clampInt, hs]
  rfl

/-! ## Holdover (R14, R15) -/

theorem Tbu.expire_eq (t : Tbu) (x : Settings) : t.expire x = { t with
    state := if t.state = .holdover ∧ 256 * x.emissionTolerance < t.h then .expired else t.state } := by
  unfold Tbu.expire Settings.holdoverLimit
  split <;> rfl

theorem Tbu.enterHoldover_eq (t : Tbu) (x : Settings) (c : HoldoverCause) : t.enterHoldover x c = { t with
    state := if 256 * x.emissionTolerance < min (256 * t.lastLoopError.natAbs) 281474976710655 then .expired else .holdover
    cause := some c
    steer := max (-32768) (min 32767 (convergent t.integrator 65536))
    steerSat := decide (max (-32768) (min 32767 (convergent t.integrator 65536)) ≠ convergent t.integrator 65536)
    eLast := t.lastLoopError
    n := 0
    h := min (256 * t.lastLoopError.natAbs) 281474976710655
    relockCount := 0
    runCount := 0
    shifting := some (t.shifting.getD (steeringWord (max (-32768) (min 32767 (convergent t.integrator 65536)))))
    waiting := if t.shifting = none then t.waiting
      else some (steeringWord (max (-32768) (min 32767 (convergent t.integrator 65536)))) } := by
  simp only [Tbu.enterHoldover, Tbu.expire_eq, Tbu.send_eq, clampSteer, clampInt, capH, true_and]
  rfl

/-! ## Site time of a pulse (R2, R7) -/

/-- The tick of a time that arithmetic gives lies within its second. -/
theorem SiteTime.add_tick_lt (t : SiteTime) (k : Int) : (t.add k).tick < 27000000 := by
  simp only [SiteTime.add, Config.ticksPerSecond]
  omega

/-- A phase step carries site time to the pulse's nearest second (R2, R7). -/
theorem SiteTime.add_neg_phaseError (t : SiteTime) : t.add (-phaseError t) = { sec := nearestSecond t, tick := 0 } := by
  unfold SiteTime.add phaseError nearestSecond Config.ticksPerSecond
  split
  · simp
  · have hz : (t.tick : Int) + -((t.tick : Int) - (27000000 : Nat)) = 27000000 := by omega
    simp only [hz]
    rfl

/-! ## The message of a pulse (R6) -/

/-- What the message that a pulse consumes says of the pulse's nearest second. -/
def Tbu.message (t : Tbu) : PulseMessage := pulseMessage t.held (nearestSecond t.time)

theorem Tbu.message_none {t : Tbu} (h : ∀ m, t.held = some m → m.tracking = false) : t.message = .none := by
  unfold Tbu.message pulseMessage
  split
  · next m hm => simp [h m hm]
  · rfl

theorem Tbu.message_agreeing {t : Tbu} {m : HeldMessage} (h : t.held = some m) (ht : m.tracking = true)
    (hs : m.seconds = nearestSecond t.time) : t.message = .agreeing := by simp [Tbu.message, pulseMessage, h, ht, hs]

theorem Tbu.message_disagreeing {t : Tbu} {m : HeldMessage} (h : t.held = some m) (ht : m.tracking = true)
    (hs : m.seconds ≠ nearestSecond t.time) : t.message = .disagreeing m.seconds := by
  simp [Tbu.message, pulseMessage, h, ht, hs]

theorem Tbu.message_not_disagreeing {t : Tbu} (h : ∀ m, t.held = some m → m.tracking = true → m.seconds = nearestSecond t.time)
    (sec : Word32) : t.message ≠ .disagreeing sec := by
  unfold Tbu.message pulseMessage
  split
  · next m hm =>
    by_cases ht : m.tracking = true
    · simp [ht, h m hm ht]
    · simp [ht]
  · exact fun h => nomatch h

/-- A message that disagrees is counted, and no other (R6, R22). -/
def PulseMessage.counted (m : PulseMessage) (c : TbuCounters) : TbuCounters :=
  match m with
  | .disagreeing _ => { c with messageMismatches := bump c.messageMismatches }
  | .agreeing => c
  | .none => c

theorem PulseMessage.counted_of_not {m : PulseMessage} (h : ∀ sec, m ≠ .disagreeing sec) (c : TbuCounters) : m.counted c = c := by
  cases m with
  | disagreeing sec => exact absurd rfl (h sec)
  | agreeing => rfl
  | none => rfl

/-! ## A taken pulse (R3, R8) -/

/-- An in-window pulse for a boundary already served (R8). -/
def Tbu.Extra (t : Tbu) : Prop := (phaseError t.time).natAbs ≤ 2700000 ∧ t.lastServed = some (nearestSecond t.time)

/-- A taken pulse before the state handles it: the message is consumed and counted, and an in-window pulse serves its boundary
(R3, R6, R8, R13). -/
def Tbu.taken (t : Tbu) : Tbu := { t with
  held := none
  lastServed := if (phaseError t.time).natAbs ≤ 2700000 then some (nearestSecond t.time) else t.lastServed
  missingCount := if (phaseError t.time).natAbs ≤ 2700000 ∧ t.state = .locked then 0 else t.missingCount
  counters := t.message.counted t.counters }

/-- A pulse in UNSET (R10). -/
theorem pulse_unset {s : State} (hr : s.refok = true) (hu : s.tbu.state = .unset) :
    s.pulse = ((s.setTbu { s.tbu with held := none }).setTime s.tbu.held).afterTbu .unset := by
  simp [State.pulse, hr, hu]

theorem afterTbu_of_same {s : State} {old : DisciplineState} (h : s.tbu.state = old) : s.afterTbu old = s := if_pos h

theorem pulse_handled {s : State} (hr : s.refok = true) (hu : s.tbu.state ≠ .unset) :
    s.pulse = ((s.setTbu { s.tbu with held := none }).takenPulse s.tbu.held).afterTbu s.tbu.state := by
  unfold State.pulse
  rw [if_pos hr, if_neg hu]

theorem takenPulse_extra {s : State} (hx : s.tbu.Extra) (held : Option HeldMessage) :
    (s.setTbu { s.tbu with held := none }).takenPulse held = s.setTbu { s.tbu with
      held := none, counters := { s.tbu.counters with extraPulses := bump s.tbu.counters.extraPulses } } := by
  unfold State.takenPulse
  refine if_pos ?_
  simp only [Bool.and_eq_true, decide_eq_true_eq, beq_iff_eq]
  exact hx

/-- An extra pulse is counted, and consumes its message unchecked (R8). -/
theorem pulse_extra {s : State} (hr : s.refok = true) (hu : s.tbu.state ≠ .unset) (hx : s.tbu.Extra) :
    s.pulse = s.setTbu { s.tbu with
      held := none, counters := { s.tbu.counters with extraPulses := bump s.tbu.counters.extraPulses } } := by
  rw [pulse_handled hr hu, takenPulse_extra hx]
  exact afterTbu_of_same rfl

/-- What the state makes of a taken pulse. -/
def State.handled (s : State) (u : Tbu) : State :=
  match s.tbu.state with
  | .unset => s.setTbu u
  | .acquiring => s.setTbu (u.acquiringPulse s.sst.live (phaseError s.tbu.time) s.tbu.message)
  | .locked => (s.setTbu u).lockedPulse (phaseError s.tbu.time) s.tbu.message
  | .holdover => s.setTbu (u.holdoverPulse s.sst.live s.tbu.time (phaseError s.tbu.time) s.tbu.message)
  | .expired => s.setTbu (u.holdoverPulse s.sst.live s.tbu.time (phaseError s.tbu.time) s.tbu.message)

theorem takenPulse_eq {s : State} (hx : ¬ s.tbu.Extra) :
    (s.setTbu { s.tbu with held := none }).takenPulse s.tbu.held = s.handled s.tbu.taken := by
  unfold State.takenPulse
  refine Eq.trans (if_neg ?_) ?_
  · simp only [Bool.and_eq_true, decide_eq_true_eq, beq_iff_eq]
    exact hx
  · unfold State.handled Tbu.taken Tbu.message PulseMessage.counted
    by_cases hw : (phaseError s.tbu.time).natAbs ≤ 2700000
    · simp only [State.setTbu_tbu, State.setTbu_sst, Config.windowTicks, hw, decide_true, if_true, true_and]
      cases pulseMessage s.tbu.held (nearestSecond s.tbu.time) <;> rfl
    · simp only [State.setTbu_tbu, State.setTbu_sst, Config.windowTicks, hw, decide_false, if_false, false_and]
      cases pulseMessage s.tbu.held (nearestSecond s.tbu.time) <;> rfl

theorem pulse_taken {s : State} (hr : s.refok = true) (hu : s.tbu.state ≠ .unset) (hx : ¬ s.tbu.Extra) :
    s.pulse = (s.handled s.tbu.taken).afterTbu s.tbu.state := by
  rw [pulse_handled hr hu, takenPulse_eq hx]

/-! ## A pulse in ACQUIRING (R11) -/

/-- Above the step threshold a pulse carries site time to its nearest second, counted as one step (R2, R8). -/
theorem Tbu.acquiringPulse_phaseStep {t : Tbu} {x : Settings} {m : PulseMessage}
    (h : x.stepThreshold < (phaseError t.time).natAbs) (hm : ∀ sec, m ≠ .disagreeing sec) :
    t.acquiringPulse x (phaseError t.time) m = { t with
      time := { sec := nearestSecond t.time, tick := 0 }
      lockCount := 0
      lastServed := some (nearestSecond t.time)
      lastMissing := none
      counters := { t.counters with timeSteps := bump t.counters.timeSteps } } := by
  have phase : t.acquirePhase x (phaseError t.time) =
      { t with time := { sec := nearestSecond t.time, tick := 0 }, lockCount := 0 } := by
    rw [Tbu.acquirePhase, if_pos h, SiteTime.add_neg_phaseError]
  have steps : pulseSteps x (phaseError t.time) m = true := by simp [pulseSteps, h]
  unfold Tbu.acquiringPulse
  rw [steps, phase]
  cases m with
  | disagreeing sec => exact absurd rfl (hm sec)
  | agreeing => rfl
  | none => rfl

/-- With a message that disagrees the step ends at the message's second. -/
theorem Tbu.acquiringPulse_bothSteps {t : Tbu} {x : Settings} {sec : Word32}
    (h : x.stepThreshold < (phaseError t.time).natAbs) :
    t.acquiringPulse x (phaseError t.time) (.disagreeing sec) = { t with
      time := { sec := sec, tick := 0 }
      lockCount := 0
      lastServed := some sec
      lastMissing := none
      counters := { t.counters with timeSteps := bump t.counters.timeSteps } } := by
  have phase : t.acquirePhase x (phaseError t.time) =
      { t with time := { sec := nearestSecond t.time, tick := 0 }, lockCount := 0 } := by
    rw [Tbu.acquirePhase, if_pos h, SiteTime.add_neg_phaseError]
  have steps : pulseSteps x (phaseError t.time) (.disagreeing sec) = true := by simp [pulseSteps]
  unfold Tbu.acquiringPulse
  rw [steps, phase]
  rfl

/-- A second-count step makes the message's second the nearest one (R2). -/
theorem nearestSecond_ofMessage (sec : Word32) (tick : Nat) :
    nearestSecond { sec := if tick < 13500000 then sec else sec - 1, tick := tick } = sec := by
  unfold nearestSecond
  dsimp only
  split
  · rfl
  · exact BitVec.sub_add_cancel sec 1

/-- Up to the step threshold a message that disagrees steps the second count after the loop pulse. -/
theorem Tbu.acquiringPulse_secondStep {t : Tbu} {x : Settings} {e : Int} {sec : Word32} (h : ¬ x.stepThreshold < e.natAbs) :
    t.acquiringPulse x e (.disagreeing sec) = { t.loop x.acquireGp x.acquireGi e with
      time := { sec := if t.time.tick < 13500000 then sec else sec - 1, tick := t.time.tick }
      lockCount := 0
      lastServed := some sec
      lastMissing := none
      counters := { t.counters with timeSteps := bump t.counters.timeSteps } } := by
  have steps : pulseSteps x e (.disagreeing sec) = true := by simp [pulseSteps]
  have served : nearestSecond { sec := if t.time.tick < 13500000 then sec else sec - 1, tick := t.time.tick } = sec :=
    nearestSecond_ofMessage sec _
  unfold Tbu.acquiringPulse
  rw [steps, Tbu.acquirePhase, if_neg h, Tbu.loop_eq t _ _ e rfl rfl rfl]
  simp [Tbu.acquireSecond, Tbu.afterStep]
  exact served

/-- Up to the step threshold, with no message that disagrees, the loop runs, and the eighth pulse in a row inside the lock window
enters LOCKED. -/
theorem Tbu.acquiringPulse_loop {t : Tbu} {x : Settings} {e : Int} {m : PulseMessage} {locks : Nat}
    (h : ¬ x.stepThreshold < e.natAbs) (hm : ∀ sec, m ≠ .disagreeing sec)
    (hl : locks = if e.natAbs ≤ x.lockWindow then t.lockCount + 1 else 0) :
    t.acquiringPulse x e m = if 8 ≤ locks then ({ t.loop x.acquireGp x.acquireGi e with lockCount := locks } : Tbu).enterLocked
      else { t.loop x.acquireGp x.acquireGi e with lockCount := locks } := by
  subst hl
  unfold Tbu.acquiringPulse
  rw [Tbu.acquirePhase, if_neg h]
  cases m with
  | disagreeing sec => exact absurd rfl (hm sec)
  | agreeing => simp [pulseSteps, h, Tbu.acquireSecond]
  | none => simp [pulseSteps, h, Tbu.acquireSecond]

/-! ## A pulse in HOLDOVER or EXPIRED (R16, R17) -/

/-- A pulse inside the lock window whose message does not disagree counts toward relock. -/
theorem Tbu.holdoverPulse_relock {t : Tbu} {x : Settings} {p : SiteTime} {e : Int} {m : PulseMessage}
    (h : e.natAbs ≤ x.lockWindow) (hm : ∀ sec, m ≠ .disagreeing sec) :
    t.holdoverPulse x p e m =
      if 3 ≤ t.relockCount + 1 then ({ t with relockCount := t.relockCount + 1, runCount := 0 } : Tbu).enterLocked
      else { t with relockCount := t.relockCount + 1, runCount := 0 } := by
  unfold Tbu.holdoverPulse
  cases m with
  | disagreeing sec => exact absurd rfl (hm sec)
  | agreeing => exact if_pos (by simp [h])
  | none => exact if_pos (by simp [h])

/-- Any other pulse extends or restarts the consistent run, whose eighth enters ACQUIRING. -/
theorem Tbu.holdoverPulse_run {t : Tbu} {x : Settings} {p : SiteTime} {e : Int} {m : PulseMessage}
    (h : x.lockWindow < e.natAbs ∨ ∃ sec, m = .disagreeing sec) :
    t.holdoverPulse x p e m = if 8 ≤ (t.extendRun x p).runCount then (t.extendRun x p).enterAcquiring.acquiringPulse x e m
      else t.extendRun x p := by
  unfold Tbu.holdoverPulse
  refine if_neg ?_
  rcases h with h | ⟨sec, rfl⟩
  · simp [Nat.not_le.2 h]
  · simp

/-! ## A pulse in LOCKED (R12, R19) -/

/-- The steer-limit run, and STEER-LIMIT at its sixteenth saturated word (R19, R21). -/
theorem steerLimit_eq (s : State) : s.steerLimit =
    if s.tbu.steerSat = true ∧ s.tbu.steerLimitRun + 1 = 16 then
      (s.setTbu { s.tbu with steerLimitRun :=
        if s.tbu.steerSat then min (s.tbu.steerLimitRun + 1) (max 16 s.tbu.steerLimitRun) else 0 }).raiseSite
        .steerLimit .none (.steer (decide (0 < s.tbu.steer)))
    else s.setTbu { s.tbu with steerLimitRun :=
      if s.tbu.steerSat then min (s.tbu.steerLimitRun + 1) (max 16 s.tbu.steerLimitRun) else 0 } := by
  unfold State.steerLimit
  cases hs : s.tbu.steerSat with
  | false => simp
  | true =>
    by_cases hr : s.tbu.steerLimitRun < 16
    · have hm : min (s.tbu.steerLimitRun + 1) (max 16 s.tbu.steerLimitRun) = s.tbu.steerLimitRun + 1 := by omega
      simp only [if_true, hr, hm, true_and]
    · have hm : min (s.tbu.steerLimitRun + 1) (max 16 s.tbu.steerLimitRun) = s.tbu.steerLimitRun := by omega
      have hn : ¬ s.tbu.steerLimitRun + 1 = 16 := by omega
      simp only [if_true, hr, hm, hn, and_false, if_false]
      rfl

/-- The counts of a pulse in LOCKED judged: three outliers, or three messages that disagree, enter HOLDOVER (R12). -/
def Tbu.judged (t : Tbu) (x : Settings) (m : PulseMessage) : Tbu :=
  if 3 ≤ t.outlierCount then ({ t with mismatchCount := mismatchAfter t.mismatchCount m } : Tbu).enterHoldover x .refJump
  else if 3 ≤ mismatchAfter t.mismatchCount m then
    ({ t with mismatchCount := mismatchAfter t.mismatchCount m } : Tbu).enterHoldover x .timeMismatch
  else { t with mismatchCount := mismatchAfter t.mismatchCount m }

def State.judged (s : State) (m : PulseMessage) : State := s.setTbu (s.tbu.judged s.sst.live m)

/-- A pulse inside the lock window runs the loop with the track gains. -/
theorem lockedPulse_loop {s : State} {e : Int} (m : PulseMessage) (h : e.natAbs ≤ s.sst.live.lockWindow) : s.lockedPulse e m =
    (s.setTbu { s.tbu.loop s.sst.live.trackGp s.sst.live.trackGi e with outlierCount := 0 }).steerLimit.judged m := by
  unfold State.lockedPulse State.judged Tbu.judged
  dsimp only
  rw [if_pos h, steerLimit_frame _ .sst (by decide), apply_ite (State.setTbu _), apply_ite (State.setTbu _)]
  rfl

/-- A pulse outside it is an outlier. -/
theorem lockedPulse_outlier {s : State} {e : Int} (m : PulseMessage) (h : s.sst.live.lockWindow < e.natAbs) : s.lockedPulse e m =
    (s.setTbu { s.tbu with
      outlierCount := s.tbu.outlierCount + 1
      counters := { s.tbu.counters with referenceOutliers := bump s.tbu.counters.referenceOutliers } }).judged m := by
  unfold State.lockedPulse State.judged Tbu.judged
  dsimp only
  rw [if_neg (Nat.not_le.2 h), apply_ite (State.setTbu _), apply_ite (State.setTbu _)]
  rfl

end Machine
end Sys2Proof
end

section
/-! PROOFS. The two conditions of the time base that every step keeps: site time's tick in its range, and a HOLDOVER within the
emission tolerance. -/

namespace Sys2Proof
namespace Machine

/-! ## The conditions at the Time Base Unit -/

/-- A change of the Time Base Unit under the settings `x` that keeps the tick in range and a HOLDOVER within its limit. -/
structure Tbu.Kept (x : Settings) (t u : Tbu) : Prop where
  clock : t.time.tick < 27000000 → u.time.tick < 27000000
  limit : (t.state = .holdover → t.h ≤ 256 * x.emissionTolerance) → u.state = .holdover → u.h ≤ 256 * x.emissionTolerance

theorem Tbu.Kept.trans {x : Settings} {t u v : Tbu} (h : t.Kept x u) (k : u.Kept x v) : t.Kept x v :=
  ⟨fun c => k.clock (h.clock c), fun l => k.limit (h.limit l)⟩

theorem Tbu.Kept.after {x : Settings} {t u v : Tbu} (k : u.Kept x v) (h : t.Kept x u) : t.Kept x v := h.trans k

theorem Tbu.Kept.of_same {x : Settings} {t u : Tbu} (ht : u.time = t.time) (hs : u.state = t.state) (hh : u.h = t.h) :
    t.Kept x u := ⟨by rw [ht]; exact id, by rw [hs, hh]; exact id⟩

/-- Outside HOLDOVER only the tick counts. -/
theorem Tbu.Kept.of_state {x : Settings} {t u : Tbu} (hs : u.state ≠ .holdover)
    (ht : t.time.tick < 27000000 → u.time.tick < 27000000) : t.Kept x u := ⟨ht, fun _ h => absurd h hs⟩

/-- The comparison of R15 leaves no HOLDOVER above its limit. -/
theorem Tbu.expire_within (t : Tbu) (x : Settings) : (t.expire x).state = .holdover → (t.expire x).h ≤ 256 * x.emissionTolerance := by
  rw [Tbu.expire_eq]
  dsimp only
  split
  · exact fun h => nomatch h
  · next h => exact fun hs => Nat.le_of_not_lt fun hl => h ⟨hs, hl⟩

@[simp] theorem Tbu.expire_time (t : Tbu) (x : Settings) : (t.expire x).time = t.time := by rw [Tbu.expire_eq]

theorem Tbu.enterHoldover_kept (t : Tbu) (x : Settings) (c : HoldoverCause) : t.Kept x (t.enterHoldover x c) :=
  ⟨by rw [Tbu.enterHoldover_eq]; exact id, fun _ => Tbu.expire_within _ x⟩

theorem Tbu.loop_kept (t : Tbu) (x : Settings) (gp gi : Nat) (e : Int) : t.Kept x (t.loop gp gi e) := by
  rw [Tbu.loop_eq t gp gi e rfl rfl rfl]
  exact .of_same rfl rfl rfl

theorem Tbu.enterLocked_kept {x : Settings} (t : Tbu) : t.Kept x t.enterLocked := .of_state (fun h => nomatch h) id

theorem Tbu.enterAcquiring_kept {x : Settings} (t : Tbu) : t.Kept x t.enterAcquiring := .of_state (fun h => nomatch h) id

theorem Tbu.acquiringPulse_kept (t : Tbu) (x : Settings) (e : Int) (m : PulseMessage) : t.Kept x (t.acquiringPulse x e m) := by
  have phase : t.Kept x (t.acquirePhase x e) := by
    unfold Tbu.acquirePhase
    split
    · exact ⟨fun _ => SiteTime.add_tick_lt _ _, id⟩
    · exact (t.loop_kept x _ _ e).trans (.of_same rfl rfl rfl)
  have second : ∀ u : Tbu, u.Kept x (u.acquireSecond m) := fun u => by
    unfold Tbu.acquireSecond
    split
    · exact ⟨id, id⟩
    · exact .of_same rfl rfl rfl
    · exact .of_same rfl rfl rfl
  have stepped : t.Kept x (if pulseSteps x e m then ((t.acquirePhase x e).acquireSecond m).afterStep
      else (t.acquirePhase x e).acquireSecond m) := by
    split
    · exact (phase.trans (second _)).trans (.of_same rfl rfl rfl)
    · exact phase.trans (second _)
  have locking : ∀ u : Tbu, t.Kept x u → t.Kept x (if 8 ≤ u.lockCount then u.enterLocked else u) := fun u hu => by
    split
    · exact hu.trans u.enterLocked_kept
    · exact hu
  exact locking _ stepped

theorem Tbu.holdoverPulse_kept (t : Tbu) (x : Settings) (p : SiteTime) (e : Int) (m : PulseMessage) :
    t.Kept x (t.holdoverPulse x p e m) := by
  have run : t.Kept x (t.extendRun x p) := .of_same rfl rfl rfl
  by_cases hd : x.lockWindow < e.natAbs ∨ ∃ sec, m = .disagreeing sec
  · rw [Tbu.holdoverPulse_run hd]
    split
    · exact (run.trans (Tbu.enterAcquiring_kept _)).trans (Tbu.acquiringPulse_kept _ x e m)
    · exact run
  · rw [Tbu.holdoverPulse_relock (Nat.le_of_not_lt fun h => hd (.inl h)) fun sec h => hd (.inr ⟨sec, h⟩)]
    split
    · exact (Tbu.enterLocked_kept _).after (.of_same rfl rfl rfl)
    · exact .of_same rfl rfl rfl

/-! ## The conditions at the part -/

/-- A change of the part that keeps both conditions. -/
structure TimeBaseKept (s t : State) : Prop where
  clock : s.ClockInRange → t.ClockInRange
  limit : s.HoldoverWithinTolerance → t.HoldoverWithinTolerance

theorem TimeBaseKept.trans {s t u : State} (h : TimeBaseKept s t) (k : TimeBaseKept t u) : TimeBaseKept s u :=
  ⟨fun c => k.clock (h.clock c), fun l => k.limit (h.limit l)⟩

theorem TimeBaseKept.after {s t u : State} (k : TimeBaseKept t u) (h : TimeBaseKept s t) : TimeBaseKept s u := h.trans k

theorem TimeBaseKept.of_tbu {s t : State} (h : s.tbu.Kept s.sst.live t.tbu)
    (hx : t.sst.live.emissionTolerance = s.sst.live.emissionTolerance) : TimeBaseKept s t := by
  refine ⟨h.clock, fun l => ?_⟩
  unfold State.HoldoverWithinTolerance
  rw [hx]
  exact h.limit l

theorem TimeBaseKept.of_same {s t : State} (h : t.tbu = s.tbu)
    (hx : t.sst.live.emissionTolerance = s.sst.live.emissionTolerance) : TimeBaseKept s t :=
  .of_tbu (.of_same (by rw [h]) (by rw [h]) (by rw [h])) hx

theorem TimeBaseKept.ite {s t u : State} {c : Prop} [Decidable c] (h : TimeBaseKept s t) (k : TimeBaseKept s u) :
    TimeBaseKept s (if c then t else u) := by
  split
  · exact h
  · exact k

/-- What changes neither the Time Base Unit nor the settings keeps both conditions. -/
theorem TimeBaseKept.of_frame {a : List Part} {s t : State} (h : OnlyChanges a s t) (ht : .tbu ∉ a := by decide)
    (hx : .sst ∉ a := by decide) : TimeBaseKept s t :=
  .of_same (h .tbu ht) (by rw [show t.sst = s.sst from h .sst hx])

theorem timeBaseKept_beyondPort : BeyondPort TimeBaseKept where
  trans := .trans
  port h := .of_frame h

theorem ifRunning_timeBaseKept {s t : State} {f : State → State} (h : ifRunning s f = .next t) (hf : TimeBaseKept s (f s)) :
    TimeBaseKept s t := by
  rcases ifRunning_next h with rfl | rfl
  · exact .of_same rfl rfl
  · exact hf

/-- A change of the Time Base Unit alone, with its TIME-STATE and TIMING. -/
theorem TimeBaseKept.afterTbu {s u : State} (h : TimeBaseKept s u) (old : DisciplineState) : TimeBaseKept s (u.afterTbu old) :=
  h.trans (.of_frame (afterTbu_frame u old))

theorem TimeBaseKept.setTbu {s : State} {t : Tbu} (h : s.tbu.Kept s.sst.live t) : TimeBaseKept s (s.setTbu t) := .of_tbu h rfl

/-! ## Pulses -/

theorem steerLimit_kept (s : State) : TimeBaseKept s s.steerLimit := by
  have run : ∀ n, TimeBaseKept s (s.setTbu { s.tbu with steerLimitRun := n }) := fun n => .setTbu (.of_same rfl rfl rfl)
  rw [steerLimit_eq]
  split
  · exact (run _).trans (.of_frame (raiseSite_frame _ _ _ _))
  · exact run _

theorem judged_kept (s : State) (m : PulseMessage) : TimeBaseKept s (s.judged m) := by
  have counted : ∀ n, s.tbu.Kept s.sst.live { s.tbu with mismatchCount := n } := fun n => .of_same rfl rfl rfl
  refine .setTbu ?_
  unfold Tbu.judged
  split
  · exact (Tbu.enterHoldover_kept _ _ _).after (counted _)
  · split
    · exact (Tbu.enterHoldover_kept _ _ _).after (counted _)
    · exact counted _

theorem lockedPulse_kept (s : State) (e : Int) (m : PulseMessage) : TimeBaseKept s (s.lockedPulse e m) := by
  by_cases h : e.natAbs ≤ s.sst.live.lockWindow
  · rw [lockedPulse_loop m h]
    have loop := (s.tbu.loop_kept s.sst.live s.sst.live.trackGp s.sst.live.trackGi e).trans
      (.of_same (u := { s.tbu.loop s.sst.live.trackGp s.sst.live.trackGi e with outlierCount := 0 }) rfl rfl rfl)
    exact ((TimeBaseKept.setTbu loop).trans (steerLimit_kept _)).trans (judged_kept _ m)
  · rw [lockedPulse_outlier m (Nat.lt_of_not_le h)]
    exact (judged_kept _ m).after (.setTbu (.of_same rfl rfl rfl))

theorem Tbu.taken_kept {x : Settings} (t : Tbu) : t.Kept x t.taken := .of_same rfl rfl rfl

/-- What the state makes of a taken pulse keeps both conditions. -/
theorem handled_kept (s : State) {u : Tbu} (h : s.tbu.Kept s.sst.live u) : TimeBaseKept s (s.handled u) := by
  unfold State.handled
  split
  · exact .setTbu h
  · exact .setTbu (h.trans (u.acquiringPulse_kept _ _ _))
  · exact (TimeBaseKept.setTbu h).trans (lockedPulse_kept _ _ _)
  · exact .setTbu (h.trans (u.holdoverPulse_kept _ _ _ _))
  · exact .setTbu (h.trans (u.holdoverPulse_kept _ _ _ _))

theorem setTime_kept (s : State) (held : Option HeldMessage) : TimeBaseKept s (s.setTime held) := by
  unfold State.setTime
  split
  · split
    · exact .setTbu (.of_state (fun h => nomatch h) fun _ => Nat.zero_lt_succ _)
    · exact .of_same rfl rfl
  · exact .of_same rfl rfl

theorem pulse_kept (s : State) : TimeBaseKept s s.pulse := by
  by_cases hr : s.refok = true
  · by_cases hu : s.tbu.state = .unset
    · rw [pulse_unset hr hu]
      refine .afterTbu (.after (setTime_kept _ _) (.setTbu ?_)) _
      exact .of_same rfl rfl rfl
    · by_cases hx : s.tbu.Extra
      · rw [pulse_extra hr hu hx]
        exact .setTbu (.of_same rfl rfl rfl)
      · rw [pulse_taken hr hu hx]
        exact (handled_kept s s.tbu.taken_kept).afterTbu _
  · unfold State.pulse
    rw [if_neg hr]
    exact .of_tbu (.of_same rfl rfl rfl) rfl

/-! ## The other commands of the Time Base Unit -/

theorem execSiteSecondBoundary_kept {s t : State} (h : execSiteSecondBoundary s = .next t) : TimeBaseKept s t := by
  refine ifRunning_timeBaseKept h ?_
  split
  · refine .afterTbu ?_ _
    dsimp only
    split
    · exact .of_tbu ⟨fun _ => by simp, fun _ => Tbu.expire_within _ _⟩ rfl
    · exact .of_tbu ⟨fun _ => by simp, id⟩ rfl
  · exact .of_same rfl rfl

theorem execMissingPulse_kept {s t : State} (h : execMissingPulse s = .next t) : TimeBaseKept s t := by
  refine ifRunning_timeBaseKept h ?_
  split
  · refine .afterTbu (.setTbu ?_) _
    split
    case h_3 =>
      dsimp only
      split
      · exact (Tbu.enterHoldover_kept _ _ _).after (.of_same rfl rfl rfl)
      · exact .of_same rfl rfl rfl
    all_goals exact .of_same rfl rfl rfl
  · exact .of_same rfl rfl

theorem refokFell_kept (t : Tbu) (x : Settings) : t.Kept x (t.refokFell x) := by
  unfold Tbu.refokFell
  split
  case h_3 => exact t.enterHoldover_kept x _
  all_goals exact .of_same rfl rfl rfl

theorem execRefokFall_kept {s t : State} (h : execRefokFall s = .next t) : TimeBaseKept s t := by
  unfold execRefokFall at h
  split at h
  · have dropped : TimeBaseKept s (s.setRefok false) := .of_same rfl rfl
    exact dropped.trans (ifRunning_timeBaseKept h (.afterTbu (.setTbu (refokFell_kept _ _)) _))
  · exact Host.Outcome.next.inj h ▸ .of_same rfl rfl

theorem badMessage_kept (s : State) : TimeBaseKept s s.badMessage := .of_tbu (.of_same rfl rfl rfl) rfl

theorem receive_kept (s : State) (b : Byte) (stopHigh : Bool) : TimeBaseKept s (s.receive b stopHigh) := by
  have join : ∀ s, TimeBaseKept s (State.joinByte s b stopHigh) := fun s => by
    unfold State.joinByte
    exact .ite (.ite (.ite (.setTbu (.of_same rfl rfl rfl)) (badMessage_kept s)) (.setTbu (.of_same rfl rfl rfl)))
      (badMessage_kept s)
  unfold State.receive
  split
  · exact (badMessage_kept s).trans (join _)
  · exact join s

theorem execSteeringWordSent_kept {s t : State} (h : execSteeringWordSent s = .next t) : TimeBaseKept s t := by
  refine ifRunning_timeBaseKept h ?_
  split
  · exact .setTbu (.of_same rfl rfl rfl)
  · exact .of_same rfl rfl

/-! ## Settings, resets and the Management Port -/

theorem putOnce_emissionTolerance (x : Settings) (w : WriteOnceSetting) (v : Int) :
    (x.putOnce w v).emissionTolerance = x.emissionTolerance := by cases w <;> rfl

/-- A write of settings that leaves the emission tolerance. -/
theorem setLive_kept (s : State) (x : Settings) (b : Bool) (h : x.emissionTolerance = s.sst.live.emissionTolerance) :
    TimeBaseKept s (s.setLive x b) := .of_same rfl h

theorem ownWriteOnce_kept (w : WriteOnceSetting) (v : Word32) (s : State) : TimeBaseKept s (ownWriteOnce w v s).state := by
  unfold ownWriteOnce
  dsimp only
  split
  · exact .of_same rfl rfl
  · split
    · exact setLive_kept s _ _ (putOnce_emissionTolerance _ w _)
    · exact .of_same rfl rfl

/-- A write of the emission tolerance is compared with the estimate at once (R15, R23); no other setting bears on it. -/
theorem ownOperating_kept (o : OperatingSetting) (v : Word32) (s : State) : TimeBaseKept s (ownOperating o v s).state := by
  unfold ownOperating
  split
  · next x code _ =>
    by_cases ho : o = .emissionTolerance
    · subst ho
      refine .trans (t := (s.setLive (s.sst.live.put .emissionTolerance x) _).setTbu (s.tbu.expire
        (s.sst.live.put .emissionTolerance x))) ⟨fun c => ?_, fun _ => Tbu.expire_within _ _⟩ (.of_frame (afterTbu_frame _ _))
      simpa [State.ClockInRange] using c
    · have hx : (s.sst.live.put o x).emissionTolerance = s.sst.live.emissionTolerance := by
        cases o <;> first | rfl | exact absurd rfl ho
      refine .after ?_ (setLive_kept s (s.sst.live.put o x) (decide (s.sst.live.get o ≠ x)) hx)
      unfold State.applySetting
      split
      case h_1 => exact absurd rfl ho
      case h_2 => exact .setTbu (.of_same rfl rfl rfl)
      case h_3 => exact .of_frame (.ite (feedOut_frame _) (.refl [.esc, .mgp] _))
      all_goals exact .of_same rfl rfl
  · exact .of_same rfl rfl

theorem ownMapEdit_kept (op : EditOp) (n : Word16) (c v k : Byte) (s : State) : TimeBaseKept s (ownMapEdit op n c v k s).state := by
  have same : TimeBaseKept s s := .of_same rfl rfl
  have checked : ∀ op m old new, TimeBaseKept s (s.editChecked op m old new).state := fun op m old new => by
    unfold State.editChecked
    split
    · exact same
    · split
      · exact same
      · exact setLive_kept s _ _ rfl
  unfold ownMapEdit
  dsimp only
  repeat' split
  all_goals first | exact same | exact checked _ _ _ _

theorem ownStreamRestart_live (s : State) : (ownStreamRestart s).state.sst.live = s.sst.live := by
  have h1 := (restartFiu_frame s.noteRestart).seq (restartCsc_frame _) (c := [.mgp, .fiu, .esc, .csc])
  have h2 := h1.seq (restartDdc_frame _) (c := [.mgp, .fiu, .esc, .ddc, .csc])
  have h3 := h2.seq (restartEsc_frame _) (c := [.mgp, .fiu, .esc, .ddc, .csc])
  have h4 := h3.seq (restartBpu_frame _) (c := [.mgp, .fiu, .esc, .ddc, .bpu, .csc])
  have h5 := h4.seq (restartSpe_frame _) (c := [.mgp, .fiu, .esc, .ddc, .bpu, .csc, .spe])
  have h : (ownStreamRestart s).state.sst = s.noteRestart.sst := h5 .sst (by decide)
  rw [h]
  rfl

theorem commandOwner_kept (r : Role) (k : CommandKind) (args : List Byte) (s : State) :
    TimeBaseKept s (commandOwner r k args s).state := by
  cases k
  case saveSettings => exact .of_same rfl rfl
  case streamRestart =>
    exact .of_same (ownStreamRestart_frame s .tbu (by decide)) (congrArg Settings.emissionTolerance (ownStreamRestart_live s))
  case clearCounters => exact .of_tbu (.of_same rfl rfl rfl) rfl
  all_goals exact .of_frame (commandOwner_frame r _ args s)

theorem ownSettingsWrite_kept (d : List Byte) (s : State) : TimeBaseKept s (ownSettingsWrite d s).state := by
  unfold ownSettingsWrite
  dsimp only
  repeat' split
  all_goals first | exact .of_same rfl rfl | exact ownWriteOnce_kept _ _ s | exact ownOperating_kept _ _ s

theorem ownEditRecord_kept (d : List Byte) (s : State) : TimeBaseKept s (ownEditRecord d s).state := by
  unfold ownEditRecord
  repeat' split
  all_goals first | exact .of_same rfl rfl | exact ownMapEdit_kept _ _ _ _ _ s

theorem writePhase_kept (s : State) (a : BitVec 7) (bytes : List Byte) (byStop : Bool) :
    TimeBaseKept s (s.writePhase a bytes byStop) :=
  timeBaseKept_beyondPort.writePhase s a bytes byStop commandOwner_kept
    (fun r c d s => .of_frame (ownStaging_frame r c d s)) ownSettingsWrite_kept ownEditRecord_kept

theorem openRead_kept (s : State) (r : Role) (o : Nat) : TimeBaseKept s (s.openRead r o) := by
  unfold State.openRead
  dsimp only
  split <;> exact .of_same rfl rfl

theorem execSaveComplete_kept {s t : State} (h : execSaveComplete s = .next t) : TimeBaseKept s t := by
  refine ifRunning_timeBaseKept h ?_
  split <;> exact .of_same rfl rfl

/-- A part in reset, and one whose reset ends, stands in UNSET at the first tick. -/
theorem enterReset_kept (s : State) (src : ResetSource) : TimeBaseKept s (s.enterReset src) :=
  ⟨fun _ => Nat.zero_lt_succ _, fun _ h => nomatch h⟩

theorem endReset_kept (s : State) (src : ResetSource) (a1 a2 : Bool) : TimeBaseKept s (s.endReset src a1 a2) :=
  ⟨fun _ => Nat.zero_lt_succ _, fun _ h => nomatch h⟩

/-! ## Every command and every step -/

theorem takeCommand_kept {s t : State} {r : Role} {k : CommandKind} {args : List Byte} {owner : State → Taken}
    (h : ifRunning s (·.takeCommand r k args owner) = .next t) (ho : ∀ s, TimeBaseKept s (owner s).state) :
    TimeBaseKept s t := ifRunning_timeBaseKept h (timeBaseKept_beyondPort.takeCommand s r k args owner ho)

theorem takeWrite_kept {s t : State} {r : Role} {o : Nat} {b : Bool} {owner : State → Taken}
    (h : ifRunning s (·.takeWrite r o b owner) = .next t) (ho : ∀ s, TimeBaseKept s (owner s).state) :
    TimeBaseKept s t := ifRunning_timeBaseKept (f := (·.takeWrite r o b owner)) h (timeBaseKept_beyondPort.takeWrite s r o b owner ho)

theorem exec_timeBaseKept {c : Instr} {s t : State} (h : exec c s = .next t) : TimeBaseKept s t := by
  cases c
  case powerOn => exact Host.Outcome.next.inj h ▸ enterReset_kept s .powerOn
  case resetPin => exact Host.Outcome.next.inj h ▸ enterReset_kept s .resetPin
  case resetEnds a1 a2 =>
    change execResetEnds a1 a2 s = .next t at h
    unfold execResetEnds at h
    split at h
    · exact Host.Outcome.next.inj h ▸ endReset_kept s _ a1 a2
    · exact Host.Outcome.next.inj h ▸ .of_same rfl rfl
  case siteSecondBoundary => exact execSiteSecondBoundary_kept h
  case ppsEdge => exact ifRunning_timeBaseKept h (pulse_kept s)
  case missingPulse => exact execMissingPulse_kept h
  case refokFall => exact execRefokFall_kept h
  case timeMessage b e => exact ifRunning_timeBaseKept (f := (·.receive b e)) h (receive_kept s b e)
  case timeMessageByte b e => exact ifRunning_timeBaseKept (f := (·.receive b e)) h (receive_kept s b e)
  case timeMessageInterbyteTimeout =>
    refine ifRunning_timeBaseKept (f := fun s => if s.interbyteDue then s.badMessage else s) h ?_
    split
    · exact badMessage_kept s
    · exact .of_same rfl rfl
  case steeringWordSent => exact execSteeringWordSent_kept h
  case saveSettings r => exact takeCommand_kept h (commandOwner_kept r .saveSettings [])
  case streamRestart r => exact takeCommand_kept h (commandOwner_kept r .streamRestart [])
  case clearCounters r => exact takeCommand_kept h (commandOwner_kept r .clearCounters [])
  case saveComplete => exact execSaveComplete_kept h
  case streamMapAdd r n c v k => exact takeWrite_kept h (ownMapEdit_kept .add n c v k)
  case streamMapChange r n c v k => exact takeWrite_kept h (ownMapEdit_kept .change n c v k)
  case streamMapRemove r n c v k => exact takeWrite_kept h (ownMapEdit_kept .remove n c v k)
  case writeOnceSettingWrite r w v => exact takeWrite_kept h (ownWriteOnce_kept w v)
  case operatingSettingWrite r o v => exact takeWrite_kept h (ownOperating_kept o v)
  case writePhase a b e => exact ifRunning_timeBaseKept (f := (·.writePhase a b e)) h (writePhase_kept s a b e)
  case noticeHeadRead r n =>
    exact ifRunning_timeBaseKept (f := fun s => (s.openRead r noticeHeadObject).endRead r noticeHeadObject n) h
      ((openRead_kept s r _).trans (.of_frame (endRead_frame _ r _ n)))
  case resetCauseRead r => exact ifRunning_timeBaseKept (f := (·.openRead r resetCauseObject)) h (openRead_kept s r _)
  all_goals exact .of_frame (exec_frame h) (by simp [touchedParts, CommandKind.touches]) (by simp [touchedParts, CommandKind.touches])

theorem advance_kept (s : State) : TimeBaseKept s s.advance := by
  unfold State.advance
  split
  · exact .of_same rfl rfl
  · next ht =>
    refine .of_tbu ⟨fun hc => ?_, id⟩ rfl
    have : s.tbu.time.tick ≠ 26999999 := ht
    show s.tbu.time.tick + 1 < 27000000
    omega

theorem idle_kept (s : State) : TimeBaseKept s s.idle := by
  have same : ∀ {t : State}, t.tbu = s.tbu → t.sst = s.sst → TimeBaseKept s t := fun ht hx => .of_same ht (by rw [hx])
  unfold State.idle
  split
  · exact same rfl rfl
  · unfold State.run
    split
    · exact same rfl rfl
    · split
      · exact advance_kept s
      · split
        · exact same rfl rfl
        · exact (advance_kept _).after (same rfl rfl)

theorem step_timeBaseKept {s t : State} (h : step s = .next t) : TimeBaseKept s t := by
  unfold step at h
  split at h
  · next c rest _ => exact (exec_timeBaseKept h).after (.of_same rfl rfl)
  · exact Host.Outcome.next.inj h ▸ idle_kept s

/-- Settles O54: every command and every idle cycle keeps both conditions (`step_timeBaseKept`). -/
theorem stepKeepsTheTimeBase : Obligations.StepKeepsTheTimeBase :=
  ⟨fun _ _ hc h => (step_timeBaseKept h).clock hc, fun _ _ hl h => (step_timeBaseKept h).limit hl⟩

end Machine
end Sys2Proof
end

section
/-! PROOFS. A change of the discipline state: TIME-STATE, and the TIMING reason with its effect on the carrier (R21, R57, R60). -/

namespace Sys2Proof
namespace Machine

/-! ## Mute reasons see the Emission Scheduler and site time alone -/

theorem setMute_esc_congr {s t : State} (h : t.esc = s.esc) (r : MuteReason) (b : Bool) :
    (t.setMute r b).esc = (s.setMute r b).esc := by
  unfold State.setMute
  rw [h]
  dsimp only
  repeat' split
  all_goals first | rfl | exact h

theorem setMute_setTbu (s : State) {x : Tbu} (h : x.time = s.tbu.time) (r : MuteReason) (b : Bool) :
    (s.setTbu x).setMute r b = (s.setMute r b).setTbu x := by
  unfold State.setMute
  simp only [State.setTbu_esc]
  by_cases hb : s.esc.mute.has r = b
  · simp only [hb, if_true]
  · by_cases ha : (s.esc.mute.put r b).any = true
    · cases s.esc.carinh
      · simp only [hb, ha, if_true, if_false, State.raiseSite, State.raiseTo, State.setEsc_tbu, State.setTbu_tbu, h]
        rfl
      · simp only [hb, ha, if_true, if_false]
        rfl
      · simp only [hb, ha, if_true, if_false]
        rfl
    · cases s.esc.carinh <;> simp only [hb, ha, if_false] <;> rfl

theorem MuteTaken.congr {s t u : State} {r : MuteReason} {b : Bool} (h : MuteTaken s t r b) (hu : u.esc = t.esc) :
    MuteTaken s u r b := by
  unfold MuteTaken
  rw [hu]
  exact h

theorem MuteTaken.timing {s t : State} {b : Bool} (h : MuteTaken s t .timing b) : t.esc.mute.timing = b := by
  rw [h.1]
  rfl

theorem Raised.of_mgp {s u t : State} {r : Role} {ns : List Notice} (h : Raised u t r ns) (hm : u.mgp = s.mgp) :
    Raised s t r ns := by
  unfold Raised at h ⊢
  rwa [hm] at h

theorem noticeAt_afterTbu (s : State) (old : DisciplineState) (k : NoticeKind) (j : Subject) (d : Detail) :
    noticeAt (s.afterTbu old) k j d = noticeAt s k j d := by simp [noticeAt]

/-- A reason raised at a state that holds the same Emission Scheduler as a consistent one. -/
theorem setMute_raised_of_esc {s v : State} (hc : s.CarrierConsistent) (he : v.esc = s.esc) (r : MuteReason) (b : Bool) :
    Raised v (v.setMute r b) .site (assertNotice s (v.setMute r b)) := by
  obtain ⟨x, hx, ht⟩ : ∃ x : Tbu, x.state = s.tbu.state ∧ x.time = v.tbu.time :=
    ⟨{ v.tbu with state := s.tbu.state }, rfl, rfl⟩
  have hw : (v.setTbu x).CarrierConsistent := by
    unfold State.CarrierConsistent at hc ⊢
    simpa only [State.setTbu_esc, State.setTbu_tbu, he, hx] using hc
  have h := setMute_raised _ r b hw
  rw [setMute_setTbu _ ht] at h
  have hn : assertNotice (v.setTbu x) ((v.setMute r b).setTbu x) = assertNotice s (v.setMute r b) := by
    simp [assertNotice, noticeAt, he, ht]
  rwa [hn] at h

/-! ## After an event of the Time Base Unit -/

section
variable {s u : State} (hc : s.CarrierConsistent) (he : u.esc = s.esc)
include hc he

/-- The carrier after the event: the TIMING reason stands exactly outside the emission-fit states (R57). -/
theorem afterTbu_esc : (u.afterTbu s.tbu.state).esc = (s.setMute .timing (!u.tbu.state.fit)).esc := by
  unfold State.afterTbu
  split
  · next h =>
    have ht : s.esc.mute.timing = !s.tbu.state.fit := hc.1
    unfold State.setMute
    rw [if_pos (by rw [h]; exact ht), he]
  · exact setMute_esc_congr (by exact he) .timing _

theorem afterTbu_muteTaken : MuteTaken s (u.afterTbu s.tbu.state) .timing (!u.tbu.state.fit) :=
  (setMute_taken s .timing _ hc).congr (afterTbu_esc hc he)

/-- A change of state raises TIME-STATE, and CARRIER-STATE after it where TIMING asserts CARINH. -/
theorem afterTbu_raised (hne : u.tbu.state ≠ s.tbu.state) : Raised u (u.afterTbu s.tbu.state) .site
    (noticeAt u .timeState .none (.time u.tbu.state (u.tbu.noticeCause s.tbu.state)) ::
      assertNotice s (u.afterTbu s.tbu.state)) := by
  unfold State.afterTbu
  rw [if_neg hne]
  exact (raiseSite_raised u _ _ _).append (setMute_raised_of_esc (v := u.raiseSite _ _ _) hc he .timing _)

/-- No CARRIER-STATE where the state was not emission-fit before, or is so after. -/
theorem afterTbu_assertNotice_nil (hf : u.tbu.state.fit = true ∨ s.tbu.state.fit = false) :
    assertNotice s (u.afterTbu s.tbu.state) = [] := by
  obtain ⟨ht, -, hasserted, -⟩ := id hc
  refine if_neg fun ⟨hr, ha⟩ => ?_
  have hany : s.esc.mute.any = true := by
    rcases hf with hf | hf
    · rw [(afterTbu_muteTaken hc he).1, hf] at ha
      cases hm : s.esc.mute.timing
      · have := MuteReasons.put_has s.esc.mute .timing
        rw [show s.esc.mute.has .timing = false from hm] at this
        rwa [show (!true) = false from rfl, this] at ha
      · simp [MuteReasons.any, hm]
    · simp [MuteReasons.any, ht, hf]
  exact nomatch (hasserted.2 hany).symm.trans hr

/-- Between two states that are not emission-fit the carrier stays as it is. -/
theorem afterTbu_esc_of_fit (hf : u.tbu.state.fit = s.tbu.state.fit) : (u.afterTbu s.tbu.state).esc = s.esc := by
  rw [afterTbu_esc hc he, hf]
  exact congrArg State.esc (if_pos hc.1)

end

theorem raiseSite_insertion (s : State) (k : NoticeKind) (j : Subject) (d : Detail) :
    (s.raiseSite k j d).mgp.ports.get .insertion = s.mgp.ports.get .insertion := raiseTo_port_ne s (by decide) k j d

theorem setMute_insertion (s : State) (r : MuteReason) (b : Bool) :
    (s.setMute r b).mgp.ports.get .insertion = s.mgp.ports.get .insertion := by
  unfold State.setMute
  split
  · rfl
  · dsimp only
    split
    · split
      · exact raiseSite_insertion _ _ _ _
      · rfl
      · rfl
    · split <;> rfl

theorem afterTbu_insertion (s : State) (old : DisciplineState) :
    (s.afterTbu old).mgp.ports.get .insertion = s.mgp.ports.get .insertion := by
  unfold State.afterTbu
  split
  · rfl
  · exact (setMute_insertion _ _ _).trans (raiseSite_insertion s _ _ _)

/-- An event that changes the Time Base Unit and nothing else of the part before its notices. -/
theorem setTbu_afterTbu_frame (s : State) (x : Tbu) (old : DisciplineState) :
    OnlyChanges [.tbu, .esc, .mgp] s ((s.setTbu x).afterTbu old) := (setTbu_frame s x).seq (afterTbu_frame _ old)

theorem setTbu_afterTbu_onlyNotifies (s : State) (x : Tbu) (old : DisciplineState) :
    OnlyNotifies s ((s.setTbu x).afterTbu old) := (OnlyNotifies.of_mgp rfl).trans (afterTbu_onlyNotifies (s.setTbu x) old)

/-! ## Entry to HOLDOVER from LOCKED (R14, R15) -/

theorem enterHoldover_state (t : Tbu) (x : Settings) (c : HoldoverCause) : (t.enterHoldover x c).state =
    if 256 * x.emissionTolerance < (t.enterHoldover x c).h then .expired else .holdover := by rw [Tbu.enterHoldover_eq]

theorem enterHoldover_ne_locked (t : Tbu) (x : Settings) (c : HoldoverCause) : (t.enterHoldover x c).state ≠ .locked := by
  rw [enterHoldover_state]
  split <;> exact fun h => nomatch h

/-- TIME-STATE of an entry to HOLDOVER carries its cause, also where it passes straight to EXPIRED (R21). -/
theorem enterHoldover_noticeCause (t : Tbu) (x : Settings) (c : HoldoverCause) :
    (t.enterHoldover x c).noticeCause .locked = some c := by
  have hcause : (t.enterHoldover x c).cause = some c := by rw [Tbu.enterHoldover_eq]
  have hstate := enterHoldover_state t x c
  unfold Tbu.noticeCause
  split at hstate <;> rw [hstate, hcause]
  exact if_neg (fun h => nomatch h)

/-- What an entry to HOLDOVER from LOCKED makes of the carrier, and the notices that it raises. `u` is the part with the entry made
and nothing raised. -/
theorem enterHoldover_effect {s u : State} {t : Tbu} {c : HoldoverCause} (hc : s.CarrierConsistent) (he : u.esc = s.esc)
    (hs : s.tbu.state = .locked) (hu : u.tbu = t.enterHoldover s.sst.live c) (ht : t.time = s.tbu.time) :
    (u.afterTbu .locked).esc.mute.timing = !u.tbu.state.fit
      ∧ Raised u (u.afterTbu .locked) .site
          (noticeAt s .timeState .none (.time u.tbu.state (some c)) :: assertNotice s (u.afterTbu .locked)) := by
  have muted := (afterTbu_muteTaken hc he).timing
  have raised := afterTbu_raised hc he (by rw [hu, hs]; exact enterHoldover_ne_locked _ _ _)
  have hn : ∀ d, noticeAt u .timeState .none d = noticeAt s .timeState .none d := fun d => by
    simp [noticeAt, hu, Tbu.enterHoldover_eq, ht]
  have hcause : u.tbu.noticeCause .locked = some c := hu ▸ enterHoldover_noticeCause _ _ _
  rw [hs] at muted raised
  rw [hn, hcause] at raised
  exact ⟨muted, raised⟩

/-! ## The three commands that report an edge or its absence (R4, R8) -/

theorem exec_refokFall {s : State} (h : s.Running) (hr : s.refok = true) : exec .refokFall s =
    .next (((s.setRefok false).setTbu (s.tbu.refokFell s.sst.live)).afterTbu s.tbu.state) := by
  change execRefokFall s = _
  unfold execRefokFall
  rw [if_pos hr]
  exact ifRunning_of_running (s := s.setRefok false) h _

/-- Settles O11, by the discipline state before the edge. -/
theorem refokEdges : Obligations.RefokEdges := by
  refine ⟨fun s => rfl, fun s hrun hr => ⟨_, exec_refokFall hrun hr, ?_⟩⟩
  have frame : OnlyChanges [.tbu, .esc, .mgp, .refok] s
      (((s.setRefok false).setTbu (s.tbu.refokFell s.sst.live)).afterTbu s.tbu.state) :=
    (setRefok_frame s false).seq (setTbu_afterTbu_frame _ _ _)
  have quiet : OnlyNotifies s (((s.setRefok false).setTbu (s.tbu.refokFell s.sst.live)).afterTbu s.tbu.state) :=
    (OnlyNotifies.of_mgp rfl).trans (setTbu_afterTbu_onlyNotifies (s.setRefok false) _ _)
  have same : ∀ x : Tbu, x.state = s.tbu.state →
      ((s.setRefok false).setTbu x).afterTbu s.tbu.state = (s.setTbu x).setRefok false := fun x hx => afterTbu_of_same hx
  refine ⟨by simp, fun hs => ?_, fun hs => ?_, fun hs => ?_, fun hs => ?_, fun hs hc => ?_, frame, quiet⟩
  · rw [show s.tbu.refokFell s.sst.live = s.tbu by simp [Tbu.refokFell, hs]]
    exact same _ rfl
  · rw [show s.tbu.refokFell s.sst.live = { s.tbu with lockCount := 0 } by simp only [Tbu.refokFell, hs]]
    exact same _ rfl
  · have fell : s.tbu.refokFell s.sst.live = { s.tbu with relockCount := 0, runCount := 0 } := by
      rcases hs with hs | hs <;> simp only [Tbu.refokFell, hs]
    rw [fell]
    exact same _ rfl
  · have fell : s.tbu.refokFell s.sst.live = s.tbu.enterHoldover s.sst.live .refLost := by simp only [Tbu.refokFell, hs]
    simp [fell, Tbu.enterHoldover_eq]
  · have fell : s.tbu.refokFell s.sst.live = s.tbu.enterHoldover s.sst.live .refLost := by simp only [Tbu.refokFell, hs]
    rw [fell, hs, State.afterTbu_tbu]
    exact enterHoldover_effect (u := (s.setRefok false).setTbu (s.tbu.enterHoldover s.sst.live .refLost)) hc rfl hs rfl rfl

end Machine
end Sys2Proof
end

section
/-! PROOFS. A missing pulse (R8, R11, R13, R16) and the boundary of a site second (R1, R15). -/

namespace Sys2Proof
namespace Machine

/-! ## A missing pulse -/

/-- A missing pulse is counted, and its boundary declared missing (R8). -/
def Tbu.countMissing (t : Tbu) : Tbu := { t with
  lastMissing := some t.time.sec
  counters := { t.counters with missingPulses := bump t.counters.missingPulses } }

/-- What the state makes of a missing pulse (R11, R13, R16). -/
def Tbu.missed (t : Tbu) (x : Settings) : Tbu :=
  match t.state with
  | .unset => t.countMissing
  | .acquiring => { t.countMissing with lockCount := 0 }
  | .locked =>
    if 2 ≤ t.missingCount + 1 then
      ({ t.countMissing with missingCount := t.missingCount + 1 } : Tbu).enterHoldover x .pulseMissing
    else { t.countMissing with missingCount := t.missingCount + 1 }
  | .holdover => { t.countMissing with relockCount := 0 }
  | .expired => { t.countMissing with relockCount := 0 }

theorem exec_missingPulse {s : State} (h : s.Running) (hd : s.missingDue = true) :
    exec .missingPulse s = .next ((s.setTbu (s.tbu.missed s.sst.live)).afterTbu s.tbu.state) := by
  refine (ifRunning_of_running h _).trans ?_
  rw [if_pos hd]
  unfold Tbu.missed Tbu.countMissing
  cases hs : s.tbu.state <;> simp only [hs]

/-- Every state counts the missing pulse, declares its boundary missing and leaves site time. -/
theorem Tbu.missed_fields (t : Tbu) (x : Settings) : (t.missed x).counters = t.countMissing.counters
    ∧ (t.missed x).lastMissing = t.countMissing.lastMissing ∧ (t.missed x).time = t.time := by
  unfold Tbu.missed
  split
  case h_3 =>
    split
    · rw [Tbu.enterHoldover_eq]
      exact ⟨rfl, rfl, rfl⟩
    · exact ⟨rfl, rfl, rfl⟩
  all_goals exact ⟨rfl, rfl, rfl⟩

/-- Settles O12, by the discipline state before the missing pulse. -/
theorem missingPulseByState : Obligations.MissingPulseByState := by
  intro s hrun hu ht hserved hmissing
  have due : s.missingDue = true := by simp [State.missingDue, Config.windowTicks, hu, ht, hserved, hmissing]
  refine ⟨_, exec_missingPulse hrun due, ?_⟩
  have frame := setTbu_afterTbu_frame s (s.tbu.missed s.sst.live) s.tbu.state
  have quiet := setTbu_afterTbu_onlyNotifies s (s.tbu.missed s.sst.live) s.tbu.state
  rw [State.afterTbu_tbu, State.setTbu_tbu]
  obtain ⟨counted, declared, timed⟩ := s.tbu.missed_fields s.sst.live
  refine ⟨counted, declared, timed, fun hs => ?_, fun hs h0 => ?_, fun hs h1 => ?_, fun hs => ?_, frame, quiet⟩
  · simp [Tbu.missed, Tbu.countMissing, hs]
  · simp [Tbu.missed, Tbu.countMissing, hs, h0]
  · have entered : s.tbu.missed s.sst.live =
        ({ s.tbu.countMissing with missingCount := s.tbu.missingCount + 1 } : Tbu).enterHoldover s.sst.live .pulseMissing := by
      simp only [Tbu.missed, hs]
      exact if_pos (by omega)
    rw [entered, Tbu.enterHoldover_eq]
    exact ⟨rfl, rfl, rfl, rfl⟩
  · rcases hs with hs | hs <;> simp [Tbu.missed, Tbu.countMissing, hs]

/-! ## The boundary of a site second -/

/-- The Time Base Unit over the boundary of a second: the second advances, and in HOLDOVER and EXPIRED the estimate grows and is
compared with its limit (R1, R15). -/
def Tbu.overBoundary (t : Tbu) (x : Settings) : Tbu := { t with
  time := { sec := t.time.sec + 1, tick := 0 }
  n := if t.state = .holdover ∨ t.state = .expired then min (t.n + 1) 4294967295 else t.n
  h := if t.state = .holdover ∨ t.state = .expired then min (t.h + x.holdoverRate) 281474976710655 else t.h
  state :=
    if t.state = .holdover ∧ 256 * x.emissionTolerance < min (t.h + x.holdoverRate) 281474976710655 then .expired else t.state }

theorem exec_siteSecondBoundary {s : State} (h : s.Running) (ht : s.tbu.time.tick = 26999999) : exec .siteSecondBoundary s =
    .next ((s.cycle.setTbu (s.cycle.tbu.overBoundary s.sst.live)).afterTbu s.tbu.state) := by
  refine (ifRunning_of_running h _).trans ?_
  rw [if_pos ht]
  dsimp only [Tbu.overBoundary]
  by_cases hg : s.cycle.tbu.state = .holdover ∨ s.cycle.tbu.state = .expired
  · rw [if_pos hg, if_pos hg, if_pos hg, Tbu.expire_eq]
    rfl
  · have hn : ¬ s.cycle.tbu.state = .holdover := fun h => hg (.inl h)
    rw [if_neg hg, if_neg hg, if_neg hg, if_neg (fun h => hn h.1)]

/-- The cycle timers keep the carrier consistent with its reasons. -/
theorem cycle_carrierConsistent {s : State} (h : s.CarrierConsistent) : s.cycle.CarrierConsistent := by
  obtain ⟨timing, schedule, asserted, port⟩ := h
  exact ⟨timing, schedule, asserted, by simpa [State.cycle] using port⟩

/-- A mute reason changes of the Emission Scheduler its reasons, CARINH, the port and the cut-off count alone. -/
theorem setMute_esc (s : State) (r : MuteReason) (b : Bool) : (s.setMute r b).esc = { s.esc with
    mute := (s.setMute r b).esc.mute, carinh := (s.setMute r b).esc.carinh, port := (s.setMute r b).esc.port,
    counters := (s.setMute r b).esc.counters } := by
  unfold State.setMute
  split
  · rfl
  · dsimp only
    split
    · split <;> rfl
    · split <;> rfl

theorem afterTbu_esc_fields (s : State) (old : DisciplineState) : (s.afterTbu old).esc = { s.esc with
    mute := (s.afterTbu old).esc.mute, carinh := (s.afterTbu old).esc.carinh, port := (s.afterTbu old).esc.port,
    counters := (s.afterTbu old).esc.counters } := by
  unfold State.afterTbu
  split
  · rfl
  · exact setMute_esc _ _ _

theorem cycle_tbu (s : State) : s.cycle.tbu = { s.tbu with
    assembly := s.tbu.assembly.map (fun a => { a with idle := a.idle + 1 })
    shiftTicks := if s.tbu.shifting = none then s.tbu.shiftTicks else s.tbu.shiftTicks + 1 } := by
  unfold State.cycle
  cases s.tbu.shifting <;> rfl

/-- Settles O7: the timers and the second are fixed by the boundary itself, and the carrier's part by `afterTbu`. -/
theorem secondBoundaryGrowsTheEstimate : Obligations.SecondBoundaryGrowsTheEstimate := by
  intro s x hrun ht hx
  obtain rfl : s.cycle.esc = x := hx.symm
  obtain ⟨u, hu⟩ : ∃ u, u = s.cycle.setTbu (s.cycle.tbu.overBoundary s.sst.live) := ⟨_, rfl⟩
  have htbu : u.tbu = s.cycle.tbu.overBoundary s.sst.live := by rw [hu, State.setTbu_tbu]
  have hue : u.esc = s.cycle.esc := by rw [hu, State.setTbu_esc]
  have hstate : u.tbu.state = if s.tbu.state = .holdover
      ∧ 256 * s.sst.live.emissionTolerance < min (s.tbu.h + s.sst.live.holdoverRate) 281474976710655
      then .expired else s.tbu.state := by rw [htbu]; rfl
  have hh : u.tbu.h = if s.tbu.state = .holdover ∨ s.tbu.state = .expired
      then min (s.tbu.h + s.sst.live.holdoverRate) 281474976710655 else s.tbu.h := by rw [htbu]; rfl
  have hn : u.tbu.n = if s.tbu.state = .holdover ∨ s.tbu.state = .expired
      then min (s.tbu.n + 1) 4294967295 else s.tbu.n := by rw [htbu]; rfl
  refine ⟨u.afterTbu s.tbu.state, hu ▸ exec_siteSecondBoundary hrun ht, ?_⟩
  have frame : OnlyChanges [.tbu, .fiu, .esc, .csc, .mgp, .sst] s (u.afterTbu s.tbu.state) :=
    exec_frame (c := .siteSecondBoundary) (hu ▸ exec_siteSecondBoundary hrun ht)
  have quiet : OnlyNotifies s (u.afterTbu s.tbu.state) :=
    (OnlyNotifies.of_mgp (by rw [hu]; rfl)).trans (afterTbu_onlyNotifies u _)
  rw [State.afterTbu_tbu, State.afterTbu_fiu, State.afterTbu_csc, State.afterTbu_sst]
  refine ⟨?_, by rw [hu]; rfl, by rw [hu]; rfl, by rw [hu]; rfl, fun h1 h2 => ?_, fun hg => ?_, fun hg => ?_, fun hg => ?_,
    fun he => ?_, fun hc hs hx => ?_, frame, quiet⟩
  · rw [htbu, cycle_tbu]
    rfl
  · simp [hstate, hh, hn, h1, h2]
  · simp [hh, hn, hg]
  · simp [hstate, hh, hg]
  · simp [hstate, hg]
  · rw [afterTbu_of_same he]
    exact ⟨hue, by rw [hu]; rfl⟩
  · have hcc := cycle_carrierConsistent hc
    have muted := afterTbu_muteTaken hcc hue
    have raised := afterTbu_raised hcc hue (by rw [hx, show s.cycle.tbu.state = .holdover from hs]; decide)
    rw [show s.cycle.tbu.state = s.tbu.state from rfl, hx] at muted raised
    have timing : (u.afterTbu s.tbu.state).esc.mute.timing = true := muted.timing
    obtain ⟨-, assert, -⟩ := id muted
    obtain ⟨carinh, port, -⟩ := assert (by simp [MuteReasons.any, timing])
    refine ⟨muted, timing, carinh, ?_, ?_, Raised.nil ?_⟩
    · rw [← hue, ← carinh, ← port]
      exact afterTbu_esc_fields u _
    · have hcause : u.tbu.noticeCause s.tbu.state = none := by simp [Tbu.noticeCause, hx, hs]
      rw [hcause] at raised
      rw [noticeAt_afterTbu]
      exact raised.of_mgp (by rw [hu]; rfl)
    · rw [afterTbu_insertion, hu]
      rfl

end Machine
end Sys2Proof
end

section
/-! PROOFS. PPS_EDGE outside LOCKED and ACQUIRING (R3, R8, R10, R16, R17). -/

namespace Sys2Proof
namespace Machine

theorem exec_ppsEdge {s : State} (h : s.Running) : exec .ppsEdge s = .next s.pulse := ifRunning_of_running h _

/-- What an event that takes the Time Base Unit to `u`, in another state, makes of the carrier, and its notices. -/
theorem setTbu_afterTbu_effect {s : State} {u : Tbu} (hc : s.CarrierConsistent) (hne : u.state ≠ s.tbu.state) :
    MuteTaken s ((s.setTbu u).afterTbu s.tbu.state) .timing (!u.state.fit)
      ∧ Raised s ((s.setTbu u).afterTbu s.tbu.state) .site
          (noticeAt ((s.setTbu u).afterTbu s.tbu.state) .timeState .none (.time u.state (u.noticeCause s.tbu.state)) ::
            assertNotice s ((s.setTbu u).afterTbu s.tbu.state)) := by
  have raised := afterTbu_raised (u := s.setTbu u) hc rfl hne
  rw [← noticeAt_afterTbu (s.setTbu u) s.tbu.state] at raised
  exact ⟨afterTbu_muteTaken (u := s.setTbu u) hc rfl, raised⟩

/-- The change raises TIME-STATE alone where it does not take the state out of the emission-fit ones. -/
theorem setTbu_afterTbu_raised_alone {s : State} {u : Tbu} (hc : s.CarrierConsistent) (hne : u.state ≠ s.tbu.state)
    (hf : u.state.fit = true ∨ s.tbu.state.fit = false) : Raised s ((s.setTbu u).afterTbu s.tbu.state) .site
      [noticeAt ((s.setTbu u).afterTbu s.tbu.state) .timeState .none (.time u.state (u.noticeCause s.tbu.state))] := by
  have raised := (setTbu_afterTbu_effect hc hne).2
  rwa [afterTbu_assertNotice_nil (u := s.setTbu u) hc rfl hf] at raised

/-! ## UNSET, REFOK low and extra pulses -/

theorem setTime_tracking {s : State} {m : HeldMessage} (ht : m.tracking = true) : s.setTime (some m) = s.setTbu { s.tbu with
    time := { sec := m.seconds, tick := 0 }
    state := .acquiring
    lockCount := 0
    lastServed := some m.seconds
    counters := { s.tbu.counters with timeSteps := bump s.tbu.counters.timeSteps } } := if_pos ht

theorem setTime_not_tracking {s : State} {held : Option HeldMessage} (h : ∀ m, held = some m → m.tracking = false) :
    s.setTime held = s := by
  unfold State.setTime
  split
  · next m => exact if_neg (by rw [h m rfl]; decide)
  · rfl

/-- A pulse in UNSET whose message tracks sets site time (R10). -/
theorem pulse_setsTime {s : State} {m : HeldMessage} (hr : s.refok = true) (hu : s.tbu.state = .unset) (hm : s.tbu.held = some m)
    (ht : m.tracking = true) : s.pulse = (s.setTbu { s.tbu with
      held := none, time := { sec := m.seconds, tick := 0 }, state := .acquiring, lockCount := 0, lastServed := some m.seconds,
      counters := { s.tbu.counters with timeSteps := bump s.tbu.counters.timeSteps } }).afterTbu s.tbu.state := by
  rw [pulse_unset hr hu, hm, setTime_tracking ht, hu]
  rfl

/-- Any other pulse in UNSET only consumes the message. -/
theorem pulse_unset_quiet {s : State} (hr : s.refok = true) (hu : s.tbu.state = .unset)
    (hm : ∀ m, s.tbu.held = some m → m.tracking = false) : s.pulse = s.setTbu { s.tbu with held := none } := by
  rw [pulse_unset hr hu, setTime_not_tracking hm]
  exact afterTbu_of_same hu

theorem pulse_ignored {s : State} (hr : s.refok = false) : s.pulse = s.setTbu { s.tbu with
    held := none, counters := { s.tbu.counters with ignoredPulses := bump s.tbu.counters.ignoredPulses } } := by
  unfold State.pulse
  rw [if_neg (by simp [hr])]
  rfl

/-! ## HOLDOVER and EXPIRED -/

theorem pulse_holdover {s : State} (hr : s.refok = true) (hs : s.tbu.state = .holdover ∨ s.tbu.state = .expired)
    (hx : ¬ s.tbu.Extra) : s.pulse = (s.setTbu (s.tbu.taken.holdoverPulse s.sst.live s.tbu.time (phaseError s.tbu.time)
      s.tbu.message)).afterTbu s.tbu.state := by
  rw [pulse_taken hr (by rcases hs with h | h <;> rw [h] <;> decide) hx]
  unfold State.handled
  rcases hs with hs | hs <;> simp only [hs]

theorem Tbu.taken_of_not_locked {t : Tbu} (hs : t.state ≠ .locked) : t.taken = { t with
    held := none
    lastServed := if (phaseError t.time).natAbs ≤ 2700000 then some (nearestSecond t.time) else t.lastServed
    counters := t.message.counted t.counters } := by
  unfold Tbu.taken
  rw [if_neg (fun h : _ ∧ t.state = .locked => hs h.2)]

/-- A pulse that counts toward relock: it serves its boundary and ends the consistent run. -/
def Tbu.relocked (t : Tbu) : Tbu := { t with
  held := none, lastServed := some (nearestSecond t.time), relockCount := t.relockCount + 1, runCount := 0 }

theorem pulse_relock {s : State} (hr : s.refok = true) (hs : s.tbu.state = .holdover ∨ s.tbu.state = .expired)
    (hx : ¬ s.tbu.Extra) (hw : (phaseError s.tbu.time).natAbs ≤ 2700000)
    (hlock : (phaseError s.tbu.time).natAbs ≤ s.sst.live.lockWindow) (hm : ∀ sec, s.tbu.message ≠ .disagreeing sec) :
    s.pulse = (s.setTbu (if 3 ≤ s.tbu.relockCount + 1 then s.tbu.relocked.enterLocked else s.tbu.relocked)).afterTbu
      s.tbu.state := by
  have htaken : s.tbu.taken = { s.tbu with held := none, lastServed := some (nearestSecond s.tbu.time) } := by
    rw [Tbu.taken_of_not_locked (by rcases hs with h | h <;> rw [h] <;> decide), if_pos hw, PulseMessage.counted_of_not hm]
  rw [pulse_holdover hr hs hx, Tbu.holdoverPulse_relock hlock hm, htaken]
  rfl

/-- The part with a pulse outside the lock window, or one whose message disagrees, in the consistent run. -/
def Tbu.runExtended (t : Tbu) (x : Settings) : Tbu := t.taken.extendRun x t.time

theorem pulse_run {s : State} (hr : s.refok = true) (hs : s.tbu.state = .holdover ∨ s.tbu.state = .expired)
    (hx : ¬ s.tbu.Extra) (hd : s.sst.live.lockWindow < (phaseError s.tbu.time).natAbs ∨ ∃ sec, s.tbu.message = .disagreeing sec) :
    s.pulse = (s.setTbu (if 8 ≤ (s.tbu.runExtended s.sst.live).runCount
      then (s.tbu.runExtended s.sst.live).enterAcquiring.acquiringPulse s.sst.live (phaseError s.tbu.time) s.tbu.message
      else s.tbu.runExtended s.sst.live)).afterTbu s.tbu.state := by
  rw [pulse_holdover hr hs hx, Tbu.holdoverPulse_run hd]
  rfl

theorem Tbu.runExtended_eq {t : Tbu} {x : Settings} {run : Nat} {d : Int} (hs : t.state ≠ .locked)
    (hd : d = t.time.since t.runLast)
    (hrun : run = if t.runCount = 0 then 1
      else if 27000000 - (x.lockWindow : Int) ≤ d ∧ d ≤ 27000000 + (x.lockWindow : Int) then t.runCount + 1 else 1) :
    t.runExtended x = { t with
      held := none
      lastServed := if (phaseError t.time).natAbs ≤ 2700000 then some (nearestSecond t.time) else t.lastServed
      counters := t.message.counted t.counters
      relockCount := 0, runCount := run, runLast := t.time } := by
  subst hrun hd
  unfold Tbu.runExtended
  rw [Tbu.taken_of_not_locked hs]
  simp only [Tbu.extendRun, Bool.and_eq_true, decide_eq_true_eq]
  rfl

/-- The pulse that ends a consistent run, taken in ACQUIRING with a lock count of 0: it is outside the lock window or its message
disagrees, so it does not lock, and it steps site time or runs the loop as R11 says. -/
theorem Tbu.acquiringPulse_outside {t : Tbu} {x : Settings} {m : PulseMessage}
    (hd : x.lockWindow < (phaseError t.time).natAbs ∨ ∃ sec, m = .disagreeing sec) :
    let u := t.acquiringPulse x (phaseError t.time) m
    (u.state = t.state ∧ u.lockCount = 0 ∧ u.held = t.held ∧ u.cause = t.cause ∧ u.eLast = t.eLast ∧ u.n = t.n ∧ u.h = t.h)
      ∧ (x.stepThreshold < (phaseError t.time).natAbs → (∀ sec, m ≠ .disagreeing sec) →
          u.time = { sec := nearestSecond t.time, tick := 0 } ∧ u.integrator = t.integrator
          ∧ u.counters = { t.counters with timeSteps := bump t.counters.timeSteps })
      ∧ (∀ sec, m = .disagreeing sec → nearestSecond u.time = sec
          ∧ u.counters = { t.counters with timeSteps := bump t.counters.timeSteps })
      ∧ ((phaseError t.time).natAbs ≤ x.stepThreshold → u.lastLoopError = phaseError t.time) := by
  intro u
  by_cases hm : ∃ sec, m = .disagreeing sec
  · obtain ⟨sec, rfl⟩ := hm
    by_cases h : x.stepThreshold < (phaseError t.time).natAbs
    · have hu : u = _ := Tbu.acquiringPulse_bothSteps h
      rw [hu]
      refine ⟨⟨rfl, rfl, rfl, rfl, rfl, rfl, rfl⟩, fun _ hn => absurd rfl (hn sec), fun _ hs => ?_,
        fun hn => absurd h (Nat.not_lt.2 hn)⟩
      cases hs
      exact ⟨rfl, rfl⟩
    · have hu : u = _ := Tbu.acquiringPulse_secondStep h
      rw [Tbu.loop_eq t _ _ _ rfl rfl rfl] at hu
      rw [hu]
      refine ⟨⟨rfl, rfl, rfl, rfl, rfl, rfl, rfl⟩, fun hs => absurd hs h, fun _ hs => ?_, fun _ => rfl⟩
      cases hs
      exact ⟨nearestSecond_ofMessage sec _, rfl⟩
  · have hn : ∀ sec, m ≠ .disagreeing sec := fun sec h => hm ⟨sec, h⟩
    have hout : x.lockWindow < (phaseError t.time).natAbs := hd.resolve_right hm
    by_cases h : x.stepThreshold < (phaseError t.time).natAbs
    · have hu : u = _ := Tbu.acquiringPulse_phaseStep h hn
      rw [hu]
      exact ⟨⟨rfl, rfl, rfl, rfl, rfl, rfl, rfl⟩, fun _ _ => ⟨rfl, rfl, rfl⟩, fun sec hs => absurd hs (hn sec),
        fun hn => absurd h (Nat.not_lt.2 hn)⟩
    · have hu : u = _ := Tbu.acquiringPulse_loop h hn (if_neg (Nat.not_le.2 hout)).symm
      rw [if_neg (by decide), Tbu.loop_eq t _ _ _ rfl rfl rfl] at hu
      rw [hu]
      exact ⟨⟨rfl, rfl, rfl, rfl, rfl, rfl, rfl⟩, fun hs => absurd hs h, fun sec hs => absurd hs (hn sec), fun _ => rfl⟩

/-- Settles O8, by the kinds of pulse outside the loop. -/
theorem pulsesOutsideTheLoop : Obligations.PulsesOutsideTheLoop := by
  refine ⟨fun s hrun => ⟨fun m hr hu hm ht => ?_, fun hr hu hm => ?_, fun hr => ?_, fun hr hu hw hl => ?_⟩,
    fun s n e hrun hr hs hn he => ?_⟩
  · refine ⟨_, (exec_ppsEdge hrun).trans (congrArg _ (pulse_setsTime hr hu hm ht)), by simp, fun hc => ⟨?_, ?_⟩,
      setTbu_afterTbu_frame s _ _, setTbu_afterTbu_onlyNotifies s _ _⟩
    · exact afterTbu_esc_of_fit (u := s.setTbu _) hc rfl (by rw [hu]; rfl)
    · exact setTbu_afterTbu_raised_alone hc (fun h => nomatch h.trans hu) (.inr (by rw [hu]; rfl))
  · exact (exec_ppsEdge hrun).trans (congrArg _ (pulse_unset_quiet hr hu hm))
  · exact (exec_ppsEdge hrun).trans (congrArg _ (pulse_ignored hr))
  · exact (exec_ppsEdge hrun).trans (congrArg _ (pulse_extra hr hu ⟨hw, hl⟩))
  subst hn he
  have unlocked : s.tbu.state ≠ .locked := by rcases hs with h | h <;> rw [h] <;> exact fun h => nomatch h
  have settled : s.tbu.state ≠ .acquiring := by rcases hs with h | h <;> rw [h] <;> exact fun h => nomatch h
  refine ⟨fun hlock hwin hserved hm => ?_, fun run d hx hd hdist hcount => ?_⟩
  · have hpulse := (exec_ppsEdge hrun).trans (congrArg _ (pulse_relock hr hs (fun h => hserved h.2) (by omega) hlock
      (Tbu.message_not_disagreeing hm)))
    refine ⟨fun h3 => ?_, fun h3 => ?_⟩
    · rw [hpulse, if_neg (by omega)]
      exact congrArg _ (afterTbu_of_same rfl)
    · rw [if_pos h3] at hpulse
      refine ⟨_, hpulse, by rw [State.afterTbu_tbu]; rfl, fun hc => ⟨?_, ?_⟩,
        setTbu_afterTbu_frame s _ _, setTbu_afterTbu_onlyNotifies s _ _⟩
      · exact (setTbu_afterTbu_effect hc (Ne.symm unlocked)).1
      · have raised := setTbu_afterTbu_raised_alone (u := s.tbu.relocked.enterLocked) hc (Ne.symm unlocked) (.inl rfl)
        rwa [noticeAt_afterTbu] at raised
  · have hpulse := (exec_ppsEdge hrun).trans (congrArg _ (pulse_run hr hs hx (hd.imp_right fun ⟨m, hm, ht, hsec⟩ =>
      ⟨_, Tbu.message_disagreeing hm ht hsec⟩)))
    have hextended := Tbu.runExtended_eq unlocked hdist hcount
    have disagrees : ∀ m, s.tbu.held = some m → m.tracking = true → m.seconds ≠ nearestSecond s.tbu.time →
        s.tbu.message.counted s.tbu.counters =
          { s.tbu.counters with messageMismatches := bump s.tbu.counters.messageMismatches } := fun m hm ht hsec => by
      rw [Tbu.message_disagreeing hm ht hsec]
      rfl
    have agrees : (∀ m, s.tbu.held = some m → m.tracking = true → m.seconds = nearestSecond s.tbu.time) →
        s.tbu.message.counted s.tbu.counters = s.tbu.counters := fun hm =>
      PulseMessage.counted_of_not (Tbu.message_not_disagreeing hm) _
    refine ⟨fun h8 => ?_, fun h8 => ?_⟩
    · rw [if_neg (by rw [hextended]; exact Nat.not_le.2 h8), afterTbu_of_same (by rw [hextended]; rfl)] at hpulse
      refine ⟨_, hpulse, ?_⟩
      rw [State.setTbu_tbu, hextended]
      exact ⟨rfl, fun ⟨m, hm, ht, hsec⟩ => disagrees m hm ht hsec, agrees, setTbu_frame s _⟩
    · rw [if_pos (by rw [hextended]; exact h8)] at hpulse
      have outside := Tbu.acquiringPulse_outside (t := (s.tbu.runExtended s.sst.live).enterAcquiring) (x := s.sst.live)
        (m := s.tbu.message) (hd.imp_right fun ⟨m, hm, ht, hsec⟩ => ⟨_, Tbu.message_disagreeing hm ht hsec⟩)
      obtain ⟨u, hu⟩ : ∃ u, u = (s.tbu.runExtended s.sst.live).enterAcquiring.acquiringPulse s.sst.live
        (phaseError s.tbu.time) s.tbu.message := ⟨_, rfl⟩
      rw [← hu] at hpulse
      have hframe : (s.tbu.runExtended s.sst.live).enterAcquiring.time = s.tbu.time
        ∧ (s.tbu.runExtended s.sst.live).enterAcquiring.integrator = s.tbu.integrator
        ∧ (s.tbu.runExtended s.sst.live).enterAcquiring.counters = s.tbu.message.counted s.tbu.counters := ⟨rfl, rfl, rfl⟩
      obtain ⟨htime, hintegrator, hcounters⟩ := hframe
      rw [htime, hintegrator, hcounters, ← hu] at outside
      obtain ⟨⟨hstate, hlocks, hheld, hcause, hlast, hcount, hest⟩, phaseStep, secondStep, loop⟩ := outside
      have acquiring : u.state = .acquiring := hstate
      have hne : u.state ≠ s.tbu.state := fun h => settled (h.symm.trans acquiring)
      refine ⟨_, hpulse, ?_⟩
      rw [State.afterTbu_tbu, State.setTbu_tbu]
      refine ⟨hstate, hlocks, hheld, hcause, hlast, hcount, hest, fun hstep _ hm => ?_, fun m hm ht hsec _ => ?_, loop,
        fun hc => ?_, setTbu_afterTbu_frame s _ _, setTbu_afterTbu_onlyNotifies s _ _⟩
      · have stepped := phaseStep hstep (Tbu.message_not_disagreeing hm)
        rwa [agrees hm] at stepped
      · have stepped := secondStep _ (Tbu.message_disagreeing hm ht hsec)
        rwa [disagrees m hm ht hsec] at stepped
      · have effect := setTbu_afterTbu_effect hc hne
        have hquiet : u.noticeCause s.tbu.state = none := by simp only [Tbu.noticeCause, acquiring]
        rwa [acquiring, hquiet] at effect

end Machine
end Sys2Proof
end

section
/-! PROOFS. PPS_EDGE in LOCKED (R6, R12 to R15, R18, R19). -/

namespace Sys2Proof
namespace Machine

/-! ## Judging the counts (R12) -/

/-- The part with the mismatch count after a pulse's message. -/
def Tbu.matched (t : Tbu) (m : PulseMessage) : Tbu := { t with mismatchCount := mismatchAfter t.mismatchCount m }

theorem Tbu.judged_outliers {t : Tbu} {x : Settings} {m : PulseMessage} (ho : 3 ≤ t.outlierCount) :
    t.judged x m = (t.matched m).enterHoldover x .refJump := if_pos ho

theorem Tbu.judged_mismatches {t : Tbu} {x : Settings} {m : PulseMessage} (ho : t.outlierCount < 3)
    (hm : 3 ≤ mismatchAfter t.mismatchCount m) : t.judged x m = (t.matched m).enterHoldover x .timeMismatch :=
  (if_neg (Nat.not_le.2 ho)).trans (if_pos hm)

theorem Tbu.judged_stays {t : Tbu} {x : Settings} {m : PulseMessage} (ho : t.outlierCount < 3)
    (hm : mismatchAfter t.mismatchCount m < 3) : t.judged x m = t.matched m :=
  (if_neg (Nat.not_le.2 ho)).trans (if_neg (Nat.not_le.2 hm))

/-- Three of either kind enter HOLDOVER, with a cause. -/
theorem Tbu.judged_enters {t : Tbu} {x : Settings} {m : PulseMessage}
    (h : 3 ≤ t.outlierCount ∨ 3 ≤ mismatchAfter t.mismatchCount m) : ∃ c, t.judged x m = (t.matched m).enterHoldover x c := by
  by_cases ho : 3 ≤ t.outlierCount
  · exact ⟨_, judged_outliers ho⟩
  · exact ⟨_, judged_mismatches (Nat.not_le.1 ho) (h.resolve_left ho)⟩

/-- What judging the counts leaves, whatever it decides. -/
theorem Tbu.judged_fields (t : Tbu) (x : Settings) (m : PulseMessage) :
    ((t.judged x m).integrator = t.integrator ∧ (t.judged x m).lastLoopError = t.lastLoopError ∧ (t.judged x m).time = t.time
      ∧ (t.judged x m).held = t.held ∧ (t.judged x m).outlierCount = t.outlierCount)
    ∧ (t.judged x m).mismatchCount = mismatchAfter t.mismatchCount m ∧ (t.judged x m).counters = t.counters
    ∧ (t.judged x m).lastServed = t.lastServed ∧ (t.judged x m).missingCount = t.missingCount := by
  by_cases h : 3 ≤ t.outlierCount ∨ 3 ≤ mismatchAfter t.mismatchCount m
  · obtain ⟨c, hc⟩ := judged_enters (x := x) h
    rw [hc, Tbu.enterHoldover_eq]
    exact ⟨⟨rfl, rfl, rfl, rfl, rfl⟩, rfl, rfl, rfl, rfl⟩
  · rw [judged_stays (by omega) (by omega)]
    exact ⟨⟨rfl, rfl, rfl, rfl, rfl⟩, rfl, rfl, rfl, rfl⟩

/-- The mismatch count after a held message, by what the message says (R12). -/
theorem mismatchAfter_message (t : Tbu) (n : Nat) : mismatchAfter n t.message = match t.held with
    | some m => if m.tracking then (if m.seconds = nearestSecond t.time then 0 else n + 1) else n
    | none => n := by
  cases h : t.held with
  | none => rw [Tbu.message_none (fun m hm => nomatch h.symm.trans hm)]; rfl
  | some m =>
    by_cases ht : m.tracking = true
    · by_cases hs : m.seconds = nearestSecond t.time
      · rw [Tbu.message_agreeing h ht hs]
        simp [ht, hs, mismatchAfter]
      · rw [Tbu.message_disagreeing h ht hs]
        simp [ht, hs, mismatchAfter]
    · rw [Tbu.message_none (fun m' hm => by cases h.symm.trans hm; simpa using ht)]
      simp [ht, mismatchAfter]

/-! ## The steer limit (R19, R21) -/

theorem clampSteer_ne_iff (w : Int) : max (-32768) (min 32767 w) ≠ w ↔ w < -32768 ∨ 32767 < w := by omega

theorem clampSteer_pos_iff (w : Int) : 0 < max (-32768) (min 32767 w) ↔ 0 < w := by omega

/-- The part with its steer-limit run after a loop pulse. -/
def Tbu.limited (t : Tbu) : Tbu := { t with
  steerLimitRun := if t.steerSat then min (t.steerLimitRun + 1) (max 16 t.steerLimitRun) else 0 }

theorem steerLimit_effect (s : State) : s.steerLimit.tbu = s.tbu.limited ∧ OnlyNotifies s s.steerLimit
    ∧ Raised s s.steerLimit .site (if s.tbu.steerSat = true ∧ s.tbu.steerLimitRun + 1 = 16
        then [noticeAt s .steerLimit .none (.steer (decide (0 < s.tbu.steer)))] else []) := by
  rw [steerLimit_eq]
  split
  · exact ⟨rfl, (OnlyNotifies.of_mgp rfl).trans (raiseSite_onlyNotifies (s.setTbu s.tbu.limited) _ _ _),
      (raiseSite_raised (s.setTbu s.tbu.limited) _ _ _).of_mgp rfl⟩
  · exact ⟨rfl, .of_mgp rfl, .nil rfl⟩

/-! ## A pulse inside the lock window -/

/-- A taken pulse of a LOCKED part after its loop pulse (R12). -/
def Tbu.inLoop (t : Tbu) (x : Settings) : Tbu :=
  { t.taken.loop x.trackGp x.trackGi (phaseError t.time) with outlierCount := 0 }

theorem Tbu.inLoop_eq {t : Tbu} {x : Settings} {e ec i w : Int} (hs : t.state = .locked) (he : e = phaseError t.time)
    (hwin : e.natAbs ≤ 2700000) (hec : ec = max (-32768) (min 32767 e))
    (hi : i = max (-34359738368) (min 34359738367 (t.integrator - ec * 2 ^ x.trackGi)))
    (hw : w = convergent (i - ec * 2 ^ x.trackGp) 65536) : t.inLoop x = { t with
      held := none
      lastServed := some (nearestSecond t.time)
      outlierCount := 0
      missingCount := 0
      counters := t.message.counted t.counters
      integrator := i
      integratorSat := decide (i ≠ t.integrator - ec * 2 ^ x.trackGi)
      steer := max (-32768) (min 32767 w)
      steerSat := decide (max (-32768) (min 32767 w) ≠ w)
      lastLoopError := e
      shifting := some (t.shifting.getD (steeringWord (max (-32768) (min 32767 w))))
      waiting := if t.shifting = none then t.waiting else some (steeringWord (max (-32768) (min 32767 w))) } := by
  have htaken : t.taken = { t with
      held := none, lastServed := some (nearestSecond t.time), missingCount := 0
      counters := t.message.counted t.counters } := by
    unfold Tbu.taken
    rw [← he, if_pos hwin, if_pos ⟨hwin, hs⟩]
  unfold Tbu.inLoop
  rw [← he, Tbu.loop_eq t.taken _ _ e hec (htaken ▸ hi) hw, htaken]

/-- The part after the loop pulse and its STEER-LIMIT, and the whole pulse from there. -/
theorem pulse_loop {s : State} {e ec i w : Int} {limit : List Notice} (hr : s.refok = true) (hs : s.tbu.state = .locked)
    (he : e = phaseError s.tbu.time) (hlock : e.natAbs ≤ s.sst.live.lockWindow) (hwin : s.sst.live.lockWindow ≤ 2700)
    (hserved : s.tbu.lastServed ≠ some (nearestSecond s.tbu.time)) (hec : ec = max (-32768) (min 32767 e))
    (hi : i = max (-34359738368) (min 34359738367 (s.tbu.integrator - ec * 2 ^ s.sst.live.trackGi)))
    (hw : w = convergent (i - ec * 2 ^ s.sst.live.trackGp) 65536)
    (hl : limit = if (w < -32768 ∨ 32767 < w) ∧ s.tbu.steerLimitRun + 1 = 16
      then [noticeAt s .steerLimit .none (.steer (decide (0 < w)))] else []) :
    ∃ v, OnlyChanges [.tbu, .mgp] s v ∧ OnlyNotifies s v ∧ Raised s v .site limit
      ∧ s.pulse = (v.setTbu ((s.tbu.inLoop s.sst.live).limited.judged s.sst.live s.tbu.message)).afterTbu .locked := by
  obtain ⟨htbu, quiet, raised⟩ := steerLimit_effect (s.setTbu (s.tbu.inLoop s.sst.live))
  refine ⟨(s.setTbu (s.tbu.inLoop s.sst.live)).steerLimit, (setTbu_frame s _).seq (steerLimit_frame _),
    (OnlyNotifies.of_mgp rfl).trans quiet, ?_, ?_⟩
  · have hlimit : limit = if (s.tbu.inLoop s.sst.live).steerSat = true ∧ (s.tbu.inLoop s.sst.live).steerLimitRun + 1 = 16
        then [noticeAt (s.setTbu (s.tbu.inLoop s.sst.live)) .steerLimit .none
          (.steer (decide (0 < (s.tbu.inLoop s.sst.live).steer)))] else [] := by
      simp only [hl, noticeAt, State.setTbu_tbu, Tbu.inLoop_eq hs he (by omega) hec hi hw, decide_eq_true_eq,
        clampSteer_ne_iff, clampSteer_pos_iff]
    rw [hlimit]
    exact raised.of_mgp rfl
  · rw [pulse_taken hr (fun h => nomatch hs.symm.trans h) (fun h => hserved h.2)]
    unfold State.handled
    simp only [hs, ← he]
    rw [lockedPulse_loop (s := s.setTbu s.tbu.taken) _ hlock]
    have hloop : (s.setTbu s.tbu.taken).setTbu { s.tbu.taken.loop s.sst.live.trackGp s.sst.live.trackGi e with outlierCount := 0 }
        = s.setTbu (s.tbu.inLoop s.sst.live) := by rw [he]; rfl
    rw [State.setTbu_tbu, State.setTbu_sst, hloop]
    unfold State.judged
    rw [htbu, steerLimit_frame _ .sst (by decide)]
    rfl

theorem setTbu_afterTbu_of_same {s : State} {x : Tbu} {old : DisciplineState} (h : x.state = old) :
    (s.setTbu x).afterTbu old = s.setTbu x := afterTbu_of_same h

/-! ## A pulse outside the lock window -/

/-- A taken pulse of a LOCKED part counted as an outlier (R12). -/
def Tbu.outlier (t : Tbu) : Tbu := { t.taken with
  outlierCount := t.outlierCount + 1
  counters := { t.taken.counters with referenceOutliers := bump t.taken.counters.referenceOutliers } }

theorem PulseMessage.counted_referenceOutliers (m : PulseMessage) (c : TbuCounters) :
    (m.counted c).referenceOutliers = c.referenceOutliers := by cases m <;> rfl

theorem pulse_outlier {s : State} (hr : s.refok = true) (hs : s.tbu.state = .locked)
    (hlock : s.sst.live.lockWindow < (phaseError s.tbu.time).natAbs) (hx : ¬ s.tbu.Extra) :
    s.pulse = (s.setTbu (s.tbu.outlier.judged s.sst.live s.tbu.message)).afterTbu .locked := by
  rw [pulse_taken hr (fun h => nomatch hs.symm.trans h) hx]
  unfold State.handled
  simp only [hs]
  rw [lockedPulse_outlier (s := s.setTbu s.tbu.taken) _ hlock]
  rfl

/-- Settles O9: without and with a message inside the lock window, and outside it. -/
theorem lockedPulseRunsTheLoop : Obligations.LockedPulseRunsTheLoop := by
  refine ⟨fun s e ec i w limit hrun hr hs he hlock hwin hserved hm hcount hec hi hw hl => ?_,
    fun s n e ec i w limit m hrun hr hs hn he hheld ht hlock hwin hserved hec hi hw hl => ?_,
    fun s n e mismatches hrun hr hs hn he hlock hx hmis => ?_⟩
  · have looped := Tbu.inLoop_eq hs he (by omega) hec hi hw
    have stays : (s.tbu.inLoop s.sst.live).limited.judged s.sst.live s.tbu.message =
        (s.tbu.inLoop s.sst.live).limited.matched s.tbu.message := by
      rw [looped, Tbu.message_none hm]
      exact Tbu.judged_stays (Nat.succ_pos 2) hcount
    have hstate : ((s.tbu.inLoop s.sst.live).limited.matched s.tbu.message).state = .locked := by rw [looped]; exact hs
    obtain ⟨v, frame, quiet, raised, hpulse⟩ := pulse_loop hr hs he hlock hwin hserved hec hi hw hl
    rw [stays, setTbu_afterTbu_of_same hstate, looped, Tbu.message_none hm] at hpulse
    refine ⟨_, (exec_ppsEdge hrun).trans (congrArg _ hpulse), rfl, raised, rfl, rfl, rfl, rfl, rfl, fun hshift => ?_,
      fun hshift => ⟨?_, if_neg hshift⟩, hs, rfl, rfl, rfl, rfl, rfl, rfl, rfl, frame.seq (setTbu_frame v _),
      quiet.trans (.of_mgp rfl)⟩
    · rw [State.setTbu_tbu, hshift]
      rfl
    · rw [State.setTbu_tbu]
      exact Option.getD_of_ne_none hshift _
  · have looped := Tbu.inLoop_eq hs he (by omega) hec hi hw
    obtain ⟨v, frame, quiet, raised, hpulse⟩ := pulse_loop hr hs he hlock hwin (hn ▸ hserved) hec hi hw hl
    have hexec := (exec_ppsEdge hrun).trans (congrArg _ hpulse)
    obtain ⟨L, hL⟩ : ∃ L, L = (s.tbu.inLoop s.sst.live).limited := ⟨_, rfl⟩
    rw [← hL] at hexec
    rw [looped] at hL
    have houtliers : L.outlierCount < 3 := by rw [hL]; exact Nat.succ_pos 2
    have hmismatches : L.mismatchCount = s.tbu.mismatchCount := by rw [hL]; rfl
    obtain ⟨⟨hintegrator, hloop, htime, hheld', hcount⟩, hmatch, hcounters, -⟩ := L.judged_fields s.sst.live s.tbu.message
    refine ⟨_, hexec, ?_⟩
    rw [State.afterTbu_tbu, State.setTbu_tbu, hintegrator, hloop, htime, hheld', hcount, hmatch, hcounters, hmismatches]
    have stays : mismatchAfter L.mismatchCount s.tbu.message < 3 →
        (L.judged s.sst.live s.tbu.message).state = .locked
        ∧ (L.judged s.sst.live s.tbu.message).steer = max (-32768) (min 32767 w)
        ∧ ((v.setTbu (L.judged s.sst.live s.tbu.message)).afterTbu .locked).esc = s.esc
        ∧ Raised s ((v.setTbu (L.judged s.sst.live s.tbu.message)).afterTbu .locked) .site limit := fun hm => by
      have hstate : (L.matched s.tbu.message).state = .locked := by rw [hL]; exact hs
      rw [Tbu.judged_stays houtliers hm, setTbu_afterTbu_of_same hstate]
      exact ⟨hstate, by rw [hL]; rfl, frame .esc (by decide), raised⟩
    refine ⟨by rw [hL]; rfl, by rw [hL]; rfl, by rw [hL]; rfl, by rw [hL]; rfl, by rw [hL]; rfl, fun hagree => ?_,
      fun hdis => ?_, exec_frame (c := .ppsEdge) hexec, quiet.trans (setTbu_afterTbu_onlyNotifies v _ _)⟩
    · have hmsg := Tbu.message_agreeing hheld ht (hagree.trans hn)
      obtain ⟨hstate, hsteer, hesc, hraised⟩ := stays (by rw [hmsg]; exact Nat.succ_pos 2)
      exact ⟨hstate, by rw [hmsg]; rfl, by rw [hL, hmsg]; rfl, hsteer, hesc, hraised⟩
    · have hmsg := Tbu.message_disagreeing hheld ht (hn ▸ hdis)
      have hafter : mismatchAfter L.mismatchCount s.tbu.message = s.tbu.mismatchCount + 1 := by rw [hmismatches, hmsg]; rfl
      refine ⟨by rw [hmsg]; rfl, by rw [hL, hmsg]; rfl, fun h2 => stays (hafter ▸ h2), fun h3 => ?_⟩
      rw [Tbu.judged_mismatches houtliers (hafter ▸ h3)]
      have hpeak : min (256 * e.natAbs) 281474976710655 = 256 * e.natAbs := by omega
      refine ⟨?_, ?_, ?_, ?_, fun hc => ?_⟩
      · rw [Tbu.enterHoldover_eq]
      · rw [Tbu.enterHoldover_eq, hL]; rfl
      · rw [Tbu.enterHoldover_eq, hL]; rfl
      · rw [Tbu.enterHoldover_eq, ← hpeak, hL]; rfl
      · have effect := enterHoldover_effect (s := s) (u := v.setTbu ((L.matched s.tbu.message).enterHoldover s.sst.live .timeMismatch))
          (t := L.matched s.tbu.message) hc (frame .esc (by decide)) hs rfl (by rw [hL]; rfl)
        exact ⟨effect.1, raised.append (effect.2.of_mgp rfl)⟩
  · subst hn he
    have hexec := (exec_ppsEdge hrun).trans (congrArg _ (pulse_outlier hr hs hlock hx))
    have hafter : mismatchAfter s.tbu.outlier.mismatchCount s.tbu.message = mismatches :=
      (mismatchAfter_message s.tbu s.tbu.mismatchCount).trans hmis.symm
    have houtliers : s.tbu.outlier.outlierCount = s.tbu.outlierCount + 1 := rfl
    obtain ⟨⟨hintegrator, hloop, htime, hheld, hcount⟩, hmatch, hcounters, hlast, hmissing⟩ :=
      s.tbu.outlier.judged_fields s.sst.live s.tbu.message
    refine ⟨_, hexec, ?_⟩
    rw [State.afterTbu_tbu, State.setTbu_tbu, hintegrator, hloop, htime, hheld, hcount, hmatch, hcounters, hlast, hmissing]
    refine ⟨rfl, rfl, rfl, rfl, rfl, hafter, congrArg bump (PulseMessage.counted_referenceOutliers _ _), fun hwin => ?_,
      fun hwin => ?_, fun h2 hm => ?_, fun h3 => ?_, fun h2 hm => ?_, fun h => ?_,
      exec_frame (c := .ppsEdge) hexec, setTbu_afterTbu_onlyNotifies s _ _⟩
    · exact ⟨if_pos hwin, if_pos ⟨hwin, hs⟩⟩
    · exact ⟨if_neg (Nat.not_le.2 hwin), if_neg (fun h => Nat.not_le.2 hwin h.1)⟩
    · have hstate : (s.tbu.outlier.matched s.tbu.message).state = .locked := hs
      rw [Tbu.judged_stays (houtliers ▸ h2) (hafter ▸ hm), setTbu_afterTbu_of_same hstate]
      exact ⟨hs, rfl, rfl, rfl⟩
    · rw [Tbu.judged_outliers (houtliers ▸ h3), Tbu.enterHoldover_eq]
    · rw [Tbu.judged_mismatches (houtliers ▸ h2) (hafter ▸ hm), Tbu.enterHoldover_eq]
    · obtain ⟨c, hc⟩ := Tbu.judged_enters (x := s.sst.live) (hafter ▸ h : 3 ≤ s.tbu.outlier.outlierCount ∨
        3 ≤ mismatchAfter s.tbu.outlier.mismatchCount s.tbu.message)
      rw [hc]
      have effect := fun hc => enterHoldover_effect (s := s)
        (u := s.setTbu ((s.tbu.outlier.matched s.tbu.message).enterHoldover s.sst.live c)) hc rfl hs rfl rfl
      refine ⟨?_, ?_, ?_, ?_, ?_, ?_, enterHoldover_state _ _ _, fun hcc => ⟨(effect hcc).1, ?_⟩⟩
      · rw [Tbu.enterHoldover_eq]; rfl
      · rw [Tbu.enterHoldover_eq]
      · rw [Tbu.enterHoldover_eq]; rfl
      · rw [Tbu.enterHoldover_eq]; rfl
      · rw [Tbu.enterHoldover_eq]
      · rw [Tbu.enterHoldover_eq]
      · have hcause : ((s.tbu.outlier.matched s.tbu.message).enterHoldover s.sst.live c).cause = some c := by
          rw [Tbu.enterHoldover_eq]
        rw [hcause]
        exact (effect hcc).2.of_mgp rfl

end Machine
end Sys2Proof
end

section
/-! PROOFS. PPS_EDGE in ACQUIRING (R2, R6, R11, R18). -/

namespace Sys2Proof
namespace Machine

/-- An ACQUIRING part after a taken pulse. -/
def Tbu.acquired (t : Tbu) (x : Settings) : Tbu := t.taken.acquiringPulse x (phaseError t.time) t.message

theorem pulse_acquiring {s : State} (hr : s.refok = true) (hs : s.tbu.state = .acquiring) (hx : ¬ s.tbu.Extra) :
    s.pulse = (s.setTbu (s.tbu.acquired s.sst.live)).afterTbu .acquiring := by
  rw [pulse_taken hr (fun h => nomatch hs.symm.trans h) hx]
  unfold State.handled
  simp only [hs]
  rfl

section
variable {t : Tbu} {x : Settings} (hs : t.state = .acquiring)
include hs

theorem Tbu.taken_of_acquiring : t.taken = { t with
    held := none
    lastServed := if (phaseError t.time).natAbs ≤ 2700000 then some (nearestSecond t.time) else t.lastServed
    counters := t.message.counted t.counters } := Tbu.taken_of_not_locked (fun h => nomatch hs.symm.trans h)

theorem Tbu.acquired_phaseStep (h : x.stepThreshold < (phaseError t.time).natAbs) (hm : ∀ sec, t.message ≠ .disagreeing sec) :
    t.acquired x = { t with
      held := none
      time := { sec := nearestSecond t.time, tick := 0 }
      lastServed := some (nearestSecond t.time)
      lastMissing := none
      lockCount := 0
      counters := { t.counters with timeSteps := bump t.counters.timeSteps } } := by
  refine (Tbu.acquiringPulse_phaseStep (t := t.taken) h hm).trans ?_
  rw [Tbu.taken_of_acquiring hs, PulseMessage.counted_of_not hm]

/-- The counts of a pulse whose message disagrees: one mismatch, and one step in all (R2, R6). -/
theorem Tbu.acquired_bothSteps {sec : Word32} (h : x.stepThreshold < (phaseError t.time).natAbs)
    (hm : t.message = .disagreeing sec) : t.acquired x = { t with
      held := none
      time := { sec := sec, tick := 0 }
      lastServed := some sec
      lastMissing := none
      lockCount := 0
      counters := { t.counters with
        timeSteps := bump t.counters.timeSteps, messageMismatches := bump t.counters.messageMismatches } } := by
  unfold Tbu.acquired
  rw [hm]
  refine (Tbu.acquiringPulse_bothSteps (t := t.taken) h).trans ?_
  rw [Tbu.taken_of_acquiring hs, hm]
  rfl

theorem Tbu.acquired_secondStep {sec : Word32} (h : ¬ x.stepThreshold < (phaseError t.time).natAbs)
    (hm : t.message = .disagreeing sec) :
    (t.acquired x).lastLoopError = phaseError t.time
      ∧ (t.acquired x).time = { sec := if t.time.tick < 13500000 then sec else sec - 1, tick := t.time.tick }
      ∧ (t.acquired x).state = .acquiring ∧ (t.acquired x).lockCount = 0 ∧ (t.acquired x).held = none
      ∧ (t.acquired x).lastServed = some sec ∧ (t.acquired x).lastMissing = none
      ∧ (t.acquired x).counters = { t.counters with
          timeSteps := bump t.counters.timeSteps, messageMismatches := bump t.counters.messageMismatches } := by
  unfold Tbu.acquired
  rw [hm, Tbu.acquiringPulse_secondStep h, Tbu.loop_eq _ _ _ _ rfl rfl rfl, Tbu.taken_of_acquiring hs, hm]
  exact ⟨rfl, rfl, hs, rfl, rfl, rfl, rfl, rfl⟩

end

/-- The loop pulse with the acquire gains (R18), before the state is judged. -/
def Tbu.acquireLoop (t : Tbu) (x : Settings) (locks : Nat) : Tbu :=
  { t.taken.loop x.acquireGp x.acquireGi (phaseError t.time) with lockCount := locks }

theorem Tbu.acquired_loop {t : Tbu} {x : Settings} {locks : Nat} (h : ¬ x.stepThreshold < (phaseError t.time).natAbs)
    (hm : ∀ sec, t.message ≠ .disagreeing sec)
    (hl : locks = if (phaseError t.time).natAbs ≤ x.lockWindow then t.lockCount + 1 else 0) :
    t.acquired x = if 8 ≤ locks then (t.acquireLoop x locks).enterLocked else t.acquireLoop x locks :=
  Tbu.acquiringPulse_loop (t := t.taken) h hm hl

theorem Tbu.acquireLoop_fields {t : Tbu} {x : Settings} {locks : Nat} (hm : ∀ sec, t.message ≠ .disagreeing sec) :
    ((t.acquireLoop x locks).integrator = max (-34359738368) (min 34359738367
        (t.integrator - max (-32768) (min 32767 (phaseError t.time)) * 2 ^ x.acquireGi))
      ∧ (t.acquireLoop x locks).steer = max (-32768) (min 32767 (convergent
        ((t.acquireLoop x locks).integrator - max (-32768) (min 32767 (phaseError t.time)) * 2 ^ x.acquireGp) 65536)))
    ∧ (t.acquireLoop x locks).lastLoopError = phaseError t.time ∧ (t.acquireLoop x locks).time = t.time
    ∧ (t.acquireLoop x locks).held = none ∧ (t.acquireLoop x locks).lockCount = locks
    ∧ (t.acquireLoop x locks).counters = t.counters ∧ (t.acquireLoop x locks).state = t.state := by
  unfold Tbu.acquireLoop
  rw [Tbu.loop_eq _ _ _ _ rfl rfl rfl]
  exact ⟨⟨rfl, rfl⟩, rfl, rfl, rfl, rfl, PulseMessage.counted_of_not hm _, rfl⟩

/-- Settles O10: the phase step, the loop pulse, and the step of the second count. -/
theorem acquiringPulseStepsTheTime : Obligations.AcquiringPulseStepsTheTime := by
  refine ⟨fun s hrun hr hs _ hheld hstep hx => ?_, fun s n e locks hrun hr hs hn he hx => ?_⟩
  · have stepped := Tbu.acquired_phaseStep hs hstep
      (Tbu.message_not_disagreeing fun m hm => nomatch hheld.symm.trans hm)
    rw [exec_ppsEdge hrun, pulse_acquiring hr hs hx, setTbu_afterTbu_of_same (by rw [stepped]; exact hs), stepped, ← hheld]
  subst hn he
  have hexec := (exec_ppsEdge hrun).trans (congrArg _ (pulse_acquiring hr hs hx))
  refine ⟨fun hstep hm hlocks => ⟨_, hexec, ?_⟩, fun m hheld ht hdis _ => ⟨_, hexec, ?_⟩⟩
  · have hmsg := Tbu.message_not_disagreeing hm
    have acquired := Tbu.acquired_loop (x := s.sst.live) (Nat.not_lt.2 hstep) hmsg hlocks
    obtain ⟨⟨hintegrator, hsteer⟩, herror, htime, hheld, hcount, hcounters, hstate⟩ :=
      Tbu.acquireLoop_fields (x := s.sst.live) (locks := locks) hmsg
    rw [State.afterTbu_tbu, State.setTbu_tbu]
    have frame := setTbu_afterTbu_frame s (s.tbu.acquired s.sst.live) .acquiring
    have quiet := setTbu_afterTbu_onlyNotifies s (s.tbu.acquired s.sst.live) .acquiring
    by_cases h8 : 8 ≤ locks
    · rw [if_pos h8] at acquired
      have locked : (s.tbu.acquired s.sst.live).state = .locked := by rw [acquired]; rfl
      have hne : (s.tbu.acquired s.sst.live).state ≠ s.tbu.state := fun h => nomatch locked.symm.trans (h.trans hs)
      have hat : ∀ d, noticeAt ((s.setTbu (s.tbu.acquired s.sst.live)).afterTbu .acquiring) .timeState .none d =
          noticeAt s .timeState .none d := fun d => by
        rw [noticeAt_afterTbu, acquired]
        simp only [noticeAt, State.setTbu_tbu]
        rw [← htime]
        rfl
      have hcause : (s.tbu.acquired s.sst.live).noticeCause .acquiring = none := by simp only [Tbu.noticeCause, locked]
      have effect : s.CarrierConsistent → _ := fun hc =>
        And.intro (setTbu_afterTbu_effect hc hne).1 (setTbu_afterTbu_raised_alone hc hne (.inl (by rw [locked]; rfl)))
      rw [hs, hat, hcause, locked] at effect
      rw [acquired] at frame quiet effect ⊢
      exact ⟨hintegrator, hsteer, herror, htime, hheld, hcount, hcounters, fun h => absurd h8 (Nat.not_le.2 h),
        fun _ => ⟨rfl, rfl, rfl, rfl, rfl, effect⟩, frame, quiet⟩
    · rw [if_neg h8] at acquired
      rw [acquired] at frame quiet ⊢
      refine ⟨hintegrator, hsteer, herror, htime, hheld, hcount, hcounters, fun _ => ?_, fun h => absurd h h8, frame, quiet⟩
      rw [setTbu_afterTbu_of_same (hstate.trans hs)]
      exact ⟨hstate.trans hs, rfl, rfl⟩
  · have hmsg := Tbu.message_disagreeing hheld ht hdis
    rw [State.afterTbu_tbu, State.setTbu_tbu]
    by_cases h : s.sst.live.stepThreshold < (phaseError s.tbu.time).natAbs
    · have stepped := Tbu.acquired_bothSteps (x := s.sst.live) hs h hmsg
      rw [setTbu_afterTbu_of_same (by rw [stepped]; exact hs), stepped]
      exact ⟨fun _ => ⟨rfl, rfl⟩, fun hle => absurd h (Nat.not_lt.2 hle), hs, rfl, rfl, rfl, rfl, rfl, setTbu_frame s _⟩
    · obtain ⟨herror, htime, hstate, hcount, hheld', hserved, hmissing, hcounters⟩ :=
        Tbu.acquired_secondStep (x := s.sst.live) hs h hmsg
      rw [setTbu_afterTbu_of_same hstate]
      exact ⟨fun hlt => absurd hlt h, fun _ => ⟨herror, htime⟩, hstate, hcount, hheld', hserved, hmissing, hcounters,
        setTbu_frame s _⟩

end Machine
end Sys2Proof
end

section
/-! PROOFS. Writes of write-once and operating settings (R192, R193). -/

namespace Sys2Proof
namespace Machine

/-! ## An outcome recorded after the owner's work (R183) -/

theorem eq_otherRole_of_ne {q r : Role} (h : q ≠ r) : q = otherRole r := by
  cases q <;> cases r <;> first | rfl | exact absurd rfl h

section
variable {s u : State} {r : Role} {e : Nat} {c : ResultCode} {v : List Byte}

/-- What raises notices and no more leaves the command sequence for the outcome. -/
theorem OnlyNotifies.recorded (h : OnlyNotifies s u) : Recorded s (u.record r e c v) r e c v := by
  have hr := record_recorded u r e c v
  unfold Recorded at hr ⊢
  rw [hr, (h.1 r).2.1]

theorem OnlyNotifies.record_answersAndNotifies (h : OnlyNotifies s u) : OnlyAnswersAndNotifies s (u.record r e c v) r := by
  obtain ⟨ports, bus⟩ := h
  obtain ⟨hcommand, hresult, -, -⟩ := ports (otherRole r)
  refine ⟨?_, ?_, fun x => ?_, bus⟩
  · rw [State.record, updatePort_port_other, hcommand]
  · rw [State.record, updatePort_port_other, hresult]
  · obtain ⟨-, -, hhold, hcounts⟩ := ports x
    by_cases hx : x = r
    · subst hx
      rw [State.record, updatePort_port]
      exact ⟨hhold, hcounts⟩
    · obtain rfl := eq_otherRole_of_ne hx
      rw [State.record, updatePort_port_other]
      exact ⟨hhold, hcounts⟩

theorem record_onlyAnswers (h : u.mgp = s.mgp) : OnlyAnswers s (u.record r e c v) r := by
  refine ⟨?_, ?_, ?_, ?_, ?_⟩
  · rw [State.record, updatePort_port_other, h]
  all_goals simp [State.record, State.updatePort, State.setPort, h, Mgp.SameBus]

theorem Raised.record {q : Role} {ns : List Notice} (h : Raised s u q ns) : Raised s (u.record r e c v) q ns := by
  have hn : ((u.record r e c v).mgp.ports.get q).notices = (u.mgp.ports.get q).notices := by
    by_cases hq : q = r
    · subst hq
      rw [State.record, updatePort_port]
    · obtain rfl := eq_otherRole_of_ne hq
      rw [State.record, updatePort_port_other]
  unfold Raised at h ⊢
  rw [hn, h]

end

/-! ## The settings record -/

theorem putOnce_locked (x : Settings) (w : WriteOnceSetting) (v : Int) : (x.putOnce w v).locked w = true := by
  cases w <;> rfl

theorem onceUnsetValue_eq_iff (w : WriteOnceSetting) (value : Word32) : onceUnsetValue? w = some value.toInt ↔
    (w = .siteOffset ∧ value = 0#32) ∨ (w = .ringSize ∧ value = 16384#32) := by
  have h0 : (0 : Int) = value.toInt ↔ value = 0#32 := by rw [← BitVec.toInt_inj, eq_comm]; rfl
  have h1 : (16384 : Int) = value.toInt ↔ value = 16384#32 := by rw [← BitVec.toInt_inj, eq_comm]; rfl
  cases w <;> simp [onceUnsetValue?, h0, h1]

theorem settingTaken_of_limits {o : OperatingSetting} {lo hi : Int} (h : settingLimits? o = some (lo, hi)) (v : Int) :
    settingTaken? o v = some (clampInt lo hi v, if lo ≤ v ∧ v ≤ hi then .done else .clamped) := by
  unfold settingTaken?
  rw [h]

theorem settingTaken_of_choices {o : OperatingSetting} (h : settingLimits? o = none) (v : Int) :
    settingTaken? o v = if 0 ≤ v ∧ v < settingChoices o then some (v, .done) else none := by
  unfold settingTaken?
  rw [h]

theorem settingLimits_le {o : OperatingSetting} {lo hi : Int} (h : settingLimits? o = some (lo, hi)) : lo ≤ hi := by
  cases o <;> cases h <;> decide

/-- The value that a write makes live reads back: no setting but the steering centre takes a negative one. -/
theorem settingTaken_get_put {o : OperatingSetting} {raw v : Int} {c : ResultCode} (x : Settings)
    (h : settingTaken? o raw = some (v, c)) : (x.put o v).get o = v := by
  cases hl : settingLimits? o with
  | some limits =>
    obtain ⟨lo, hi⟩ := limits
    rw [settingTaken_of_limits hl] at h
    have hv : max lo (min hi raw) = v := (Prod.mk.inj (Option.some.inj h)).1
    cases o <;> cases hl <;> simp [Settings.put, Settings.get] <;> omega
  | none =>
    rw [settingTaken_of_choices hl] at h
    split at h
    · next hr =>
      obtain rfl : raw = v := (Prod.mk.inj (Option.some.inj h)).1
      cases o <;> simp [settingLimits?] at hl <;> simp [settingChoices] at hr <;> simp [Settings.put, Settings.get] <;> omega
    · cases h

theorem put_get_ne (x : Settings) {o p : OperatingSetting} (v : Int) (h : p ≠ o) : (x.put o v).get p = x.get p := by
  cases o <;> cases p <;> first | rfl | exact absurd rfl h

theorem put_locked (x : Settings) (o : OperatingSetting) (v : Int) (w : WriteOnceSetting) :
    (x.put o v).locked w = x.locked w := by cases o <;> cases w <;> rfl

theorem put_map (x : Settings) (o : OperatingSetting) (v : Int) : (x.put o v).map = x.map := by cases o <;> rfl

theorem put_get_self (x : Settings) (o : OperatingSetting) : x.put o (x.get o) = x := by
  cases o <;> simp [Settings.put, Settings.get]

/-! ## The effect beyond the value (R15, R23, R63) -/

theorem applySetting_other {s : State} {o : OperatingSetting} (h₁ : o ≠ .emissionTolerance) (h₂ : o ≠ .timeMessageBaud)
    (h₃ : o ≠ .feedMuteDelay) : s.applySetting o = s := by
  cases o <;> first | rfl | contradiction

theorem applySetting_onlyNotifies (s : State) (o : OperatingSetting) : OnlyNotifies s (s.applySetting o) := by
  unfold State.applySetting
  split
  case h_1 => exact setTbu_afterTbu_onlyNotifies s _ _
  case h_2 => exact .of_mgp rfl
  case h_3 =>
    split
    · exact (OnlyNotifies.of_mgp rfl).trans (setMute_onlyNotifies (s.setEsc _) _ _)
    · exact .refl s
  all_goals exact .refl s

theorem feedOutDue_iff (s : State) : s.feedOutDue = true ↔
    ∃ n, s.esc.feedOutTimer = some n ∧ s.sst.live.feedMuteDelay * 27000 ≤ n := by
  unfold State.feedOutDue
  cases s.esc.feedOutTimer with
  | none => simp
  | some n => exact ⟨fun h => ⟨n, rfl, of_decide_eq_true h⟩, fun ⟨_, hn, h⟩ => Option.some.inj hn ▸ decide_eq_true h⟩

/-- FEED set by the feed-out timer (R58). -/
theorem feedOut_effect {s : State} (hc : s.CarrierConsistent) : MuteTaken s s.feedOut .feed true
    ∧ s.feedOut.esc.feedOutTimer = none ∧ Raised s s.feedOut .site (assertNotice s s.feedOut) := by
  have hcc : (s.setEsc { s.esc with feedOutTimer := none }).CarrierConsistent := hc
  refine ⟨setMute_taken _ .feed true hcc, ?_, setMute_raised _ .feed true hcc⟩
  unfold State.feedOut
  rw [setMute_esc]
  rfl

theorem applySetting_tbu {s : State} {o : OperatingSetting} (h₁ : o ≠ .emissionTolerance) (h₂ : o ≠ .timeMessageBaud) :
    (s.applySetting o).tbu = s.tbu := by
  by_cases h₃ : o = .feedMuteDelay
  · subst h₃
    exact OnlyChanges.ite (a := [.esc, .mgp]) ((setEsc_frame s _).seq (setMute_frame _ _ _)) (.refl _ s) .tbu (by decide)
  · rw [applySetting_other h₁ h₂ h₃]

theorem applySetting_esc_mgp {s : State} {o : OperatingSetting} (h₁ : o ≠ .emissionTolerance) (h₃ : o ≠ .feedMuteDelay) :
    (s.applySetting o).esc = s.esc ∧ (s.applySetting o).mgp = s.mgp := by
  by_cases h₂ : o = .timeMessageBaud
  · subst h₂
    exact ⟨rfl, rfl⟩
  · rw [applySetting_other h₁ h₂ h₃]
    exact ⟨rfl, rfl⟩

/-- The emission tolerance compared with the estimate (R15, R23). -/
theorem applySetting_emissionTolerance (s : State) :
    (s.applySetting .emissionTolerance).tbu = { s.tbu with state :=
        if s.tbu.state = .holdover ∧ 256 * s.sst.live.emissionTolerance < s.tbu.h then .expired else s.tbu.state }
      ∧ ((s.applySetting .emissionTolerance).tbu.state = s.tbu.state → (s.applySetting .emissionTolerance).esc = s.esc
          ∧ (s.applySetting .emissionTolerance).mgp = s.mgp)
      ∧ ((s.applySetting .emissionTolerance).tbu.state ≠ s.tbu.state → s.CarrierConsistent →
          MuteTaken s (s.applySetting .emissionTolerance) .timing true
          ∧ (s.applySetting .emissionTolerance).esc.feedOutTimer = s.esc.feedOutTimer
          ∧ Raised s (s.applySetting .emissionTolerance) .site (noticeAt s .timeState .none (.time .expired none) ::
              assertNotice s (s.applySetting .emissionTolerance))) := by
  obtain ⟨x, hx⟩ : ∃ x, x = s.tbu.expire s.sst.live := ⟨_, rfl⟩
  have happly : s.applySetting .emissionTolerance = (s.setTbu x).afterTbu s.tbu.state := by rw [hx]; rfl
  rw [Tbu.expire_eq] at hx
  rw [happly, State.afterTbu_tbu, State.setTbu_tbu]
  refine ⟨hx, fun hsame => ?_, fun hne hc => ?_⟩
  · rw [setTbu_afterTbu_of_same hsame]
    exact ⟨rfl, rfl⟩
  · have hexp : s.tbu.state = .holdover ∧ 256 * s.sst.live.emissionTolerance < s.tbu.h := by
      by_contra hn
      exact hne (by rw [hx]; exact if_neg hn)
    have hexpired : x.state = .expired := by rw [hx]; exact if_pos hexp
    have hcause : x.noticeCause s.tbu.state = none := by simp [Tbu.noticeCause, hexpired, hexp.1]
    have hat : ∀ d, noticeAt ((s.setTbu x).afterTbu s.tbu.state) .timeState .none d = noticeAt s .timeState .none d := fun d => by
      rw [noticeAt_afterTbu, hx]
      rfl
    obtain ⟨muted, raised⟩ := setTbu_afterTbu_effect hc hne
    rw [hexpired] at muted raised
    rw [hat, hcause] at raised
    exact ⟨muted, by rw [afterTbu_esc_fields]; rfl, raised⟩

/-! ## The two writes -/

theorem exec_writeOnceSettingWrite {s : State} (h : s.Listens .site) (w : WriteOnceSetting) (value : Word32) :
    exec (.writeOnceSettingWrite .site w value) s =
      .next ((ownWriteOnce w value s).state.record .site 0x0003 (ownWriteOnce w value s).code (ownWriteOnce w value s).value) :=
  (ifRunning_of_running h.1 (·.takeWrite .site settingsObject true (ownWriteOnce w value))).trans
    (congrArg _ (takeWrite_taken s .site settingsObject true _ h.2 (.inr rfl)))

theorem exec_operatingSettingWrite {s : State} (h : s.Listens .site) (o : OperatingSetting) (value : Word32) :
    exec (.operatingSettingWrite .site o value) s =
      .next ((ownOperating o value s).state.record .site 0x0003 (ownOperating o value s).code (ownOperating o value s).value) :=
  (ifRunning_of_running h.1 (·.takeWrite .site settingsObject true (ownOperating o value))).trans
    (congrArg _ (takeWrite_taken s .site settingsObject true _ h.2 (.inr rfl)))

theorem ownOperating_refused {o : OperatingSetting} {value : Word32} {s : State} (h : settingTaken? o value.toInt = none) :
    ownOperating o value s = { state := s, code := .invalid } := by
  unfold ownOperating
  rw [h]

/-- The part with an operating setting's value made live, before its effect beyond that. -/
def State.withSetting (s : State) (o : OperatingSetting) (v : Int) : State :=
  s.setLive (s.sst.live.put o v) (decide (s.sst.live.get o ≠ v))

theorem ownOperating_taken {o : OperatingSetting} {value : Word32} {s : State} {v : Int} {c : ResultCode}
    (h : settingTaken? o value.toInt = some (v, c)) : ownOperating o value s =
      { state := (s.withSetting o v).applySetting o, code := c, value := if c = .clamped then toBytesSigned v else [] } := by
  unfold ownOperating
  rw [h]
  rfl

/-- A write of a write-once setting, by the three outcomes of R192. -/
theorem writeOnceWrite_spec {s : State} (h : s.Listens .site) (w : WriteOnceSetting) (value : Word32) :
    ∃ t, exec (.writeOnceSettingWrite .site w value) s = .next t
      ∧ (s.sst.live.locked w = true → t.sst = s.sst ∧ Recorded s t .site 0x0003 .locked [])
      ∧ (s.sst.live.locked w = false → onceAdmits w value.toInt = false →
          t.sst = s.sst ∧ Recorded s t .site 0x0003 .invalid [])
      ∧ (s.sst.live.locked w = false → onceAdmits w value.toInt = true →
          t.sst = { s.sst with live := s.sst.live.putOnce w value.toInt, unsaved := t.sst.unsaved }
          ∧ t.sst.live.locked w = true
          ∧ (((w = .siteOffset ∧ value = 0#32) ∨ (w = .ringSize ∧ value = 16384#32)) → t.sst.unsaved = s.sst.unsaved)
          ∧ (¬ ((w = .siteOffset ∧ value = 0#32) ∨ (w = .ringSize ∧ value = 16384#32)) → t.sst.unsaved = true)
          ∧ Recorded s t .site 0x0003 .done [])
      ∧ t.fiu = s.fiu
      ∧ OnlyChanges [.sst, .mgp] s t ∧ OnlyAnswers s t .site := by
  have hexec := exec_writeOnceSettingWrite h w value
  have frame := (exec_frame (c := .writeOnceSettingWrite .site w value) hexec).widen (c := [.sst, .mgp])
    (by simp [touchedParts])
  refine ⟨_, hexec, ?_⟩
  have hmgp : (ownWriteOnce w value s).state.mgp = s.mgp := by
    unfold ownWriteOnce
    dsimp only
    split
    · rfl
    · split <;> rfl
  refine ⟨fun hl => ?_, fun hl ha => ?_, fun hl ha => ?_, frame .fiu (by decide), frame, record_onlyAnswers hmgp⟩
  · have taken : ownWriteOnce w value s = { state := s, code := .locked } := if_pos hl
    rw [taken]
    exact ⟨rfl, record_recorded _ _ _ _ _⟩
  · have taken : ownWriteOnce w value s = { state := s, code := .invalid } := by simp [ownWriteOnce, hl, ha]
    rw [taken]
    exact ⟨rfl, record_recorded _ _ _ _ _⟩
  · have taken : ownWriteOnce w value s = {
        state := s.setLive (s.sst.live.putOnce w value.toInt) (decide (onceUnsetValue? w ≠ some value.toInt))
        code := .done } := by simp [ownWriteOnce, hl, ha]
    rw [taken, State.record_sst, ← onceUnsetValue_eq_iff]
    refine ⟨rfl, putOnce_locked _ _ _, fun hv => ?_, fun hv => ?_, OnlyNotifies.recorded (.of_mgp rfl)⟩
    · simp [State.setLive, hv]
    · simp [State.setLive, hv]

/-- Settles O48: the refused and the taken write of an operating setting, and the effects of the three settings that have one. -/
theorem settingWrites : Obligations.SettingWrites := by
  intro s value hlisten
  refine ⟨fun w => writeOnceWrite_spec hlisten w value, fun o => ?_⟩
  have hexec := exec_operatingSettingWrite hlisten o value
  have frame := (exec_frame (c := .operatingSettingWrite .site o value) hexec).widen (c := [.tbu, .esc, .sst, .mgp])
    (by simp [touchedParts])
  refine ⟨_, hexec, ?_⟩
  cases h : settingTaken? o value.toInt with
  | none =>
    have limitless : ∀ {lo hi}, settingLimits? o ≠ some (lo, hi) := fun hl =>
      nomatch h.symm.trans (settingTaken_of_limits hl value.toInt)
    have outside : settingLimits? o = none → ¬ (0 ≤ value.toInt ∧ value.toInt < settingChoices o) := fun hl hr =>
      nomatch h.symm.trans ((settingTaken_of_choices hl value.toInt).trans (if_pos hr))
    rw [ownOperating_refused h] at frame ⊢
    exact ⟨fun lo hi hl => absurd hl limitless, fun hl h0 h1 => absurd ⟨h0, h1⟩ (outside hl),
      fun _ _ => ⟨rfl, rfl, record_recorded _ _ _ _ _⟩, rfl, fun _ _ => rfl, fun _ => rfl, rfl, (put_get_self _ _).symm,
      fun hne => absurd rfl hne, fun _ => rfl, fun _ _ => rfl, fun _ _ => ⟨rfl, record_onlyAnswers rfl⟩,
      fun ho h0 h1 => absurd ⟨h0, by rw [ho]; exact h1⟩ (outside (by rw [ho]; rfl)), fun ho => absurd (by rw [ho]; rfl) limitless,
      fun ho => absurd (by rw [ho]; rfl) limitless, frame, (OnlyNotifies.refl s).record_answersAndNotifies⟩
  | some taken =>
    obtain ⟨v, c⟩ := taken
    have hget := settingTaken_get_put s.sst.live h
    rw [ownOperating_taken h] at frame ⊢
    obtain ⟨u, hu⟩ : ∃ u, u = (s.withSetting o v).applySetting o := ⟨_, rfl⟩
    rw [← hu] at frame ⊢
    have notifies : OnlyNotifies s u := hu ▸ (OnlyNotifies.of_mgp rfl).trans (applySetting_onlyNotifies (s.withSetting o v) o)
    have hsst : u.sst = { s.sst with
        live := s.sst.live.put o v, unsaved := s.sst.unsaved || decide (s.sst.live.get o ≠ v) } :=
      hu ▸ applySetting_frame (s.withSetting o v) o .sst (by decide)
    have recorded : Recorded s (u.record .site 0x0003 c (if c = .clamped then toBytesSigned v else [])) .site 0x0003 c
      (if c = .clamped then toBytesSigned v else []) := notifies.recorded
    simp only [State.record_sst, State.record_tbu, State.record_esc, hsst, hget]
    refine ⟨fun lo hi hl => ?_, fun hl h0 h1 => ?_, fun hl hout => ?_, trivial, fun x hne => put_get_ne _ _ hne,
      fun w => put_locked _ _ _ w, put_map _ _ _, trivial, fun hne => ?_, fun hsame => ?_, fun h₁ h₂ => ?_, fun h₁ h₃ => ?_,
      fun ho _ _ => ?_, fun ho => ?_, fun ho => ?_, frame, notifies.record_answersAndNotifies⟩
    · rw [settingTaken_of_limits hl] at h
      obtain ⟨hv, hcode⟩ := Prod.mk.inj (Option.some.inj h)
      have hle := settingLimits_le hl
      unfold clampInt at hv
      refine ⟨fun h0 h1 => ⟨by omega, ?_⟩, fun hlt => ?_, fun hlt => ?_⟩
      · rw [if_pos ⟨h0, h1⟩] at hcode
        subst hcode
        exact recorded
      · obtain rfl : v = lo := by omega
        rw [if_neg (by omega)] at hcode
        subst hcode
        exact ⟨rfl, recorded⟩
      · obtain rfl : v = hi := by omega
        rw [if_neg (by omega)] at hcode
        subst hcode
        exact ⟨rfl, recorded⟩
    · rw [settingTaken_of_choices hl, if_pos ⟨h0, h1⟩] at h
      obtain ⟨hv, hcode⟩ := Prod.mk.inj (Option.some.inj h)
      subst hcode
      exact ⟨hv.symm, recorded⟩
    · rw [settingTaken_of_choices hl, if_neg (by omega)] at h
      cases h
    · rw [decide_eq_true (Ne.symm hne), Bool.or_true]
    · rw [decide_eq_false (not_not_intro hsame.symm), Bool.or_false]
    · rw [hu, applySetting_tbu h₁ h₂]
      rfl
    · obtain ⟨hesc, hmgp⟩ := applySetting_esc_mgp (s := s.withSetting o v) h₁ h₃
      exact ⟨hu ▸ hesc, record_onlyAnswers (hu ▸ hmgp)⟩
    · rw [hu, ho]
      rfl
    · subst ho
      obtain ⟨htbu, same, expired⟩ := applySetting_emissionTolerance (s.withSetting .emissionTolerance v)
      rw [← hu] at htbu same expired
      refine ⟨htbu, fun hs => ?_, fun hne hc => ?_⟩
      · obtain ⟨hesc, hmgp⟩ := same hs
        exact ⟨hesc, record_onlyAnswers hmgp⟩
      · obtain ⟨muted, timer, raised⟩ := expired hne hc
        exact ⟨muted, timer, Raised.record (raised.of_mgp rfl)⟩
    · subst ho
      have happly : u = if (s.withSetting .feedMuteDelay v).feedOutDue then (s.withSetting .feedMuteDelay v).feedOut
        else s.withSetting .feedMuteDelay v := hu
      refine ⟨fun n hn hdue hc => ?_, fun hnot => ?_⟩
      · rw [if_pos (by rw [feedOutDue_iff]; exact ⟨n, hn, hdue⟩)] at happly
        obtain ⟨muted, timer, raised⟩ := feedOut_effect (s := s.withSetting .feedMuteDelay v) hc
        rw [← happly] at muted timer raised
        exact ⟨muted, timer, Raised.record (raised.of_mgp rfl)⟩
      · rw [if_neg ?_] at happly
        · rw [happly]
          exact ⟨rfl, record_onlyAnswers rfl⟩
        · rw [feedOutDue_iff]
          rintro ⟨n, hn, hdue⟩
          rcases hnot with hnone | ⟨n', hn', hlt⟩
          · exact nomatch hnone.symm.trans hn
          · obtain rfl : n' = n := Option.some.inj (hn'.symm.trans hn)
            exact absurd hdue (Nat.not_le.2 hlt)

end Machine
end Sys2Proof
end

section
/-! PROOFS. A step on an empty queue (R1; logs 2 and 3). -/

namespace Sys2Proof
namespace Machine

theorem step_of_empty {s : State} (h : s.pending = []) : step s = .next s.idle := by
  unfold step
  rw [h]

theorem idle_of_running {s : State} (h : s.Running) : s.idle = s.run := by
  unfold State.idle
  rw [show s.inReset = none from h]

theorem idle_of_inReset {s : State} (h : s.inReset ≠ none) : s.idle = s := by
  unfold State.idle
  cases hr : s.inReset with
  | none => exact absurd hr h
  | some src => rfl

theorem run_of_due {s : State} {c : Instr} {cs : List Instr} (h : s.dueCommands = c :: cs) : s.run = s.setPending [c] := by
  unfold State.run
  rw [h]

/-- With internal steps and nothing due, the free choice names one of them or lets time go on. -/
theorem run_of_internal {s : State} (hd : s.dueCommands = []) (hi : s.internalCommands ≠ []) :
    (∃ c ∈ s.internalCommands, s.run = (s.setPending [c]).setChoices (s.choices + 1))
      ∨ s.run = (s.setChoices (s.choices + 1)).advance := by
  unfold State.run
  rw [hd]
  cases hs : s.internalCommands with
  | nil => exact absurd hs hi
  | cons c cs =>
    cases hc : (c :: cs)[Config.idleChoice s.choices]? with
    | none => exact .inr (by simp only [hc])
    | some x => exact .inl ⟨x, List.mem_of_getElem? hc, by simp only [hc]⟩

theorem run_of_quiet {s : State} (hd : s.dueCommands = []) (hi : s.internalCommands = []) : s.run = s.advance := by
  unfold State.run
  rw [hd, hi]

/-- Settles O2, by what is due. -/
theorem stepOnEmptyQueue : Obligations.StepOnEmptyQueue := by
  intro s hq
  rw [step_of_empty hq]
  refine ⟨fun hr => by rw [idle_of_inReset hr], fun hr c cs hd => by rw [idle_of_running hr, run_of_due hd],
    fun hr hd hi => ?_, fun hr hd hi ht => ?_, fun hr hd hi ht => ?_⟩
  · rw [idle_of_running hr]
    exact (run_of_internal hd hi).imp (fun ⟨c, hc, h⟩ => ⟨c, hc, congrArg _ h⟩) (congrArg _)
  · rw [idle_of_running hr, run_of_quiet hd hi]
    exact congrArg _ (if_pos ht)
  · rw [idle_of_running hr, run_of_quiet hd hi]
    have hadvance : s.advance = s.tick := if_neg ht
    have htick : s.tick = _ := congrArg (fun u : Tbu => s.cycle.setTbu { u with
      time := { s.tbu.time with tick := s.tbu.time.tick + 1 } }) (cycle_tbu s)
    rw [hadvance, htick]
    rfl

end Machine
end Sys2Proof
end

section
/-! PROOFS. Reset: its entry, its end and what it loads (R194 to R200). -/

namespace Sys2Proof
namespace Machine

/-- Settles O5: every line is read off the state that reset leaves. -/
theorem resetHoldsTheLines : Obligations.ResetHoldsTheLines := by
  intro s c src hc
  have hexec : exec c s = .next (s.enterReset src) := by
    rcases hc with ⟨rfl, rfl⟩ | ⟨rfl, rfl⟩ <;> rfl
  refine ⟨_, hexec, rfl, rfl, rfl, rfl, rfl, rfl, rfl, fun r => rfl, rfl, rfl, rfl, rfl, rfl, rfl, rfl, rfl, rfl, fun hs hsave => ?_,
    rfl, rfl, rfl⟩
  obtain ⟨-, -, hinvalid⟩ := hs
  exact (hinvalid hsave).1

theorem exec_resetEnds {s : State} {src : ResetSource} (h : s.inReset = some src) (a1 a2 : Bool) :
    exec (.resetEnds a1 a2) s = .next (s.endReset src a1 a2) := by
  change execResetEnds a1 a2 s = _
  unfold execResetEnds
  rw [h]

/-! ## What a reset loads -/

theorem loadedSettings_of_valid {i : StoredImage} (h : i.valid = true) : loadedSettings i = i.content := if_pos h

theorem loadedSettings_of_invalid {i : StoredImage} (h : i.valid = false) : loadedSettings i = {} := by
  unfold loadedSettings
  rw [h]
  rfl

/-- A memory that was never written holds no valid image (R194). -/
theorem valid_erased : ({} : StoredImage).valid = false := rfl

/-- The Emission Scheduler after a reset: CARINH asserted for TIMING and SCHEDULE, and for FEED with no delay to it (R58, R64). -/
theorem esc_afterReset (x : Settings) : (Esc.afterReset x).running = false ∧ (Esc.afterReset x).carinh = .asserted
    ∧ (Esc.afterReset x).port = none
    ∧ (Esc.afterReset x).mute =
      { timing := true, feed := decide (x.feedMuteDelay = 0), network := false, site := false, schedule := true }
    ∧ (Esc.afterReset x).counters = {} ∧ (Esc.afterReset x).anchors = [] := by
  unfold Esc.afterReset
  by_cases h : x.feedMuteDelay = 0
  · rw [if_pos h, decide_eq_true h]
    exact ⟨rfl, rfl, rfl, rfl, rfl, rfl⟩
  · rw [if_neg h, decide_eq_false h]
    exact ⟨rfl, rfl, rfl, rfl, rfl, rfl⟩

theorem counters_endReset (s : State) (src : ResetSource) (a1 a2 : Bool) : ∀ n ∈ (s.endReset src a1 a2).counters, n = 0 := by
  obtain ⟨-, -, -, -, hesc, -⟩ := esc_afterReset (s.endReset src a1 a2).sst.live
  have hcounters : (s.endReset src a1 a2).esc.counters = {} := hesc
  have hall : (s.endReset src a1 a2).counters = State.reset.counters := by
    unfold State.counters
    rw [hcounters]
    rfl
  rw [hall]
  decide

/-- Settles O6: each block is read off the state that the end of reset makes. -/
theorem resetEndLoadsThePart : Obligations.ResetEndLoadsThePart := by
  refine ⟨fun s src a1 a2 hsrc => ⟨_, exec_resetEnds hsrc a1 a2, ?_⟩, fun s himage hmemory hloaded hrefok hpending hchoices => ?_⟩
  · obtain ⟨running, carinh, port, mute, -⟩ := esc_afterReset (s.sst.loaded src).live
    refine ⟨rfl, rfl, rfl, fun hv => ⟨loadedSettings_of_valid hv, ?_, ?_⟩, fun hv => ⟨loadedSettings_of_invalid hv, ?_, ?_⟩,
      rfl, rfl, ?_, rfl, rfl, rfl, rfl, rfl, rfl, rfl, rfl, rfl, rfl, rfl, rfl, rfl, rfl, running, carinh, port, mute,
      rfl, rfl, rfl, rfl, rfl, rfl, rfl, rfl, ?_, fun r => ?_, counters_endReset s src a1 a2⟩
    · exact if_pos hv
    · exact congrArg (! ·) hv
    · exact if_neg (by rw [hv]; decide)
    · exact congrArg (! ·) hv
    · cases src <;> rfl
    · cases a1 <;> cases a2 <;> rfl
    · cases r <;> exact ⟨rfl, rfl, rfl, rfl, rfl⟩
  · refine ⟨_, rfl, (exec_resetEnds rfl false false).trans (congrArg _ ?_)⟩
    unfold State.endReset State.enterReset Sst.loaded
    rw [himage, hmemory, hloaded, hrefok, hpending, hchoices, loadedSettings_of_invalid valid_erased, valid_erased]
    rfl

/-! ## The conditions that every step keeps -/

/-- A valid image holds a stream map of at most 32 entries and a ring size that R192 admits (R194). -/
theorem bounds_of_valid {i : StoredImage} (h : i.valid = true) :
    i.content.map.length ≤ 32 ∧ i.content.activeRing ∈ ringSizes := by
  simp only [StoredImage.valid, mapGood, Settings.onceInRange, Bool.and_eq_true, decide_eq_true_eq] at h
  obtain ⟨⟨⟨-, -, hring⟩, -⟩, ⟨hmap, -⟩, -⟩ := h
  refine ⟨hmap, ?_⟩
  unfold Settings.activeRing
  cases hr : i.content.ringSize with
  | none => decide
  | some n =>
    rw [hr] at hring
    obtain ⟨r, hmem, hn⟩ := List.any_eq_true.1 (show ringSizes.any (fun r => decide ((n : Int) = (r : Int))) = true from hring)
    obtain rfl : n = r := Int.ofNat.inj (of_decide_eq_true hn)
    exact hmem

theorem loadedSettings_bounds (i : StoredImage) :
    (loadedSettings i).map.length ≤ 32 ∧ (loadedSettings i).activeRing ∈ ringSizes := by
  cases h : i.valid with
  | true => exact loadedSettings_of_valid h ▸ bounds_of_valid h
  | false =>
    rw [loadedSettings_of_invalid h]
    decide

theorem ringBlocks_bounds {n : Nat} (h : n ∈ ringSizes) : 0 < n / 64 ∧ n / 64 < 8192 := by
  simp only [ringSizes, List.mem_cons, List.not_mem_nil, or_false] at h
  omega

/-- With no clips, the ring and one free run behind it account for every block (R112, R117). -/
theorem blocksAccounted_of_empty {s : State} (hdir : s.csc.directory = [])
    (hfree : s.csc.freeRuns = [clipStoreRun s.fiu.ringSize]) (hring : s.fiu.ringSize ∈ ringSizes) : s.BlocksAccounted := by
  have hblocks := ringBlocks_bounds hring
  have hruns : s.blockRuns = [⟨0, s.fiu.ringSize / 64⟩, ⟨s.fiu.ringSize / 64, 8192 - s.fiu.ringSize / 64⟩] := by
    unfold State.blockRuns
    rw [hdir, hfree]
    rfl
  unfold State.BlocksAccounted
  rw [hruns, hdir, hfree]
  refine ⟨List.nodup_nil, ?_, ?_, ?_, List.pairwise_singleton _ _⟩
  · simp [clipBlocks, freeBlocks, clipStoreRun, Config.memoryBlocks, Config.slotsPerBlock]
    omega
  · intro r hr
    simp only [List.mem_cons, List.not_mem_nil, or_false] at hr
    rcases hr with rfl | rfl <;> dsimp only <;> omega
  · refine List.pairwise_pair.2 (.inl ?_)
    dsimp only
    omega

theorem endReset_meets {s : State} (hm : s.MemoryCanonical) (src : ResetSource) (a1 a2 : Bool) :
    (s.endReset src a1 a2).ClockInRange ∧ (s.endReset src a1 a2).HoldoverWithinTolerance
      ∧ (s.endReset src a1 a2).CarrierConsistent ∧ (s.endReset src a1 a2).QueuesBounded
      ∧ (s.endReset src a1 a2).MemoryCanonical ∧ (s.endReset src a1 a2).BlocksAccounted
      ∧ (s.endReset src a1 a2).SaveConsistent := by
  obtain ⟨hmap, hring⟩ := loadedSettings_bounds s.sst.image
  obtain ⟨running, carinh, port, mute, -, anchors⟩ := esc_afterReset (s.sst.loaded src).live
  have unset : (s.endReset src a1 a2).tbu.state = .unset := rfl
  have unsaving : (s.endReset src a1 a2).sst.save.isSome = false := rfl
  refine ⟨Nat.succ_pos _, fun h => (nomatch unset.symm.trans h), ⟨?_, ?_, ?_, ?_⟩, ?_, hm, blocksAccounted_of_empty rfl rfl hring,
    rfl, rfl, fun h => nomatch unsaving.symm.trans h⟩
  · exact congrArg MuteReasons.timing mute
  · exact (congrArg MuteReasons.schedule mute).trans (congrArg (! ·) running).symm
  · exact ⟨fun _ => congrArg MuteReasons.any mute, fun _ => carinh⟩
  · exact fun h => nomatch (congrArg Option.isSome port).symm.trans h
  · have idle : ∀ l ∈ (s.endReset src a1 a2).csc.load, l.buffer.length + (s.endReset src a1 a2).csc.framing.places ≤ 16 :=
      fun l hl => nomatch hl
    have hanchors : (s.endReset src a1 a2).esc.anchors.length ≤ 32 := (congrArg List.length anchors).trans_le (Nat.zero_le _)
    exact ⟨Nat.zero_le _, Nat.zero_le _, hanchors, Nat.zero_le _, List.nodup_nil, Nat.succ_le_succ (Nat.zero_le _),
      Nat.succ_le_succ (Nat.zero_le _), hmap, idle, List.Pairwise.nil, fun x hx => (nomatch hx), Nat.zero_le _, List.Pairwise.nil⟩

/-- The model's reset state is the end of the reset of a part that was never written. -/
theorem reset_eq_endReset : State.reset = State.reset.endReset .powerOn false false := by
  have erased : State.reset.sst.image = {} := rfl
  unfold State.endReset Sst.loaded
  rw [erased, loadedSettings_of_invalid valid_erased, valid_erased]
  rfl

/-- Settles O60: the end of any reset, and the reset state as one such. -/
theorem resetEndMeetsTheConditions : Obligations.ResetEndMeetsTheConditions := by
  refine ⟨fun s src a1 a2 hsrc hm => ⟨_, exec_resetEnds hsrc a1 a2, endReset_meets hm src a1 a2⟩, ?_⟩
  rw [reset_eq_endReset]
  exact endReset_meets (s := State.reset) rfl .powerOn false false

end Machine
end Sys2Proof
end

section
/-! PROOFS. The steering lines (R20) and the bytes of a time message (R5). -/

namespace Sys2Proof
namespace Machine

/-! ## The steering lines -/

theorem exec_steeringWordSent {s : State} {w : Word16} (h : s.Running) (hw : s.tbu.shifting = some w) :
    exec .steeringWordSent s = .next (s.setTbu { s.tbu with
      loaded := some w, shifting := s.tbu.waiting, waiting := none, shiftTicks := 0 }) := by
  change execSteeringWordSent s = _
  unfold execSteeringWordSent
  rw [ifRunning_of_running h]
  simp only [hw]

/-- The ticks of `k` whole STCLK cycles and a part of the next lie in cycle `k`. -/
theorem stclkCycle_of_ticks {t : Tbu} {k r : Nat} (hr : r ≤ Config.stclkTicks)
    (h : t.shiftTicks = k * (Config.stclkTicks + 1) + r) : t.stclkCycle = k := by
  unfold Tbu.stclkCycle
  rw [h, Nat.mul_comm, Nat.mul_add_div (Nat.succ_pos _), Nat.div_eq_of_lt (Nat.lt_succ_of_le hr), Nat.add_zero]

theorem steering_lines {t : Tbu} {w : Word16} {k r : Nat} (hw : t.shifting = some w) (hr : r ≤ Config.stclkTicks)
    (h : t.shiftTicks = k * (Config.stclkTicks + 1) + r) :
    t.stclkRuns = decide (k < 16) ∧ t.stdat = (decide (k < 16) && w.getLsbD (15 - k)) ∧ t.stld = decide (k = 16) := by
  unfold Tbu.stclkRuns Tbu.stdat Tbu.stld
  rw [hw, stclkCycle_of_ticks hr h]
  exact ⟨rfl, rfl, rfl⟩

/-! ## The bytes of a time message -/

theorem goodMessage_iff (bytes : List Byte) : goodMessage bytes = true ↔
    byteAt bytes 1 = 0xA5#8 ∧ byteAt bytes 2 = 0x01#8 ∧ (bytes.map BitVec.toNat).sum % 256 = 0 := by
  unfold goodMessage
  rw [List.sum_eq_foldl, List.foldl_map]
  simp only [Bool.and_eq_true, beq_iff_eq, and_assoc]

/-- The bytes of the assembly that a byte finds. -/
def State.assembled (s : State) : List Byte := (s.tbu.assembly.map (·.bytes)).getD []

/-- The time that an eight-byte message holds (R5). -/
def messageHeld (bytes : List Byte) : HeldMessage :=
  { seconds := BitVec.ofNat 32 (ofBytes ((bytes.drop 2).take 4)), tracking := (byteAt bytes 7).getLsbD 0 }

theorem joinByte_eq (s : State) (b : Byte) (stopHigh : Bool) : s.joinByte b stopHigh =
    if stopHigh then
      if 8 ≤ (s.assembled ++ [b]).length then
        if goodMessage (s.assembled ++ [b]) then
          s.setTbu { s.tbu with assembly := none, held := some (messageHeld (s.assembled ++ [b])) }
        else s.badMessage
      else s.setTbu { s.tbu with assembly := some { bytes := s.assembled ++ [b], idle := 0 } }
    else s.badMessage := by
  unfold State.joinByte State.assembled
  cases s.tbu.assembly <;> rfl

/-- The eighth byte is the check byte alone, and so adds nothing to what the message holds. -/
theorem messageHeld_append {prior : List Byte} (h : prior.length = 7) (b : Byte) :
    messageHeld (prior ++ [b]) = messageHeld prior := by
  have htake : ((prior ++ [b]).drop 2).take 4 = (prior.drop 2).take 4 := by
    rw [List.drop_append_of_le_length (by omega), List.take_append_of_le_length (by rw [List.length_drop]; omega)]
  have hbyte : byteAt (prior ++ [b]) 7 = byteAt prior 7 := by
    simp [byteAt, h]
  unfold messageHeld
  rw [htake, hbyte]

theorem badMessage_eq (s : State) : s.badMessage = s.setTbu { s.tbu with
    assembly := none, counters := { s.tbu.counters with badTimeMessages := bump s.tbu.counters.badTimeMessages } } := rfl

/-- The part with an assembly whose gap is too long abandoned. -/
def State.gapJudged (s : State) : State := if s.interbyteDue then s.badMessage else s

theorem exec_timeMessageByte {s : State} (h : s.Running) (b : Byte) (stopHigh : Bool) :
    exec (.timeMessageByte b stopHigh) s = .next (s.gapJudged.joinByte b stopHigh) := ifRunning_of_running h (·.receive b stopHigh)

theorem exec_timeMessage {s : State} (h : s.Running) (b : Byte) (stopHigh : Bool) :
    exec (.timeMessage b stopHigh) s = .next (s.gapJudged.joinByte b stopHigh) := ifRunning_of_running h (·.receive b stopHigh)

theorem exec_timeMessageInterbyteTimeout {s : State} (h : s.Running) :
    exec .timeMessageInterbyteTimeout s = .next s.gapJudged := ifRunning_of_running h State.gapJudged

/-- Settles O13: the steering word, its lines, and a byte after the gap is judged. -/
theorem serialLinesOfTheTimeBase : Obligations.SerialLinesOfTheTimeBase := by
  refine ⟨fun s w hrun hw => exec_steeringWordSent hrun hw, fun t w k r hw hr ht => ?_, fun s u prior b hrun hu hprior => ?_⟩
  · obtain ⟨runs, data, load⟩ := steering_lines hw hr ht
    rw [runs, data, load]
    refine ⟨fun hk => ⟨decide_eq_true hk, ?_, decide_eq_false (Nat.ne_of_lt hk)⟩, ?_⟩
    · rw [decide_eq_true hk, Bool.true_and]
    · rintro rfl
      exact ⟨rfl, rfl, rfl⟩
  · obtain rfl : u = s.gapJudged := hu
    have hassembled : s.gapJudged.assembled = prior := hprior
    rw [exec_timeMessageByte hrun, exec_timeMessageByte hrun, exec_timeMessage hrun, exec_timeMessageInterbyteTimeout hrun,
      joinByte_eq, joinByte_eq, hassembled, List.length_append, ← badMessage_eq, ← goodMessage_iff]
    refine ⟨fun hlen => ?_, fun hlen h1 h2 hsum => ?_, fun hlen hbad => ?_, rfl, fun _ => rfl⟩
    · rw [if_pos rfl, if_neg (by simp; omega)]
    · rw [if_pos rfl, if_pos (by simp [hlen]), if_pos ((goodMessage_iff _).2 ⟨h1, h2, hsum⟩), messageHeld_append hlen]
      rfl
    · rw [if_pos rfl, if_pos (by simp [hlen]), if_neg hbad]

end Machine
end Sys2Proof
end

section
/-! PROOFS. The places of queues, map and tables (R34, R35, R39, R46, R82, R115, R121, R161, R186): the bounds part by part, the
block updates that keep them, and the operations that several blocks share. -/

set_option Elab.async false

namespace Sys2Proof
namespace Machine

/-! ## The bounds -/

/-- The hand-off queue and the feed write buffer hold no more than their places (R34, R39). -/
def Fiu.Bounded (f : Fiu) : Prop := f.handoff.length ≤ 4 ∧ f.writeBuffer.length ≤ 16

/-- The break table holds no more than its places and names each break once (R82). -/
def TableBounded (table : List BreakEntry) : Prop := table.length ≤ 16 ∧ (table.map (·.number)).Nodup

/-- The load buffer with the packet being framed holds no more than its places (R121). -/
def Csc.LoadBounded (c : Csc) : Prop := ∀ l ∈ c.load, l.buffer.length + c.framing.places ≤ 16

/-- The clip directory stands by rising position within its positions (R115). -/
def DirectoryBounded (dir : List (Nat × Clip)) : Prop :=
  (dir.map (·.1)).Pairwise (· < ·) ∧ ∀ x ∈ dir, 1 ≤ x.1 ∧ x.1 ≤ 64

/-- The continuity table stands by rising stream id within its places (R161). -/
def ContinuityBounded (table : List Continuity) : Prop := table.length ≤ 32 ∧ (table.map (·.stream)).Pairwise (· < ·)

/-- The conjuncts of `State.QueuesBounded` by the part of the state that they speak of. -/
structure State.Bounded (s : State) : Prop where
  fiu : s.fiu.Bounded
  anchors : s.esc.anchors.length ≤ 32
  table : TableBounded s.bpu.table
  notices : ∀ r, (s.mgp.ports.get r).notices.length ≤ 32
  map : s.sst.live.map.length ≤ 32
  load : s.csc.LoadBounded
  directory : DirectoryBounded s.csc.directory
  continuity : ContinuityBounded s.spe.continuity

theorem queuesBounded_iff (s : State) : s.QueuesBounded ↔ s.Bounded := by
  constructor
  · rintro ⟨handoff, buffer, anchors, places, numbers, insertion, site, map, load, rising, positions, continuity, streams⟩
    exact ⟨⟨handoff, buffer⟩, anchors, ⟨places, numbers⟩, fun r => by cases r <;> assumption, map, load, ⟨rising, positions⟩,
      ⟨continuity, streams⟩⟩
  · rintro ⟨⟨handoff, buffer⟩, anchors, ⟨places, numbers⟩, notices, map, load, ⟨rising, positions⟩, ⟨continuity, streams⟩⟩
    exact ⟨handoff, buffer, anchors, places, numbers, notices .insertion, notices .site, map, load, rising, positions, continuity,
      streams⟩

/-! ## Changes that keep the bounds -/

/-- From `s` to `t` the bounds are kept. -/
def QueuesKept (s t : State) : Prop := s.Bounded → t.Bounded

section
variable {s t u : State}

theorem QueuesKept.refl (s : State) : QueuesKept s s := id

theorem QueuesKept.trans (h : QueuesKept s t) (k : QueuesKept t u) : QueuesKept s u := fun b => k (h b)

theorem QueuesKept.after (k : QueuesKept t u) (h : QueuesKept s t) : QueuesKept s u := h.trans k

theorem QueuesKept.ite {c : Prop} [Decidable c] (h : QueuesKept s t) (k : QueuesKept s u) :
    QueuesKept s (if c then t else u) := by
  split
  · exact h
  · exact k

theorem QueuesKept.foldl {α : Type} (f : State → α → State) (h : ∀ s x, QueuesKept s (f s x)) :
    ∀ (l : List α) (s : State), QueuesKept s (l.foldl f s)
  | [], s => .refl s
  | x :: l, s => (h s x).trans (QueuesKept.foldl f h l (f s x))

/-- What touches no block with a queue or table keeps the bounds. -/
theorem QueuesKept.of_frame {a : List Part} (h : OnlyChanges a s t)
    (ha : ∀ p ∈ [Part.fiu, .esc, .bpu, .csc, .spe, .mgp, .sst], p ∉ a := by decide) : QueuesKept s t := by
  have fiu : t.fiu = s.fiu := h .fiu (ha _ (by decide))
  have esc : t.esc = s.esc := h .esc (ha _ (by decide))
  have bpu : t.bpu = s.bpu := h .bpu (ha _ (by decide))
  have csc : t.csc = s.csc := h .csc (ha _ (by decide))
  have spe : t.spe = s.spe := h .spe (ha _ (by decide))
  have mgp : t.mgp = s.mgp := h .mgp (ha _ (by decide))
  have sst : t.sst = s.sst := h .sst (ha _ (by decide))
  intro b
  exact ⟨fiu ▸ b.fiu, esc ▸ b.anchors, bpu ▸ b.table, mgp ▸ b.notices, sst ▸ b.map, csc ▸ b.load, csc ▸ b.directory,
    spe ▸ b.continuity⟩

theorem QueuesKept.setFiu {x : Fiu} (h : s.fiu.Bounded → x.Bounded := by exact fun h => h) : QueuesKept s (s.setFiu x) :=
  fun b => { b with fiu := h b.fiu }

theorem QueuesKept.setEsc {x : Esc} (h : s.esc.anchors.length ≤ 32 → x.anchors.length ≤ 32 := by exact fun h => h) :
    QueuesKept s (s.setEsc x) := fun b => { b with anchors := h b.anchors }

theorem QueuesKept.setBpu {x : Bpu} (h : TableBounded s.bpu.table → TableBounded x.table := by exact fun h => h) :
    QueuesKept s (s.setBpu x) := fun b => { b with table := h b.table }

theorem QueuesKept.setCsc {x : Csc} (hl : s.csc.LoadBounded → x.LoadBounded := by exact fun h => h)
    (hd : DirectoryBounded s.csc.directory → DirectoryBounded x.directory := by exact fun h => h) : QueuesKept s (s.setCsc x) :=
  fun b => { b with load := hl b.load, directory := hd b.directory }

theorem QueuesKept.setSpe {x : Spe}
    (h : ContinuityBounded s.spe.continuity → ContinuityBounded x.continuity := by exact fun h => h) :
    QueuesKept s (s.setSpe x) :=
  fun b => { b with continuity := h b.continuity }

theorem QueuesKept.setSst {x : Sst} (h : s.sst.live.map.length ≤ 32 → x.live.map.length ≤ 32 := by exact fun h => h) :
    QueuesKept s (s.setSst x) := fun b => { b with map := h b.map }

theorem QueuesKept.setTbu (x : Tbu) : QueuesKept s (s.setTbu x) := .of_frame (setTbu_frame s x)

theorem QueuesKept.setDdc (x : Ddc) : QueuesKept s (s.setDdc x) := .of_frame (setDdc_frame s x)

/-- A change of the Management Port that leaves both notice queues. -/
theorem QueuesKept.setMgp {x : Mgp} (h : ∀ r, (x.ports.get r).notices = (s.mgp.ports.get r).notices := by exact fun _ => rfl) :
    QueuesKept s (s.setMgp x) := fun b => { b with notices := fun r => (congrArg List.length (h r)).trans_le (b.notices r) }

/-- What an owner answers keeps the bounds where the state that it answers does. -/
theorem QueuesKept.owned {c : ResultCode} {v : List Byte} (h : QueuesKept s t) :
    QueuesKept s ({ state := t, code := c, value := v } : Taken).state := h

theorem QueuesKept.fst {α : Type} {x : α} (h : QueuesKept s t) : QueuesKept s (t, x).1 := h

theorem ifRunning_queuesKept {f : State → State} (h : ifRunning s f = .next t) (hf : QueuesKept s (f s)) : QueuesKept s t := by
  rcases ifRunning_next h with rfl | rfl
  · exact .refl _
  · exact hf

end

/-! ## Ports and notices (R183, R186) -/

theorem updatePort_queuesKept (s : State) (r : Role) {f : RolePort → RolePort}
    (hf : ∀ p : RolePort, p.notices.length ≤ 32 → (f p).notices.length ≤ 32 := by exact fun _ h => h) :
    QueuesKept s (s.updatePort r f) := by
  refine fun b => { b with notices := fun q => ?_ }
  by_cases h : q = r
  · subst h
    rw [updatePort_port]
    exact hf _ (b.notices q)
  · obtain rfl := eq_otherRole_of_ne h
    rw [updatePort_port_other]
    exact b.notices _

theorem countPort_queuesKept (s : State) (r : Role) (f : MgpCounters → MgpCounters) : QueuesKept s (s.countPort r f) :=
  updatePort_queuesKept s r

theorem record_queuesKept (s : State) (r : Role) (e : Nat) (c : ResultCode) (v : List Byte) : QueuesKept s (s.record r e c v) :=
  updatePort_queuesKept s r

theorem refuseHeld_queuesKept (s : State) (r : Role) : QueuesKept s (s.refuseHeld r) := countPort_queuesKept s r _

theorem refuseRights_queuesKept (s : State) (r : Role) (e : Nat) : QueuesKept s (s.refuseRights r e) :=
  (countPort_queuesKept s r _).trans (record_queuesKept _ _ _ _ _)

/-- A notice joins a queue only while the queue has room for it (R186). -/
theorem push_notices_length (p : RolePort) (n : Notice) (h : p.notices.length ≤ 32) : (p.push n).notices.length ≤ 32 := by
  rw [RolePort.push_notices, List.length_append, List.length_take]
  omega

theorem raiseTo_queuesKept (s : State) (r : Role) (k : NoticeKind) (j : Subject) (d : Detail) :
    QueuesKept s (s.raiseTo r k j d) :=
  updatePort_queuesKept s r (f := (·.push (noticeAt s k j d))) (fun p h => push_notices_length p _ h)

theorem raiseSite_queuesKept (s : State) (k : NoticeKind) (j : Subject) (d : Detail) : QueuesKept s (s.raiseSite k j d) :=
  raiseTo_queuesKept s .site k j d

theorem raiseBoth_queuesKept (s : State) (k : NoticeKind) (j : Subject) (d : Detail) : QueuesKept s (s.raiseBoth k j d) :=
  (raiseTo_queuesKept s .insertion k j d).trans (raiseTo_queuesKept _ .site k j d)

/-! ## Mute reasons and the carrier (R57 to R60) -/

theorem setMute_queuesKept (s : State) (r : MuteReason) (b : Bool) : QueuesKept s (s.setMute r b) := by
  unfold State.setMute
  dsimp only
  split
  · exact .refl s
  · split
    · split
      · exact (raiseSite_queuesKept _ _ _ _).after .setEsc
      · exact .setEsc
      · exact .setEsc
    · split <;> exact .setEsc

theorem carrierInstant_queuesKept (s : State) : QueuesKept s s.carrierInstant := by
  unfold State.carrierInstant
  split
  · exact (raiseSite_queuesKept _ _ _ _).after .setEsc
  · exact .refl s
  · exact .refl s

theorem drive_queuesKept (s : State) (t : SiteTime) (p : List Byte) : QueuesKept s (s.drive t p) := by
  unfold State.drive
  split
  · exact .setEsc
  · exact .refl s
  · exact .refl s

theorem afterTbu_queuesKept (s : State) (old : DisciplineState) : QueuesKept s (s.afterTbu old) := by
  unfold State.afterTbu
  exact .ite (.refl s) ((raiseSite_queuesKept s _ _ _).trans (setMute_queuesKept _ _ _))

theorem feedOut_queuesKept (s : State) : QueuesKept s s.feedOut := (setMute_queuesKept _ .feed true).after .setEsc

/-! ## Pins, break entries by number, services -/

theorem DirectoryBounded.of_positions {dir new : List (Nat × Clip)} (h : new.map (·.1) = dir.map (·.1))
    (hd : DirectoryBounded dir) : DirectoryBounded new := by
  obtain ⟨rising, positions⟩ := hd
  refine ⟨h ▸ rising, fun x hx => ?_⟩
  obtain ⟨y, hy, hxy⟩ := List.mem_map.1 (h ▸ List.mem_map_of_mem (f := (·.1)) hx : x.1 ∈ dir.map (·.1))
  exact hxy ▸ positions y hy

theorem positions_mapClipId (dir : List (Nat × Clip)) (id : Word32) (f : Clip → Clip) :
    (mapClipId dir id f).map (·.1) = dir.map (·.1) := by
  unfold mapClipId
  rw [List.map_map]
  refine List.map_congr_left fun x _ => ?_
  simp only [Function.comp]
  split <;> rfl

theorem DirectoryBounded.mapClipAt {dir : List (Nat × Clip)} (h : DirectoryBounded dir) (p : Nat) (f : Clip → Clip) :
    DirectoryBounded (mapClipAt dir p f) := h.of_positions (positions_mapClipAt dir p f)

theorem DirectoryBounded.mapClipId {dir : List (Nat × Clip)} (h : DirectoryBounded dir) (id : Word32) (f : Clip → Clip) :
    DirectoryBounded (mapClipId dir id f) := h.of_positions (positions_mapClipId dir id f)

/-- A change of the clips of an id in place. -/
theorem QueuesKept.mapClipId (s : State) (id : Word32) (f : Clip → Clip) :
    QueuesKept s (s.setCsc { s.csc with directory := mapClipId s.csc.directory id f }) :=
  .setCsc (hd := fun h => h.mapClipId id f)

theorem addPin_queuesKept (s : State) (id : Word32) : QueuesKept s (s.addPin id) := .mapClipId s id _

theorem dropPin_queuesKept (s : State) (id : Word32) : QueuesKept s (s.dropPin id) := .mapClipId s id _

theorem addPins_queuesKept (s : State) (ids : List Word32) : QueuesKept s (s.addPins ids) := .foldl _ addPin_queuesKept ids s

theorem dropPins_queuesKept (s : State) (ids : List Word32) : QueuesKept s (s.dropPins ids) := .foldl _ dropPin_queuesKept ids s

/-- A table changed entry by entry keeps its length, and its numbers where each entry keeps its own. -/
theorem TableBounded.map {table : List BreakEntry} (h : TableBounded table) {f : BreakEntry → BreakEntry}
    (hf : ∀ e, (f e).number = e.number) : TableBounded (table.map f) := by
  obtain ⟨places, numbers⟩ := h
  refine ⟨(List.length_map f).trans_le places, ?_⟩
  rw [List.map_map]
  exact (List.map_congr_left fun e _ => hf e : table.map ((·.number) ∘ f) = table.map (·.number)) ▸ numbers

theorem updateBreak_queuesKept (s : State) (n : Word16) {f : BreakEntry → BreakEntry}
    (hf : ∀ e, (f e).number = e.number := by exact fun _ => rfl) : QueuesKept s (s.updateBreak n f) :=
  .setBpu (·.map fun e => by split <;> simp [hf])

theorem countBpu_queuesKept (s : State) (f : BpuCounters → BpuCounters) : QueuesKept s (s.countBpu f) := .setBpu

theorem finishBreak_queuesKept (s : State) (e : BreakEntry) (x : BreakState) (o : BreakOutcome) :
    QueuesKept s (s.finishBreak e x o) :=
  ((updateBreak_queuesKept s _).trans (dropPins_queuesKept _ _)).trans (raiseBoth_queuesKept _ _ _ _)

theorem updateService_queuesKept (s : State) (v : Service) (f : ServiceState → ServiceState) :
    QueuesKept s (s.updateService v f) := .setSpe

theorem countSpe_queuesKept (s : State) (f : SpeCounters → SpeCounters) : QueuesKept s (s.countSpe f) := .setSpe

/-- A continuity table changed entry by entry with every stream kept. -/
theorem ContinuityBounded.map {table : List Continuity} (h : ContinuityBounded table) {f : Continuity → Continuity}
    (hf : ∀ c, (f c).stream = c.stream) : ContinuityBounded (table.map f) := by
  obtain ⟨places, streams⟩ := h
  refine ⟨(List.length_map f).trans_le places, ?_⟩
  rw [List.map_map]
  exact (List.map_congr_left fun c _ => hf c : table.map ((·.stream) ∘ f) = table.map (·.stream)) ▸ streams

theorem markReturning_queuesKept (s : State) (v : Service) : QueuesKept s (s.markReturning v) :=
  .setSpe (·.map fun c => by split <;> rfl)

end Machine
end Sys2Proof
end

section
/-! PROOFS. The break table within its places through notices, revisions, cancels and bookings (R82, R86 to R92, R96 to R107). -/

set_option Elab.async false

namespace Sys2Proof
namespace Machine

/-! ## The table -/

theorem removeBreak_length {table : List BreakEntry} {e : BreakEntry} (h : e ∈ table) :
    (removeBreak table e.number).length < table.length :=
  List.length_filter_lt_length_iff_exists.2 ⟨e, h, by simp⟩

theorem removeBreak_bounded {table : List BreakEntry} (h : TableBounded table) (n : Word16) :
    TableBounded (removeBreak table n) :=
  ⟨(List.length_filter_le ..).trans h.1, h.2.sublist (List.filter_sublist.map _)⟩

/-- An entry with a number that the table does not hold joins a table that has room for it (R82, R86). -/
theorem insertBreak_bounded {table : List BreakEntry} {e : BreakEntry} (h : TableBounded table) (room : table.length < 16)
    (new : ∀ x ∈ table, x.number ≠ e.number) : TableBounded (insertBreak e table) := by
  refine ⟨(insertBreak_length e table).trans_le room, ?_⟩
  have hperm := (insertBreak_perm e table).map (·.number)
  refine hperm.nodup_iff.2 (List.nodup_cons.2 ⟨fun hmem => ?_, h.2⟩)
  obtain ⟨x, hx, hn⟩ := List.mem_map.1 hmem
  exact new x hx hn

/-- The entry that makes room is one of the table (R87). -/
theorem victim_mem {table : List BreakEntry} {v : BreakEntry} (h : victim? table = some v) : v ∈ table := by
  have chosen : ∀ (l : List BreakEntry) (acc : Option BreakEntry), (∀ a, acc = some a → a ∈ table) → (∀ e ∈ l, e ∈ table) →
      l.foldl (fun acc e => some (match acc with | some a => earlierEnd a e | none => e)) acc = some v → v ∈ table := by
    intro l
    induction l with
    | nil => exact fun acc ha _ hv => ha v hv
    | cons e l ih =>
      intro acc ha hl hv
      have he : e ∈ table := hl e (List.mem_cons_self ..)
      refine ih _ (fun a hsome => ?_) (fun x hx => hl x (List.mem_cons_of_mem _ hx)) hv
      cases acc with
      | none => exact Option.some.inj hsome ▸ he
      | some b =>
        have hb : b ∈ table := ha b rfl
        obtain rfl : earlierEnd b e = a := Option.some.inj hsome
        unfold earlierEnd
        split
        · exact he
        · split <;> assumption
  exact chosen _ none (fun a ha => nomatch ha) (fun e he => (List.mem_filter.1 he).1) h

theorem State.findBreak_mem {s : State} {n : Word16} {e : BreakEntry} (h : s.findBreak? n = some e) : e ∈ s.bpu.table :=
  List.mem_of_find?_eq_some h

/-! ## Arm times and ends -/

theorem fallBack_queuesKept (s : State) (e : BreakEntry) (w : FallbackReason) : QueuesKept s (s.fallBack e w) :=
  ((updateBreak_queuesKept s _).trans (dropPins_queuesKept _ _)).trans (raiseBoth_queuesKept _ _ _ _)

theorem evaluate_queuesKept (s : State) (n : Word16) : QueuesKept s (s.evaluate n) := by
  unfold State.evaluate
  split
  · split
    · exact fallBack_queuesKept s _ _
    · exact (updateBreak_queuesKept s _).trans (raiseBoth_queuesKept _ _ _ _)
  · exact .refl s

theorem reachArm_queuesKept (s : State) (n : Word16) : QueuesKept s (s.reachArm n) := by
  unfold State.reachArm
  split
  · exact .ite (evaluate_queuesKept s n) (.refl s)
  · exact .refl s

theorem reachEnd_queuesKept (s : State) (n : Word16) : QueuesKept s (s.reachEnd n) := by
  unfold State.reachEnd
  split
  · refine .ite ?_ (.refl s)
    unfold State.endBreak
    exact .ite ((countBpu_queuesKept s _).trans (finishBreak_queuesKept _ _ _ _)) (finishBreak_queuesKept s _ _ _)
  · exact .refl s

/-! ## Notices from the network -/

theorem refuseNotice_queuesKept (s : State) (n : Word16) (w : NoticeRefusal) : QueuesKept s (s.refuseNotice n w) :=
  (countBpu_queuesKept s _).trans (raiseSite_queuesKept _ _ _ _)

theorem placeNew_queuesKept {s : State} {e : BreakEntry} (room : s.bpu.table.length < 16)
    (new : ∀ x ∈ s.bpu.table, x.number ≠ e.number) : QueuesKept s (s.placeNew e) := by
  have placed : QueuesKept s ((s.setBpu { s.bpu with table := insertBreak e s.bpu.table }).raiseBoth .breakAnnounced
      (.breakNumber e.number) .none) :=
    .after (raiseBoth_queuesKept _ _ _ _) (.setBpu fun h => insertBreak_bounded h room new)
  unfold State.placeNew
  exact .ite (placed.trans (raiseBoth_queuesKept _ _ _ _)) placed

theorem newBreak_queuesKept {s : State} {f : NoticeFields} (new : s.findBreak? f.number = none) (a b : SiteTime) (p : Policy) :
    QueuesKept s (s.newBreak f a b p) := by
  have absent := State.findBreak_none new
  unfold State.newBreak
  refine .ite (refuseNotice_queuesKept s _ _) (.ite (refuseNotice_queuesKept s _ _) ?_)
  split
  · next room => exact placeNew_queuesKept room absent
  · split
    · next v hv =>
      refine fun bounded => placeNew_queuesKept (e := newEntry s f a b p) ?_ (fun x hx => ?_)
        (QueuesKept.setBpu (x := { s.bpu with table := removeBreak s.bpu.table v.number, staging := _ })
          (removeBreak_bounded · v.number) bounded)
      · exact (removeBreak_length (victim_mem hv)).trans_le bounded.table.1
      · exact absent x (List.mem_filter.1 hx).1
    · exact refuseNotice_queuesKept s _ _

/-- A revised entry takes the place of the one with its number, which the table holds (R88). -/
theorem installRevision_queuesKept {s : State} {old new : BreakEntry} (hold : old ∈ s.bpu.table)
    (hnew : new.number = old.number) : QueuesKept s (s.installRevision old new) := by
  refine .after (raiseBoth_queuesKept _ _ _ _) (.setBpu fun bounded => ?_)
  dsimp only
  split
  · refine bounded.map fun x => ?_
    split
    · next h => exact h.symm
    · rfl
  · refine insertBreak_bounded (removeBreak_bounded bounded _) ?_ removeBreak_none
    rw [show ({ new with revision := old.revision + 1 } : BreakEntry).number = old.number from hnew]
    exact (removeBreak_length hold).trans_le bounded.1

theorem shorten_number (e : BreakEntry) : e.shorten.number = e.number := by
  unfold BreakEntry.shorten
  split <;> rfl

theorem afterRevision_queuesKept (s : State) (old new : BreakEntry) : QueuesKept s (s.afterRevision old new) := by
  unfold State.afterRevision
  refine .ite (.ite (updateBreak_queuesKept s _ shorten_number) (.refl s)) ?_
  have armed : QueuesKept s (if decide (new.arm ≠ old.arm) || decide (new.state ≠ old.state) then s.reachArm new.number else s) :=
    .ite (reachArm_queuesKept s _) (.refl s)
  exact .ite (armed.trans (reachEnd_queuesKept _ _)) armed

theorem revise_queuesKept {s : State} {e : BreakEntry} (h : e ∈ s.bpu.table) (f : NoticeFields) :
    QueuesKept s (s.revise e f) := by
  have refused := refuseNotice_queuesKept s f.number
  have revised : ∀ {u : State} {new : BreakEntry}, QueuesKept s u → e ∈ u.bpu.table → new.number = e.number →
      QueuesKept s (if contentDiffers new e then (u.installRevision e new).afterRevision e new else u) := fun hu hmem hn =>
    .ite ((hu.trans (installRevision_queuesKept hmem hn)).trans (afterRevision_queuesKept _ _ _)) hu
  have number : (if e.state = .active then e.overlayActive f else e.overlay s.sst.live f).number = e.number := by
    split <;> rfl
  unfold State.revise
  dsimp only
  refine .ite (.refl s) (.ite (refused _) (.ite (refused _) (.ite (refused _) (.ite (refused _) ?_))))
  refine revised (.ite (countBpu_queuesKept s _) (.refl s)) ?_ number
  split <;> exact h

theorem takeNotice_queuesKept (s : State) (f : NoticeFields) : QueuesKept s (s.takeNotice f) := by
  unfold State.takeNotice
  split
  · next e he => exact revise_queuesKept (State.findBreak_mem he) f
  · next hn =>
    split
    · exact newBreak_queuesKept hn _ _ _
    all_goals exact .refl s

theorem takeCancel_queuesKept (s : State) (n : Word16) : QueuesKept s (s.takeCancel n) := by
  unfold State.takeCancel
  split
  · exact countBpu_queuesKept s _
  · exact .ite (.refl s) (.ite (updateBreak_queuesKept s n) (finishBreak_queuesKept s _ _ _))

theorem takeReturn_queuesKept (s : State) (v : Service) : QueuesKept s (s.takeReturn v) := by
  unfold State.takeReturn
  split
  · exact updateBreak_queuesKept s _ shorten_number
  · exact countBpu_queuesKept s _

/-! ## The booking exchange -/

theorem updateStaging_queuesKept (s : State) (r : Role) (f : Staging → Staging) : QueuesKept s (s.updateStaging r f) := .setBpu

theorem ownStaging_queuesKept (r : Role) (c : Byte) (d : List Byte) (s : State) : QueuesKept s (ownStaging r c d s).state := by
  unfold ownStaging
  split
  · exact .refl s
  · exact .owned (updateStaging_queuesKept s r _)

theorem ownReserve_queuesKept (r : Role) (n : Word16) (s : State) : QueuesKept s (ownReserve r n s).state := by
  unfold ownReserve
  split
  · exact .refl s
  · split
    · exact .owned (updateStaging_queuesKept s r _)
    · exact .refl s

theorem installBooking_queuesKept (s : State) (r : Role) (e : BreakEntry) : QueuesKept s (s.installBooking r e) := by
  have booked : ∀ (clips : List Word32) (f : BreakEntry → BreakEntry), (∀ x, (f x).number = x.number) →
      QueuesKept s ((((s.addPins clips).dropPins e.pinned).updateBreak e.number f).updateStaging r (fun _ => {})) :=
    fun clips f hf => (((addPins_queuesKept s clips).trans (dropPins_queuesKept _ _)).trans (updateBreak_queuesKept _ _ hf)).trans
      (updateStaging_queuesKept _ r _)
  unfold State.installBooking
  dsimp only
  split
  · refine .after (raiseTo_queuesKept _ _ _ _ _) (.after (raiseBoth_queuesKept _ _ _ _) (.after (countBpu_queuesKept _ _)
      (.after (updateStaging_queuesKept _ _ _) ?_)))
    exact booked _ _ fun _ => rfl
  · refine .after (raiseBoth_queuesKept _ _ _ _) (.after (countBpu_queuesKept _ _) ?_)
    exact booked _ _ fun _ => rfl

theorem ownConfirm_queuesKept (r : Role) (s : State) : QueuesKept s (ownConfirm r s).state := by
  have refused : ∀ c v, QueuesKept s (refuseConfirm s c v).state := fun _ _ => .owned (countBpu_queuesKept s _)
  unfold ownConfirm
  split
  · exact refused _ _
  · exact refused _ _
  · split
    · exact refused _ _
    · split
      · exact refused _ _
      · split
        · exact refused _ _
        · split
          · exact refused _ _
          · exact installBooking_queuesKept s r _

theorem ownFindBreak_queuesKept (n : Word16) (s : State) : QueuesKept s (ownFindBreak n s).state := by
  unfold ownFindBreak
  split <;> exact .refl s

theorem removeBooking_queuesKept (s : State) (e : BreakEntry) (x : BreakState) (w : Option FallbackReason) :
    QueuesKept s (s.removeBooking e x w) :=
  ((updateBreak_queuesKept s _).trans (dropPins_queuesKept _ _)).trans (raiseBoth_queuesKept _ _ _ _)

theorem ownClearBooking_queuesKept (n : Word16) (s : State) : QueuesKept s (ownClearBooking n s).state := by
  unfold ownClearBooking
  split
  · exact .refl s
  · split
    · exact removeBooking_queuesKept s _ _ _
    · split
      · exact (removeBooking_queuesKept s _ _ _).trans (raiseBoth_queuesKept _ _ _ _)
      · exact .refl s

end Machine
end Sys2Proof
end

section
/-! PROOFS. The continuity table and the anchor queue within their places: hand-offs, completions at emission, slate and the
schedule (R44 to R55, R151 to R170). -/

set_option Elab.async false

namespace Sys2Proof
namespace Machine

/-! ## The continuity table (R161) -/

/-- The streams of the table rise. -/
def RisingStreams (table : List Continuity) : Prop := (table.map (·.stream)).Pairwise (· < ·)

theorem risingStreams_cons {x : Continuity} {rest : List Continuity} :
    RisingStreams (x :: rest) ↔ (∀ y ∈ rest, x.stream < y.stream) ∧ RisingStreams rest := by
  simp [RisingStreams]

theorem mem_putContinuity {c y : Continuity} : ∀ {table : List Continuity}, y ∈ putContinuity c table → y = c ∨ y ∈ table
  | [], h => by simpa [putContinuity] using h
  | x :: rest, h => by
    unfold putContinuity at h
    split at h
    · exact List.mem_cons.1 h
    · split at h
      · exact (List.mem_cons.1 h).imp_right (List.mem_cons_of_mem _)
      · rcases List.mem_cons.1 h with rfl | h
        · exact .inr (List.mem_cons_self ..)
        · exact (mem_putContinuity h).imp_right (List.mem_cons_of_mem _)

theorem putContinuity_rising (c : Continuity) : ∀ {table : List Continuity}, RisingStreams table →
    RisingStreams (putContinuity c table)
  | [], _ => by simp [putContinuity, RisingStreams]
  | x :: rest, h => by
    obtain ⟨above, rising⟩ := risingStreams_cons.1 h
    unfold putContinuity
    split
    · next hc =>
      refine risingStreams_cons.2 ⟨fun y hy => ?_, h⟩
      rcases List.mem_cons.1 hy with rfl | hy
      · exact hc
      · exact hc.trans (above y hy)
    · next hlow =>
      split
      · next heq => exact risingStreams_cons.2 ⟨fun y hy => heq ▸ above y hy, rising⟩
      · next hne =>
        refine risingStreams_cons.2 ⟨fun y hy => ?_, putContinuity_rising c rising⟩
        rcases mem_putContinuity hy with rfl | hy
        · omega
        · exact above y hy

theorem putContinuity_length_le (c : Continuity) : ∀ table : List Continuity, (putContinuity c table).length ≤ table.length + 1
  | [] => Nat.le_refl _
  | x :: rest => by
    unfold putContinuity
    split
    · exact Nat.le_refl _
    · split
      · exact Nat.le_succ _
      · exact Nat.succ_le_succ (putContinuity_length_le c rest)

/-- An entry of a stream that the table holds takes that stream's place. -/
theorem putContinuity_length_of_mem {c e : Continuity} (hs : c.stream = e.stream) : ∀ {table : List Continuity},
    RisingStreams table → e ∈ table → (putContinuity c table).length = table.length
  | x :: rest, h, he => by
    obtain ⟨above, rising⟩ := risingStreams_cons.1 h
    unfold putContinuity
    rcases List.mem_cons.1 he with rfl | he
    · rw [if_neg (by omega), if_pos hs]
      rfl
    · have := above e he
      rw [if_neg (by omega), if_neg (by omega)]
      exact congrArg (· + 1) (putContinuity_length_of_mem hs rising he)

theorem evictContinuity_sublist (map : List MapEntry) : ∀ table : List Continuity, (evictContinuity map table).Sublist table
  | [] => .refl _
  | x :: rest => by
    unfold evictContinuity
    split
    · exact List.sublist_cons_self x rest
    · exact (evictContinuity_sublist map rest).cons_cons x

/-- Where the table holds a stream that is no SERVICE stream, an entry leaves. -/
theorem evictContinuity_length {map : List MapEntry} {c : Continuity} (hc : serviceOf? map c.stream = none) :
    ∀ {table : List Continuity}, c ∈ table → (evictContinuity map table).length < table.length
  | x :: rest, h => by
    unfold evictContinuity
    split
    · exact Nat.lt_succ_self _
    · next hx =>
      rcases List.mem_cons.1 h with rfl | h
      · exact absurd (by rw [hc]; rfl) hx
      · exact Nat.succ_lt_succ (evictContinuity_length hc h)

theorem mem_map_of_serviceOf {map : List MapEntry} {stream : Nat} (h : serviceOf? map stream ≠ none) :
    stream ∈ map.map (·.stream) := by
  unfold serviceOf? streamClass? at h
  cases hf : map.find? (fun e => e.stream == stream) with
  | none => exact absurd (by rw [hf]; rfl) h
  | some e => exact List.mem_map.2 ⟨e, List.mem_of_find?_eq_some hf, by simpa using List.find?_some hf⟩

/-- A full table that a SERVICE stream is not in holds a stream that is none: the map has no room for 33 SERVICE streams (R35,
R161). -/
theorem exists_not_service {map : List MapEntry} {table : List Continuity} {stream : Nat} (hmap : map.length ≤ 32)
    (hfull : 32 ≤ table.length) (hrising : RisingStreams table) (hnew : ∀ c ∈ table, c.stream ≠ stream)
    (hs : serviceOf? map stream ≠ none) : ∃ c ∈ table, serviceOf? map c.stream = none := by
  by_contra hall
  push Not at hall
  have distinct : (stream :: table.map (·.stream)).Nodup := by
    refine List.nodup_cons.2 ⟨fun h => ?_, hrising.imp Nat.ne_of_lt⟩
    obtain ⟨c, hc, hn⟩ := List.mem_map.1 h
    exact hnew c hc hn
  have listed : stream :: table.map (·.stream) ⊆ map.map (·.stream) := by
    refine List.cons_subset.2 ⟨mem_map_of_serviceOf hs, fun n hn => ?_⟩
    obtain ⟨c, hc, rfl⟩ := List.mem_map.1 hn
    exact mem_map_of_serviceOf (hall c hc)
  have := (distinct.subperm listed).length_le
  simp only [List.length_cons, List.length_map] at this
  omega

theorem continuityOf_mem {table : List Continuity} {n : Nat} {c : Continuity} (h : continuityOf? table n = some c) : c ∈ table :=
  List.mem_of_find?_eq_some h

theorem replaceContinuity_bounded {table : List Continuity} {c e : Continuity} (h : ContinuityBounded table) (he : e ∈ table)
    (hs : c.stream = e.stream) : ContinuityBounded (putContinuity c table) :=
  ⟨(putContinuity_length_of_mem hs h.2 he).trans_le h.1, putContinuity_rising c h.2⟩

theorem updateContinuity_bounded {map : List MapEntry} {table : List Continuity} (hmap : map.length ≤ 32)
    (h : ContinuityBounded table) (stream count : Nat) (held : Bool) :
    ContinuityBounded (updateContinuity map table stream count held) := by
  obtain ⟨places, rising⟩ := h
  unfold updateContinuity
  split
  · next c hc =>
    split
    · exact replaceContinuity_bounded ⟨places, rising⟩ (continuityOf_mem hc) rfl
    · exact ⟨places, rising⟩
  · next hn =>
    split
    · next hs =>
      have absent : ∀ c ∈ table, c.stream ≠ stream := fun c hc => by simpa using List.find?_eq_none.1 hn c hc
      dsimp only
      split
      · next room => exact ⟨(putContinuity_length_le _ _).trans room, putContinuity_rising _ rising⟩
      · next full =>
        obtain ⟨c, hc, hnone⟩ := exists_not_service hmap (Nat.le_of_not_lt full) rising absent
          (Option.isSome_iff_ne_none.1 hs)
        have shorter := evictContinuity_length hnone hc
        exact ⟨(putContinuity_length_le _ _).trans (by omega),
          putContinuity_rising _ (rising.sublist ((evictContinuity_sublist map table).map _))⟩
    · exact ⟨places, rising⟩

theorem noteCount_queuesKept (s : State) (n c : Nat) (b : Bool) : QueuesKept s (s.noteCount n c b) :=
  fun h => { h with continuity := updateContinuity_bounded h.map h.continuity n c b }

/-! ## Hand-offs (R153 to R160) -/

theorem spliceIn_queuesKept (s : State) (v : Service) (e : BreakEntry) : QueuesKept s (s.spliceIn v e) :=
  ((updateBreak_queuesKept s _).trans (finishBreak_queuesKept _ _ _ _)).trans
    ((updateService_queuesKept _ _ _).trans (markReturning_queuesKept _ _))

theorem closeWindow_queuesKept (s : State) (t : ExactTime) (v : Service) : QueuesKept s (s.closeWindow t v) := by
  unfold State.closeWindow
  split
  · split
    · exact .ite (spliceIn_queuesKept s _ _) (.refl s)
    · exact .refl s
  · exact .refl s

theorem grantClip_queuesKept (s : State) (v : Service) (e : BreakEntry) : QueuesKept s (s.grantClip v e) := by
  unfold State.grantClip
  exact .after (updateService_queuesKept _ _ _) (.after (raiseBoth_queuesKept _ _ _ _) (updateBreak_queuesKept s _))

theorem grantBlank_queuesKept (s : State) (v : Service) (e : BreakEntry) : QueuesKept s (s.grantBlank v e) := by
  unfold State.grantBlank
  exact .after (updateService_queuesKept _ _ _) (.after (raiseBoth_queuesKept _ _ _ _) (updateBreak_queuesKept s _))

theorem openWindow_queuesKept (s : State) (t : ExactTime) (v : Service) : QueuesKept s (s.openWindow t v) := by
  unfold State.openWindow
  split
  · split
    · exact .ite (.ite (grantClip_queuesKept s _ _) (grantBlank_queuesKept s _ _)) (countSpe_queuesKept s _)
    · exact .refl s
  · exact .refl s
  · exact .refl s

theorem addPending_queuesKept (s : State) (n : Word32) (t : SiteTime) (c : Content) : QueuesKept s (s.addPending n t c) := .setSpe

theorem askClip_queuesKept (s : State) (n : Word32) (p : Nat) (c : Clip) (k : Nat) : QueuesKept s (s.askClip n p c k) := by
  unfold State.askClip
  exact .ite .setCsc (.refl s)

theorem takeBreakPacket_queuesKept (s : State) (n : Word32) (t : SiteTime) (v : Service) (b : Word16) :
    QueuesKept s (s.takeBreakPacket n t v b) := by
  unfold State.takeBreakPacket
  dsimp only
  split
  · split
    · split
      · refine .after (updateService_queuesKept _ _ _) (.after (askClip_queuesKept _ _ _ _ _)
          (.after (addPending_queuesKept _ _ _ _) ?_))
        exact .ite (updateBreak_queuesKept s _) (.refl s)
      · exact addPending_queuesKept s _ _ _
    · exact .after (addPending_queuesKept _ _ _ _) (updateBreak_queuesKept s _)
  · exact addPending_queuesKept s _ _ _

theorem takeSlatePacket_queuesKept (s : State) (n : Word32) (t : SiteTime) (v : Service) (id : Word32) :
    QueuesKept s (s.takeSlatePacket n t v id) := by
  unfold State.takeSlatePacket
  dsimp only
  split
  · exact .after (updateService_queuesKept _ _ _) (.after (askClip_queuesKept _ _ _ _ _) (addPending_queuesKept s _ _ _))
  · exact addPending_queuesKept s _ _ _

theorem chooseContent_queuesKept (s : State) (n : Word32) (t : SiteTime) (v : Service) (p : List Byte) (i : SlotInfo) :
    QueuesKept s (s.chooseContent n t v p i) := by
  unfold State.chooseContent
  dsimp only
  split
  · exact takeSlatePacket_queuesKept s _ _ _ _
  · split
    · exact addPending_queuesKept s _ _ _
    · exact takeBreakPacket_queuesKept s _ _ _ _
    · exact addPending_queuesKept s _ _ _

theorem handOff_queuesKept (s : State) (n : Word32) (t : ExactTime) (i : SiteTime) (o : SlotOutcome) :
    QueuesKept s (s.handOff n t i o) := by
  have closed : QueuesKept s (State.closeWindows (s.setSpe { s.spe with fetchInstant := some t }) t) :=
    .after (.foldl _ (fun s v => closeWindow_queuesKept s t v) _ _) .setSpe
  unfold State.handOff
  dsimp only
  split
  · split
    · exact closed.trans ((openWindow_queuesKept _ _ _).trans (chooseContent_queuesKept _ _ _ _ _ _))
    · exact closed.trans (addPending_queuesKept _ _ _ _)
  all_goals exact closed.trans (addPending_queuesKept _ _ _ _)

/-! ## Completion at emission (R160 to R167) -/

theorem checkReturning_queuesKept (s : State) (p : List Byte) : QueuesKept s (s.checkReturning p).1 := by
  unfold State.checkReturning
  dsimp only
  split
  · next c hc =>
    have cleared : QueuesKept s (s.setSpe { s.spe with
        continuity := putContinuity { c with count := continuityCount p, returning := false } s.spe.continuity }) :=
      .setSpe fun h => replaceContinuity_bounded h (continuityOf_mem hc) rfl
    split
    · split
      · exact .fst cleared
      · split
        · exact .fst (cleared.trans (countSpe_queuesKept _ _))
        · exact .fst (cleared.trans (countSpe_queuesKept _ _))
    · exact .refl s
  · exact .refl s

theorem track_queuesKept (s : State) (v : Service) (x : Nat) (t : SiteTime) : QueuesKept s (s.track v x t) :=
  updateService_queuesKept s v _

theorem completeProgramme_queuesKept (s : State) (t : SiteTime) (p : List Byte) (i : SlotInfo) :
    QueuesKept s (s.completeProgramme t p i).1 := by
  have noted : ∀ n c, QueuesKept s ((s.checkReturning p).1.noteCount n c false) := fun n c =>
    (checkReturning_queuesKept s p).trans (noteCount_queuesKept _ n c false)
  unfold State.completeProgramme
  dsimp only
  split
  · exact .ite ((noted _ _).trans (track_queuesKept _ _ _ _)) (noted _ _)
  · exact noted _ _

theorem fixOffset_queuesKept (s : State) (c : ClipContent) (t : SiteTime) : QueuesKept s (s.fixOffset c t) := by
  unfold State.fixOffset
  dsimp only
  split
  · split
    · exact updateService_queuesKept s _ _
    · exact .after (countSpe_queuesKept _ _) (updateService_queuesKept s _ _)
  · exact .refl s

theorem completeClip_queuesKept (s : State) (t : SiteTime) (c : ClipContent) (p : List Byte) (i : SlotInfo) :
    QueuesKept s (s.completeClip t c p i).1 := by
  have scrambled : QueuesKept s (s.countScrambled p) := .ite (countSpe_queuesKept s _) (.refl s)
  have resumed : ∀ (u : State) b, QueuesKept u (u.noteResume c b p) := fun u b => .ite (updateService_queuesKept u _ _) (.refl u)
  have noted : ∀ b n k, QueuesKept s (((s.countScrambled p).noteResume c b p).noteCount n k true) := fun b n k =>
    (scrambled.trans (resumed _ b)).trans (noteCount_queuesKept _ n k true)
  unfold State.completeClip
  dsimp only
  exact .ite ((noted _ _ _).trans (track_queuesKept _ _ _ _)) (noted _ _ _)

theorem completeContent_queuesKept (s : State) (t : SiteTime) (c : Content) : QueuesKept s (s.completeContent t c).1 := by
  unfold State.completeContent
  split
  · exact completeProgramme_queuesKept s _ _ _
  · exact .refl s
  · next c =>
    have begun : QueuesKept s ((s.fixOffset c t).clearResume c) :=
      (fixOffset_queuesKept s c t).trans (.ite (updateService_queuesKept _ _ _) (.refl _))
    dsimp only
    split
    · exact begun.trans (completeClip_queuesKept _ _ _ _ _)
    · exact begun
    · exact .fst (begun.trans (countSpe_queuesKept _ _))

theorem completeSlot_queuesKept (s : State) (n : Word32) (t : SiteTime) : QueuesKept s (s.completeSlot n t).1 := by
  unfold State.completeSlot
  split
  · split
    · exact .after (completeContent_queuesKept _ _ _) .setSpe
    · exact .refl s
  · exact .refl s

/-! ## Slate (R168, R170) -/

theorem dropSlate_queuesKept (s : State) (v : Service) (id : Word32) : QueuesKept s (s.dropSlate v id) :=
  ((dropPin_queuesKept s id).trans (updateService_queuesKept _ _ _)).trans (raiseSite_queuesKept _ _ _ _)

theorem installSlate_queuesKept (s : State) (v : Service) (id : Word32) : QueuesKept s (s.installSlate v id) := by
  unfold State.installSlate
  dsimp only
  refine .after (raiseSite_queuesKept _ _ _ _) (.after (updateService_queuesKept _ _ _) ?_)
  split
  · exact (addPin_queuesKept s id).trans (dropPin_queuesKept _ _)
  · exact addPin_queuesKept s id

theorem ownForceSlate_queuesKept (v : Byte) (id : Word32) (s : State) : QueuesKept s (ownForceSlate v id s).state := by
  unfold ownForceSlate
  split
  · exact .refl s
  · split
    · exact .owned (installSlate_queuesKept s _ _)
    · exact .refl s

theorem ownReleaseSlate_queuesKept (v : Byte) (s : State) : QueuesKept s (ownReleaseSlate v s).state := by
  have released : ∀ (u : State) v, QueuesKept u (u.afterRelease v) := fun u v => by
    unfold State.afterRelease
    split
    · exact markReturning_queuesKept u v
    · exact updateService_queuesKept u v _
    · exact .refl u
  unfold ownReleaseSlate
  split
  · exact .refl s
  · split
    · exact .refl s
    · exact .owned ((dropSlate_queuesKept s _ _).trans (released _ _))

/-! ## The schedule (R44 to R55) -/

theorem anchorsFrom_length_le (slot : Word32) : ∀ anchors : List Anchor, (anchorsFrom slot anchors).length ≤ anchors.length
  | [] => Nat.le_refl _
  | [_] => Nat.le_refl _
  | a :: b :: rest => by
    unfold anchorsFrom
    split
    · exact (anchorsFrom_length_le slot (b :: rest)).trans (Nat.le_succ _)
    · exact Nat.le_refl _

theorem refreshFetch_queuesKept (s : State) : QueuesKept s s.refreshFetch := by
  unfold State.refreshFetch
  split
  · exact .setEsc ((anchorsFrom_length_le _ _).trans ·)
  · exact .refl s

theorem examine_queuesKept (s : State) (n : Word32) : QueuesKept s (s.examine n) := by
  unfold State.examine
  split
  · exact .after (refreshFetch_queuesKept _) .setEsc
  · exact .refl s

theorem countEsc_queuesKept (s : State) (f : EscCounters → EscCounters) : QueuesKept s (s.countEsc f) := .setEsc

/-- A schedule step is counted and raised, and leaves the anchors. -/
theorem checkStep_anchors (s : State) (n a : Anchor) : (s.checkStep n a).esc.anchors = s.esc.anchors := by
  unfold State.checkStep
  split <;> rfl

theorem checkStep_queuesKept (s : State) (n a : Anchor) : QueuesKept s (s.checkStep n a) :=
  .ite (.after (raiseSite_queuesKept _ _ _ _) (countEsc_queuesKept s _)) (.refl s)

theorem appendAnchor_queuesKept {s : State} (room : s.esc.anchors.length < 32) (m : Mark) (n a : Anchor) :
    QueuesKept s (s.appendAnchor m n a) := by
  refine .after (refreshFetch_queuesKept _) (.after (.setEsc fun _ => ?_) (checkStep_queuesKept s n a))
  simp only [List.length_append, List.length_singleton, checkStep_anchors]
  exact room

theorem startRunning_queuesKept (s : State) (a : Anchor) : QueuesKept s (s.startRunning a) :=
  .after (examine_queuesKept _ _) (.after (setMute_queuesKept _ _ _) (.setEsc fun _ => Nat.succ_le_succ (Nat.zero_le _)))

theorem takeMark_queuesKept (s : State) (m : Mark) (n : Word32) : QueuesKept s (s.takeMark m n) := by
  have refused : QueuesKept s s.refuseMark := countEsc_queuesKept s _
  unfold State.takeMark
  dsimp only
  refine .ite ?_ refused
  split
  · exact startRunning_queuesKept s _
  · refine .ite ?_ refused
    split
    · next room => exact appendAnchor_queuesKept room _ _ _
    · exact countEsc_queuesKept s _

theorem request_queuesKept (s : State) (n : NextSlot) : QueuesKept s (s.request n) := .after .setCsc .setEsc

theorem deliverSlot_queuesKept (s : State) (q : Requested) (m : Bool) (b : List Byte) : QueuesKept s (s.deliverSlot q m b) := by
  have done : ∀ (u : State) n, QueuesKept u (u.markDone n) := fun u n => .setEsc
  exact (done _ _).after ((handOff_queuesKept _ _ _ _ _).after (countEsc_queuesKept s _))

theorem slotPacket_queuesKept (s : State) (q : Requested) : QueuesKept s (s.slotPacket q).1 := by
  unfold State.slotPacket
  dsimp only
  split
  · exact .after (completeSlot_queuesKept _ _ _) .setEsc
  · exact .fst (.after (countEsc_queuesKept _ _) .setEsc)

theorem placeFill_anchors (e : Esc) (t : SiteTime) : (e.placeFill t).anchors = e.anchors := by
  unfold Esc.placeFill
  split
  · dsimp only
    split <;> rfl
  · rfl

theorem emitSlot_queuesKept (s : State) (q : Requested) : QueuesKept s (s.emitSlot q) := by
  refine .after (.setEsc fun h => ?_) (.after (drive_queuesKept _ _ _)
    (.after (carrierInstant_queuesKept _) (slotPacket_queuesKept s q)))
  rw [placeFill_anchors]
  exact h

theorem emitFill_queuesKept (s : State) (f : FillRun) : QueuesKept s (s.emitFill f) :=
  .after (drive_queuesKept _ _ _) (.after (carrierInstant_queuesKept _) .setEsc)

end Machine
end Sys2Proof
end

section
/-! PROOFS. The clip directory and the load buffer within their places (R115, R118 to R130), and the queues of the Feed Intake
(R34, R39). -/

set_option Elab.async false

namespace Sys2Proof
namespace Machine

/-! ## The directory (R115, R118) -/

theorem mem_placeClip {p : Nat} {c : Clip} {y : Nat × Clip} : ∀ {dir : List (Nat × Clip)}, y ∈ placeClip p c dir →
    y = (p, c) ∨ y ∈ dir
  | [], h => by simpa [placeClip] using h
  | x :: rest, h => by
    unfold placeClip at h
    split at h
    · exact List.mem_cons.1 h
    · rcases List.mem_cons.1 h with rfl | h
      · exact .inr (List.mem_cons_self ..)
      · exact (mem_placeClip h).imp_right (List.mem_cons_of_mem _)

theorem placeClip_rising {p : Nat} (c : Clip) : ∀ {dir : List (Nat × Clip)}, (dir.map (·.1)).Pairwise (· < ·) →
    (∀ x ∈ dir, x.1 ≠ p) → ((placeClip p c dir).map (·.1)).Pairwise (· < ·)
  | [], _, _ => by simp [placeClip]
  | x :: rest, h, hp => by
    rw [List.map_cons, List.pairwise_cons] at h
    obtain ⟨above, rising⟩ := h
    have above : ∀ y ∈ rest, x.1 < y.1 := fun y hy => above y.1 (List.mem_map_of_mem hy)
    unfold placeClip
    split
    · next hlt =>
      refine List.pairwise_cons.2 ⟨fun n hn => ?_, List.pairwise_cons.2 ⟨fun n hn => ?_, rising⟩⟩
      · obtain ⟨y, hy, rfl⟩ := List.mem_map.1 hn
        rcases List.mem_cons.1 hy with rfl | hy
        · exact hlt
        · exact hlt.trans (above y hy)
      · obtain ⟨y, hy, rfl⟩ := List.mem_map.1 hn
        exact above y hy
    · next hle =>
      have hx := hp x (List.mem_cons_self ..)
      refine List.pairwise_cons.2 ⟨fun n hn => ?_, placeClip_rising c rising fun y hy => hp y (List.mem_cons_of_mem _ hy)⟩
      obtain ⟨y, hy, rfl⟩ := List.mem_map.1 hn
      rcases mem_placeClip hy with rfl | hy
      · exact Nat.lt_of_le_of_ne (Nat.le_of_not_lt hle) hx
      · exact above y hy

/-- The lowest EMPTY position is one of the 64, and holds no clip (R118). -/
theorem lowestEmpty_spec {dir : List (Nat × Clip)} {p : Nat} (h : lowestEmpty? dir = some p) :
    (1 ≤ p ∧ p ≤ 64) ∧ ∀ x ∈ dir, x.1 ≠ p := by
  have hmem := List.mem_range'_1.1 (List.mem_of_find?_eq_some h)
  have hnone : (clipAt? dir p).isNone = true := List.find?_some (p := fun q => (clipAt? dir q).isNone) h
  refine ⟨⟨hmem.1, by have := hmem.2; simp only [Config.clipPlaces] at this; omega⟩, fun x hx heq => ?_⟩
  unfold clipAt? at hnone
  rw [Option.isNone_map, Option.isNone_iff_eq_none] at hnone
  exact absurd (beq_iff_eq.2 heq) (List.find?_eq_none.1 hnone x hx)

theorem DirectoryBounded.placeClip {dir : List (Nat × Clip)} {p : Nat} (h : DirectoryBounded dir)
    (hp : lowestEmpty? dir = some p) (c : Clip) : DirectoryBounded (placeClip p c dir) := by
  obtain ⟨range, free⟩ := lowestEmpty_spec hp
  obtain ⟨rising, positions⟩ := h
  refine ⟨placeClip_rising c rising free, fun x hx => ?_⟩
  rcases mem_placeClip hx with rfl | hx
  · exact range
  · exact positions x hx

theorem DirectoryBounded.filter {dir : List (Nat × Clip)} (h : DirectoryBounded dir) (p : Nat × Clip → Bool) :
    DirectoryBounded (dir.filter p) :=
  ⟨h.1.sublist (List.filter_sublist.map _), fun x hx => h.2 x (List.mem_filter.1 hx).1⟩

/-! ## The load buffer (R119 to R124) -/

theorem places_le_one (f : InsertionFraming) : f.places ≤ 1 := by cases f <;> simp [InsertionFraming.places]

theorem places_of_framing {f : InsertionFraming} {bytes : List Byte} (h : f.framing? = some bytes) : f.places = 1 := by
  cases f <;> first | rfl | cases h

theorem load_of_loading {c : Csc} {l : LoadContext} {clip : Clip} (h : c.loading? = some (l, clip)) : c.load = some l := by
  unfold Csc.loading? at h
  split at h
  · next m hm =>
    obtain ⟨x, -, hx⟩ := Option.map_eq_some_iff.1 h
    obtain ⟨rfl, -⟩ := Prod.mk.inj hx
    exact hm
  · cases h

theorem Csc.LoadBounded.of_none {c : Csc} (h : c.load = none) : c.LoadBounded := fun l hl => by rw [h] at hl; cases hl

/-- Framing that takes no place keeps the load buffer within its places. -/
theorem Csc.LoadBounded.of_places {c d : Csc} (h : c.LoadBounded) (hload : d.load = c.load) (hf : d.framing.places = 0) :
    d.LoadBounded := by
  intro l hl
  have := h l (hload ▸ hl)
  omega

/-- While IREADY is high the buffer has a place for the packet that opens (R120, R121). -/
theorem Csc.LoadBounded.of_iready {c : Csc} (h : c.iready = true) (bytes : List Byte) :
    { c with framing := .admitted bytes : Csc }.LoadBounded := by
  intro l hl
  unfold Csc.iready at h
  rw [show c.load = some l from hl] at h
  have room : l.buffer.length + c.framing.places < 16 := of_decide_eq_true (Bool.and_eq_true_iff.1 h).1
  show l.buffer.length + 1 ≤ 16
  omega

theorem countCsc_queuesKept (s : State) (f : CscCounters → CscCounters) : QueuesKept s (s.countCsc f) := .setCsc

theorem setFraming_queuesKept (s : State) {f : InsertionFraming} (h : f.places = 0 := by exact rfl) :
    QueuesKept s (s.setFraming f) := .setCsc (hl := fun b => b.of_places rfl h)

theorem openPacket_queuesKept (s : State) (b : Byte) : QueuesKept s (s.openPacket b) := by
  unfold State.openPacket
  split
  · next h => exact .setCsc (hl := fun _ => Csc.LoadBounded.of_iready h _)
  · exact .after (countCsc_queuesKept _ _) (setFraming_queuesKept s)

/-- A change of the clip at a position in place, with no change of the load. -/
theorem QueuesKept.mapClipAt (s : State) (p : Nat) (f : Clip → Clip) (k : CscCounters) :
    QueuesKept s (s.setCsc { s.csc with directory := mapClipAt s.csc.directory p f, counters := k }) :=
  .setCsc (hd := fun h => h.mapClipAt p f)

theorem closeLoad_queuesKept (s : State) : QueuesKept s (s.setCsc s.csc.closeLoad) := .setCsc (hl := fun _ => .of_none rfl)

theorem faultClip_queuesKept (s : State) (p : Nat) (id : Word32) (w : FaultCause) : QueuesKept s (s.faultClip p id w) :=
  .after (raiseBoth_queuesKept _ _ _ _) (.mapClipAt s p _ _)

theorem stampLoad_queuesKept (s : State) (p : Nat) : QueuesKept s (s.stampLoad p) := .mapClipAt s p _ s.csc.counters

theorem closeStamped_queuesKept (s : State) (p : Nat) : QueuesKept s ((s.setCsc s.csc.closeLoad).stampLoad p) :=
  (closeLoad_queuesKept s).trans (stampLoad_queuesKept _ p)

theorem faultLoad_queuesKept (s : State) (p : Nat) (id : Word32) (w : FaultCause) : QueuesKept s (s.faultLoad p id w) :=
  (closeStamped_queuesKept s p).trans (faultClip_queuesKept _ p id w)

/-- A load opens with an empty buffer on a position that held no clip (R118, R119). -/
theorem startLoad_queuesKept {s : State} {p : Nat} (h : lowestEmpty? s.csc.directory = some p) (c : Clip) (runs : List FreeRun) :
    QueuesKept s (s.startLoad p c runs) := by
  refine .setCsc (hl := fun _ l hl => ?_) (hd := fun b => b.placeClip h c)
  obtain rfl := Option.some.inj (show some _ = some l from hl)
  have := places_le_one s.csc.framing
  show 0 + s.csc.framing.places ≤ 16
  omega

theorem emptyPosition_queuesKept (s : State) (p : Nat) (c : Clip) : QueuesKept s (s.emptyPosition p c) :=
  .setCsc (hd := fun h => h.filter _)

theorem ownOpenLoad_queuesKept (id : Word32) (v : Byte) (n fp : Word32) (s : State) :
    QueuesKept s (ownOpenLoad id v n fp s).state := by
  unfold ownOpenLoad
  split
  · exact .refl s
  · split
    · exact .refl s
    · split
      · exact .refl s
      · next hp =>
        split
        · exact .refl s
        · split
          · exact .refl s
          · exact .owned (startLoad_queuesKept hp _ _)

theorem ownAbortLoad_queuesKept (id : Word32) (s : State) : QueuesKept s (ownAbortLoad id s).state := by
  unfold ownAbortLoad
  split
  · exact .refl s
  · split
    · split
      · exact .owned ((closeLoad_queuesKept s).trans (emptyPosition_queuesKept _ _ _))
      · exact .refl s
    · exact .refl s

theorem ownRetireClip_queuesKept (id : Word32) (s : State) : QueuesKept s (ownRetireClip id s).state := by
  unfold ownRetireClip
  split
  · exact .refl s
  · split
    · exact .refl s
    · split
      · exact .refl s
      · exact .owned (emptyPosition_queuesKept s _ _)

/-- The accepted packet takes the place in the buffer that it held while it was framed (R121, R123). -/
theorem acceptPacket_queuesKept {s : State} {l : LoadContext} (hload : s.csc.load = some l) (hf : s.csc.framing.places = 1)
    (c : Clip) (p : List Byte) : QueuesKept s (s.acceptPacket l c p) := by
  refine .setCsc (hl := fun b m hm => ?_) (hd := fun b => b.mapClipAt l.position (·.accept s.sst.live.map p))
  obtain rfl := Option.some.inj (show some _ = some m from hm)
  have := b l hload
  simp only [LoadContext.accept, List.length_append, List.length_singleton, InsertionFraming.places]
  omega

theorem completeInsertion_queuesKept {s : State} {l : LoadContext} (hload : s.csc.load = some l) (hf : s.csc.framing.places = 1)
    (c : Clip) (p : List Byte) : QueuesKept s (s.completeInsertion l c p) := by
  unfold State.completeInsertion
  split
  · exact .after (countCsc_queuesKept _ _) (setFraming_queuesKept s)
  · exact setFraming_queuesKept s
  · exact faultLoad_queuesKept s _ _ _
  · exact acceptPacket_queuesKept hload hf c p

theorem completeLoad_queuesKept (s : State) (p : Nat) (c : Clip) : QueuesKept s (s.completeLoad p c) := by
  unfold State.completeLoad
  dsimp only
  split
  · exact (closeStamped_queuesKept s p).trans (faultClip_queuesKept _ _ _ _)
  · exact .after (raiseBoth_queuesKept _ _ _ _) (.after (.mapClipAt _ p _ _) (closeStamped_queuesKept s p))

/-- A load write takes the head of the buffer (R124). -/
theorem takeLoadWrite_queuesKept {s : State} {l : LoadContext} {e : LoadEntry} {rest : List LoadEntry}
    (hload : s.csc.load = some l) (hbuffer : l.buffer = e :: rest) (c : Clip) (m : Memory) :
    QueuesKept s (s.takeLoadWrite l c rest m) := by
  unfold State.takeLoadWrite
  have written : ∀ k, QueuesKept s (s.setCsc { s.csc with
      memory := m, marker := k, load := some { l with buffer := rest }
      directory := mapClipAt s.csc.directory l.position (fun x => { x with stored := x.stored + 1 }) }) := fun k => by
    refine .setCsc (hl := fun b x hx => ?_)
      (hd := fun b => b.mapClipAt l.position (fun x => { x with stored := x.stored + 1 }))
    obtain rfl := Option.some.inj (show some _ = some x from hx)
    have := b l hload
    rw [hbuffer, List.length_cons] at this
    show rest.length + s.csc.framing.places ≤ 16
    omega
  exact .ite ((written _).trans (completeLoad_queuesKept _ _ _)) (written _)

theorem takeClipRead_queuesKept (s : State) (n : Word32) (b : Bool) (p : Nat) (c : Clip) (r : ClipReadResult) :
    QueuesKept s (s.takeClipRead n b p c r) := by
  unfold State.takeClipRead
  dsimp only
  split
  · exact .setCsc
  · unfold State.faultyRead
    refine .ite ?_ ?_
    · exact .after (faultClip_queuesKept _ _ _ _) (.after (countCsc_queuesKept _ _) .setCsc)
    · exact .after (countCsc_queuesKept _ _) .setCsc

/-! ## The commands of the Clip Store Controller -/

section
variable {s t : State}

theorem execInsertionShortPacket_queuesKept {b : Byte} (h : execInsertionShortPacket b s = .next t) : QueuesKept s t := by
  refine ifRunning_queuesKept h ?_
  split
  · exact .after (openPacket_queuesKept _ _) (.after (countCsc_queuesKept _ _) (setFraming_queuesKept s))
  · exact .refl s

theorem execInsertionPacketComplete_queuesKept {l : List Byte} (h : execInsertionPacketComplete l s = .next t) :
    QueuesKept s t := by
  refine ifRunning_queuesKept h ?_
  split
  · next hf hl => exact .ite (completeInsertion_queuesKept (load_of_loading hl) (places_of_framing hf) _ _) (.refl s)
  all_goals exact .refl s

theorem execLoadWrite_queuesKept (h : execLoadWrite s = .next t) : QueuesKept s t := by
  refine ifRunning_queuesKept h (.ite ?_ (.refl s))
  split
  · next hl =>
    split
    · next hb => exact takeLoadWrite_queuesKept (load_of_loading hl) hb _ _
    · exact .refl s
  · exact .refl s

theorem execLoadIdleTimeout_queuesKept (h : execLoadIdleTimeout s = .next t) : QueuesKept s t := by
  refine ifRunning_queuesKept h ?_
  split
  · exact .ite (faultLoad_queuesKept s _ _ _) (.refl s)
  · exact .refl s

theorem execClipReadTaken_queuesKept (h : execClipReadTaken s = .next t) : QueuesKept s t := by
  refine ifRunning_queuesKept h (.ite ?_ (.refl s))
  split
  · dsimp only
    split
    · exact .ite (.after (takeClipRead_queuesKept _ _ _ _ _ _) .setCsc) .setCsc
    · exact .setCsc
  all_goals exact .refl s

theorem execClipReadComplete_queuesKept (h : execClipReadComplete s = .next t) : QueuesKept s t := by
  refine ifRunning_queuesKept h ?_
  split
  · exact .ite (.after .setSpe .setCsc) .setCsc
  all_goals exact .refl s

end

/-! ## The Feed Intake (R25 to R40) -/

theorem offerControl_bounded {f : Fiu} (h : f.Bounded) (p : List Byte) (n : Word32) : (f.offerControl p n).Bounded := by
  obtain ⟨handoff, buffer⟩ := h
  unfold Fiu.offerControl
  split
  · next room => exact ⟨(List.length_append ..).trans_le room, buffer⟩
  · exact ⟨handoff, buffer⟩

theorem offerEntry_bounded {f : Fiu} (h : f.Bounded) (e : FeedEntry) : (f.offerEntry e).Bounded := by
  obtain ⟨handoff, buffer⟩ := h
  unfold Fiu.offerEntry
  split
  · next room => exact ⟨handoff, (List.length_append ..).trans_le room⟩
  · exact ⟨handoff, buffer⟩

theorem complete_bounded {f : Fiu} (h : f.Bounded) (x : Settings) (bytes : List Byte) (ferr : Bool) :
    (f.complete x bytes ferr).Bounded := by
  unfold Fiu.complete
  dsimp only
  refine offerEntry_bounded ?_ _
  split
  · exact offerControl_bounded (f := { f with
      framing := .completed, slotCounter := _, gapTimer := _, gapLimit := _, counters := _ }) h _ _
  · exact h

theorem countFiu_queuesKept (s : State) (f : FiuCounters → FiuCounters) : QueuesKept s (s.countFiu f) := .setFiu

theorem setFeed_queuesKept (s : State) (x : FeedState) : QueuesKept s (s.setFeed x) := by
  have noted : QueuesKept s ((s.setFiu { s.fiu with state := x }).raiseSite .feedState .none (.feed x)) :=
    .after (raiseSite_queuesKept _ _ _ _) .setFiu
  have muted : ∀ (u : State) b, QueuesKept u ((u.setEsc { u.esc with feedOutTimer := none }).setMute .feed b) := fun u b =>
    .after (setMute_queuesKept _ _ _) .setEsc
  unfold State.setFeed
  refine .ite (.refl s) (.ite (noted.trans (muted _ _)) (.ite (noted.trans ?_) noted))
  exact .ite (muted _ _) .setEsc

theorem loseFeed_queuesKept (s : State) : QueuesKept s s.loseFeed := .after (setFeed_queuesKept _ _) (countFiu_queuesKept s _)

theorem goodPacket_queuesKept (s : State) : QueuesKept s s.goodPacket := by
  unfold State.goodPacket
  dsimp only
  split
  · exact .after (setFeed_queuesKept _ _) .setFiu
  · exact .ite (.after (setFeed_queuesKept _ _) (.after .setFiu .setFiu)) .setFiu
  · exact .setFiu
  · exact .after (setFeed_queuesKept _ _) .setFiu

theorem badPacket_queuesKept (s : State) : QueuesKept s s.badPacket := by
  unfold State.badPacket
  dsimp only
  split
  · exact .refl s
  · exact .setFiu
  · exact .ite (.after (loseFeed_queuesKept _) .setFiu) .setFiu
  · exact .refl s

section
variable {s t : State}

theorem execFeedPacketOpens_queuesKept {b : Byte} {e : Bool} (h : execFeedPacketOpens b e s = .next t) : QueuesKept s t := by
  refine ifRunning_queuesKept h ?_
  split
  · exact .refl s
  all_goals exact .setFiu

theorem execPacketComplete_queuesKept {l : List Byte} {e : Bool} (h : execPacketComplete l e s = .next t) : QueuesKept s t := by
  refine ifRunning_queuesKept h ?_
  split
  · have completed : ∀ b e, QueuesKept s (s.setFiu (s.fiu.complete s.sst.live b e)) := fun b e =>
      .setFiu fun f => complete_bounded f _ b e
    exact .ite (.ite ((completed _ _).trans (goodPacket_queuesKept _)) ((completed _ _).trans (badPacket_queuesKept _))) (.refl s)
  all_goals exact .refl s

theorem execShortPacket_queuesKept {b : Byte} {e : Bool} (h : execShortPacket b e s = .next t) : QueuesKept s t := by
  refine ifRunning_queuesKept h ?_
  split
  · exact .after (badPacket_queuesKept _) .setFiu
  all_goals exact .refl s

theorem execLongPacket_queuesKept (h : execLongPacket s = .next t) : QueuesKept s t := by
  refine ifRunning_queuesKept h ?_
  split
  · exact .setFiu
  all_goals exact .refl s

theorem execGapExpiry_queuesKept (h : execGapExpiry s = .next t) : QueuesKept s t := by
  refine ifRunning_queuesKept h (.ite ?_ (.refl s))
  dsimp only
  split
  · exact .after (loseFeed_queuesKept _) .setFiu
  · exact .after (setFeed_queuesKept _ _) (.after .setFiu .setFiu)
  all_goals exact .setFiu

theorem execFeedWrite_queuesKept (h : execFeedWrite s = .next t) : QueuesKept s t := by
  refine ifRunning_queuesKept h (.ite ?_ (.refl s))
  split
  · exact .refl s
  · next e rest hb =>
    have taken : QueuesKept s ((s.setFiu { s.fiu with writeBuffer := rest }).setCsc { s.csc with marker := .feed }) := by
      refine .after .setCsc (.setFiu fun f => ⟨f.1, ?_⟩)
      have := f.2
      rw [hb] at this
      exact (Nat.le_succ _).trans this
    dsimp only
    split
    · exact taken.trans (countFiu_queuesKept _ _)
    · exact taken.trans (countFiu_queuesKept _ _)
    · exact taken.trans .setCsc

theorem execTakeControlPacket_queuesKept (h : execTakeControlPacket s = .next t) : QueuesKept s t := by
  refine ifRunning_queuesKept h ?_
  split
  · exact .refl s
  · split
    · exact .refl s
    · next c rest hh =>
      refine .after (.setDdc _) (.setFiu fun f => ⟨?_, f.2⟩)
      have := f.1
      rw [hh] at this
      exact (Nat.le_succ _).trans this

end

end Machine
end Sys2Proof
end

section
/-! PROOFS. Every step keeps queues, map and tables within their places: site time, directives, settings, restarts, the
Management Port and the step itself. -/

set_option Elab.async false

namespace Sys2Proof
namespace Machine

/-! ## The Time Base Unit -/

theorem steerLimit_queuesKept (s : State) : QueuesKept s s.steerLimit := by
  rw [steerLimit_eq]
  exact .ite (.after (raiseSite_queuesKept _ _ _ _) (.setTbu _)) (.setTbu _)

theorem handled_queuesKept (s : State) (u : Tbu) : QueuesKept s (s.handled u) := by
  unfold State.handled
  split
  case h_3 =>
    by_cases h : (phaseError s.tbu.time).natAbs ≤ (s.setTbu u).sst.live.lockWindow
    · rw [lockedPulse_loop _ h]
      exact .after (.setTbu _) (.after (steerLimit_queuesKept _) (.after (.setTbu _) (.setTbu u)))
    · rw [lockedPulse_outlier _ (Nat.lt_of_not_le h)]
      exact .after (.setTbu _) (.after (.setTbu _) (.setTbu u))
  all_goals exact .setTbu _

theorem pulse_queuesKept (s : State) : QueuesKept s s.pulse := by
  by_cases hr : s.refok = true
  · by_cases hu : s.tbu.state = .unset
    · rw [pulse_unset hr hu]
      exact .after (afterTbu_queuesKept _ _) (.after (.of_frame (setTime_frame _ _)) (.setTbu _))
    · by_cases hx : s.tbu.Extra
      · rw [pulse_extra hr hu hx]
        exact .setTbu _
      · rw [pulse_taken hr hu hx]
        exact .after (afterTbu_queuesKept _ _) (handled_queuesKept s _)
  · rw [pulse_ignored (Bool.eq_false_iff.2 hr)]
    exact .setTbu _

/-- A cycle of OSC27 moves timers alone. -/
theorem cycle_queuesKept (s : State) : QueuesKept s s.cycle := by
  refine fun b => ⟨b.fiu, b.anchors, b.table, b.notices, b.map, fun l hl => ?_, b.directory, b.continuity⟩
  obtain ⟨m, hm, rfl⟩ := Option.map_eq_some_iff.1 (show s.csc.load.map _ = some l from hl)
  exact b.load m hm

theorem execSiteSecondBoundary_queuesKept {s t : State} (h : execSiteSecondBoundary s = .next t) : QueuesKept s t :=
  ifRunning_queuesKept h (.ite (.after (afterTbu_queuesKept _ _) (.after (.setTbu _) (cycle_queuesKept s))) (.refl s))

theorem execMissingPulse_queuesKept {s t : State} (h : execMissingPulse s = .next t) : QueuesKept s t :=
  ifRunning_queuesKept h (.ite (.after (afterTbu_queuesKept _ _) (.setTbu _)) (.refl s))

theorem execRefokFall_queuesKept {s t : State} (h : execRefokFall s = .next t) : QueuesKept s t := by
  unfold execRefokFall at h
  split at h
  · refine .after (ifRunning_queuesKept h ?_) (.of_frame (setRefok_frame s false))
    exact .after (afterTbu_queuesKept _ _) (.setTbu _)
  · exact Host.Outcome.next.inj h ▸ .refl s

/-! ## Directives (R69 to R78) -/

theorem countDdc_queuesKept (s : State) (f : DdcCounters → DdcCounters) : QueuesKept s (s.countDdc f) := .setDdc _

theorem onDirective_queuesKept (s : State) (k : Byte → Bool) (f : State → InHand → Directive → State)
    (h : ∀ s i d, QueuesKept s (f s i d)) : QueuesKept s (s.onDirective k f) := by
  unfold State.onDirective
  split
  · split
    · exact .ite (.after (.setDdc _) (h s _ _)) (.refl s)
    · exact .refl s
  · exact .refl s

theorem filterArea_queuesKept (s : State) (x : Byte) {f : State → State} (h : QueuesKept s (f s)) :
    QueuesKept s (s.filterArea x f) := by
  unfold State.filterArea
  exact .ite h (countDdc_queuesKept s _)

theorem reachMark_queuesKept (s : State) (i : InHand) (d : Directive) : QueuesKept s (s.reachMark i d) := by
  unfold State.reachMark
  split
  · exact countDdc_queuesKept s _
  · exact .ite (takeMark_queuesKept s _ _) (countDdc_queuesKept s _)

theorem reachNotice_queuesKept (s : State) (i : InHand) (d : Directive) : QueuesKept s (s.reachNotice i d) := by
  unfold State.reachNotice
  split
  · exact countDdc_queuesKept s _
  · refine filterArea_queuesKept s _ (f := (·.deliverNotice _)) ?_
    unfold State.deliverNotice
    exact .ite (.after (raiseSite_queuesKept _ _ _ _) (countDdc_queuesKept s _)) (takeNotice_queuesKept s _)

theorem reachCancel_queuesKept (s : State) (i : InHand) (d : Directive) : QueuesKept s (s.reachCancel i d) := by
  unfold State.reachCancel
  exact .ite (filterArea_queuesKept s _ (f := (·.takeCancel _)) (takeCancel_queuesKept s _)) (countDdc_queuesKept s _)

theorem reachReturn_queuesKept (s : State) (i : InHand) (d : Directive) : QueuesKept s (s.reachReturn i d) := by
  unfold State.reachReturn
  refine .ite ?_ (countDdc_queuesKept s _)
  split
  · exact filterArea_queuesKept s _ (f := (·.takeReturn _)) (takeReturn_queuesKept s _)
  · exact countDdc_queuesKept s _

theorem reachMute_queuesKept (s : State) (i : InHand) (d : Directive) : QueuesKept s (s.reachMute i d) := by
  unfold State.reachMute
  exact .ite (.ite (setMute_queuesKept s _ _) (countDdc_queuesKept s _)) (countDdc_queuesKept s _)

theorem onDirective_exec_queuesKept {s t : State} {k : Byte → Bool} {f : State → InHand → Directive → State}
    (h : ifRunning s (·.onDirective k f) = .next t) (hf : ∀ s i d, QueuesKept s (f s i d)) : QueuesKept s t :=
  ifRunning_queuesKept (f := (·.onDirective k f)) h (onDirective_queuesKept s k f hf)

/-! ## The schedule -/

theorem execFetchRequest_queuesKept {s t : State} (h : execFetchRequest s = .next t) : QueuesKept s t := by
  refine ifRunning_queuesKept h ?_
  split
  · exact (request_queuesKept s _).trans (examine_queuesKept _ _)
  · exact .refl s

theorem execRingReadTaken_queuesKept {s t : State} (h : execRingReadTaken s = .next t) : QueuesKept s t := by
  refine ifRunning_queuesKept h (.ite ?_ (.refl s))
  split
  · exact .after (refreshFetch_queuesKept _) .setCsc
  all_goals exact .refl s

theorem execRingReadComplete_queuesKept {s t : State} (h : execRingReadComplete s = .next t) : QueuesKept s t := by
  refine ifRunning_queuesKept h ?_
  split
  · dsimp only
    split
    · exact .ite (.after (deliverSlot_queuesKept _ _ _ _) .setCsc) .setCsc
    · exact .setCsc
  all_goals exact .refl s

theorem execSlotEmission_queuesKept {s t : State} (h : execSlotEmission s = .next t) : QueuesKept s t := by
  refine ifRunning_queuesKept h ?_
  split
  · exact emitSlot_queuesKept s _
  all_goals exact .refl s

theorem execFillEmission_queuesKept {s t : State} (h : execFillEmission s = .next t) : QueuesKept s t := by
  refine ifRunning_queuesKept h ?_
  split
  · exact emitFill_queuesKept s _
  all_goals exact .refl s

/-! ## Settings and the stream map (R35, R36, R191 to R195) -/

theorem setLive_queuesKept (s : State) {x : Settings} (b : Bool) (h : s.sst.live.map.length ≤ 32 → x.map.length ≤ 32) :
    QueuesKept s (s.setLive x b) := .setSst h

theorem putOnce_map (x : Settings) (w : WriteOnceSetting) (v : Int) : (x.putOnce w v).map = x.map := by cases w <;> rfl

theorem ownWriteOnce_queuesKept (w : WriteOnceSetting) (v : Word32) (s : State) : QueuesKept s (ownWriteOnce w v s).state := by
  unfold ownWriteOnce
  dsimp only
  split
  · exact .refl s
  · split
    · exact .owned (setLive_queuesKept s _ (by rw [putOnce_map]; exact id))
    · exact .refl s

theorem applySetting_queuesKept (s : State) (o : OperatingSetting) : QueuesKept s (s.applySetting o) := by
  unfold State.applySetting
  split
  case h_1 => exact .after (afterTbu_queuesKept _ _) (.setTbu _)
  case h_2 => exact .setTbu _
  case h_3 => exact .ite (feedOut_queuesKept s) (.refl s)
  all_goals exact .refl s

theorem ownOperating_queuesKept (o : OperatingSetting) (v : Word32) (s : State) : QueuesKept s (ownOperating o v s).state := by
  unfold ownOperating
  split
  · exact .owned (.after (applySetting_queuesKept _ _) (setLive_queuesKept s _ (by rw [put_map]; exact id)))
  · exact .refl s

/-- An edit that passes its checks: only ADD makes the map longer (R36). -/
theorem applyEdit_length_le (map : List MapEntry) (op : EditOp) (n : Nat) (new : Option StreamClass) :
    (applyEdit map op n new).length ≤ map.length + if op = .add then 1 else 0 := by
  unfold applyEdit
  split
  · exact (List.length_append ..).le
  · exact (List.length_map _).le
  · exact (List.length_filter_le ..).trans (Nat.le_add_right ..)
  · exact Nat.le_add_right ..
  · exact Nat.le_add_right ..

theorem editChecked_queuesKept {s : State} {op : EditOp} (h : op = .add → s.sst.live.map.length < 32) (n : Nat)
    (old new : Option StreamClass) : QueuesKept s (s.editChecked op n old new).state := by
  unfold State.editChecked
  split
  · exact .refl s
  · split
    · exact .refl s
    · refine .owned (setLive_queuesKept s _ fun hm => (applyEdit_length_le _ op n new).trans ?_)
      split
      · next hop => exact h hop
      · exact hm

theorem ownMapEdit_queuesKept (op : EditOp) (n : Word16) (c v k : Byte) (s : State) :
    QueuesKept s (ownMapEdit op n c v k s).state := by
  unfold ownMapEdit
  dsimp only
  split
  · exact .refl s
  · split
    · exact .refl s
    · split
      · split
        · exact .refl s
        · split
          · exact .refl s
          · next room =>
            split
            · exact .refl s
            · exact editChecked_queuesKept (fun _ => Nat.lt_of_not_le room) _ _ _
      · split
        · exact .refl s
        · split
          · exact .refl s
          · exact editChecked_queuesKept (op := .change) (fun h => nomatch h) _ _ _
      · split
        · exact .refl s
        · exact editChecked_queuesKept (op := .remove) (fun h => nomatch h) _ _ _

theorem ownSettingsWrite_queuesKept (d : List Byte) (s : State) : QueuesKept s (ownSettingsWrite d s).state := by
  unfold ownSettingsWrite
  dsimp only
  split
  · exact .refl s
  · split
    · exact ownWriteOnce_queuesKept _ _ s
    · exact ownWriteOnce_queuesKept _ _ s
    · exact ownWriteOnce_queuesKept _ _ s
    · exact ownWriteOnce_queuesKept _ _ s
    · split
      · exact .refl s
      · split
        · exact ownOperating_queuesKept _ _ s
        · exact .refl s

theorem ownEditRecord_queuesKept (d : List Byte) (s : State) : QueuesKept s (ownEditRecord d s).state := by
  unfold ownEditRecord
  split
  · exact .refl s
  · split
    · exact ownMapEdit_queuesKept _ _ _ _ _ s
    · exact .refl s

theorem ownSaveSettings_queuesKept (s : State) : QueuesKept s (ownSaveSettings s).state :=
  .owned (.after (updatePort_queuesKept _ _) .setSst)

theorem execSaveComplete_queuesKept {s t : State} (h : execSaveComplete s = .next t) : QueuesKept s t := by
  refine ifRunning_queuesKept h ?_
  split
  · exact .after (updatePort_queuesKept _ _) .setSst
  · exact .refl s

/-! ## Resets and the stream restart (R197 to R199) -/

theorem restartFiu_queuesKept (s : State) : QueuesKept s s.restartFiu :=
  .after (setFeed_queuesKept _ _) (.setFiu fun _ => ⟨Nat.zero_le _, Nat.zero_le _⟩)

theorem restartEsc_queuesKept (s : State) : QueuesKept s s.restartEsc :=
  .after (setMute_queuesKept _ _ _) (.setEsc fun _ => Nat.zero_le _)

theorem restartEntry_queuesKept (s : State) (e : BreakEntry) : QueuesKept s (s.restartEntry e) :=
  .ite (finishBreak_queuesKept s _ _ _) (.ite (fallBack_queuesKept s _ _) (.refl s))

theorem restartSpe_queuesKept (s : State) : QueuesKept s s.restartSpe := by
  have released : ∀ (s : State) v, QueuesKept s (s.releaseAtRestart v) := fun s v => by
    unfold State.releaseAtRestart
    split
    · exact dropSlate_queuesKept s _ _
    · exact .refl s
  exact .after (.setSpe fun _ => ⟨Nat.zero_le _, List.Pairwise.nil⟩) (.foldl _ released Service.all s)

theorem ownStreamRestart_queuesKept (s : State) : QueuesKept s (ownStreamRestart s).state := by
  have noted : QueuesKept s s.noteRestart := .after (raiseBoth_queuesKept _ _ _ _) .setSst
  have fed := noted.trans (restartFiu_queuesKept _)
  have stored : QueuesKept s s.noteRestart.restartFiu.restartCsc := fed.trans .setCsc
  have decoded : QueuesKept s s.noteRestart.restartFiu.restartCsc.restartDdc := stored.trans (.setDdc _)
  have planned : ∀ s, QueuesKept s (State.restartBpu s) := fun s => .foldl _ restartEntry_queuesKept s.bpu.table s
  exact .owned (((decoded.trans (restartEsc_queuesKept _)).trans (planned _)).trans (restartSpe_queuesKept _))

/-- In reset every queue and table is empty (R197). -/
theorem enterReset_queuesKept (s : State) (src : ResetSource) : QueuesKept s (s.enterReset src) := fun _ =>
  { fiu := ⟨Nat.zero_le _, Nat.zero_le _⟩
    anchors := Nat.zero_le _
    table := ⟨Nat.zero_le _, List.nodup_nil⟩
    notices := fun r => by cases r <;> exact Nat.zero_le _
    map := Nat.zero_le _
    load := .of_none rfl
    directory := ⟨List.Pairwise.nil, fun _ h => nomatch h⟩
    continuity := ⟨Nat.zero_le _, List.Pairwise.nil⟩ }

/-- The end of a reset meets the bounds (O60), whatever the packet memory holds. -/
theorem endReset_queuesKept (s : State) (src : ResetSource) (a1 a2 : Bool) : QueuesKept s (s.endReset src a1 a2) := fun _ => by
  obtain ⟨-, -, -, bounded, -⟩ := endReset_meets (s := s.setCsc {}) rfl src a1 a2
  exact (queuesBounded_iff _).1 bounded

/-! ## Through the Management Port (R174 to R182) -/

section
variable (s : State) (r : Role)

theorem takeCommand_queuesKept (k : CommandKind) (args : List Byte) (owner : State → Taken)
    (h : ∀ s, QueuesKept s (owner s).state) : QueuesKept s (s.takeCommand r k args owner) := by
  unfold State.takeCommand
  refine .ite (refuseHeld_queuesKept s r) (.ite (refuseRights_queuesKept s r _) ?_)
  exact .after (record_queuesKept _ _ _ _ _) (.after (h _) (updatePort_queuesKept s r))

theorem takeWrite_queuesKept (o : Nat) (b : Bool) (owner : State → Taken) (h : ∀ s, QueuesKept s (owner s).state) :
    QueuesKept s (s.takeWrite r o b owner) := by
  unfold State.takeWrite
  exact .ite (refuseHeld_queuesKept s r) (.ite (refuseRights_queuesKept s r _) (.after (record_queuesKept _ _ _ _ _) (h s)))

theorem stagingWrite_queuesKept (c : Byte) (d : List Byte) : QueuesKept s (s.stagingWrite r c d) := by
  unfold State.stagingWrite
  exact .after (takeWrite_queuesKept _ r _ _ _ (ownStaging_queuesKept r c d)) (.ite (countPort_queuesKept s r _) (.refl s))

theorem ownDiscard_queuesKept : QueuesKept s (ownDiscard r s).state := .owned (updateStaging_queuesKept s r _)

theorem clearCounters_queuesKept : QueuesKept s s.clearCounters := fun b =>
  ⟨b.fiu, b.anchors, b.table, fun r => by
    cases r
    · exact b.notices .insertion
    · exact b.notices .site, b.map, b.load, b.directory, b.continuity⟩

theorem commandOwner_queuesKept (k : CommandKind) (args : List Byte) : QueuesKept s (commandOwner r k args s).state := by
  cases k with
  | reserve => exact ownReserve_queuesKept r _ s
  | confirm => exact ownConfirm_queuesKept r s
  | discard => exact ownDiscard_queuesKept s r
  | findBreak => exact ownFindBreak_queuesKept _ s
  | openLoad => exact ownOpenLoad_queuesKept _ _ _ _ s
  | abortLoad => exact ownAbortLoad_queuesKept _ s
  | retireClip => exact ownRetireClip_queuesKept _ s
  | clearBooking => exact ownClearBooking_queuesKept _ s
  | forceSlate => exact ownForceSlate_queuesKept _ _ s
  | releaseSlate => exact ownReleaseSlate_queuesKept _ s
  | forceMute => exact setMute_queuesKept s _ _
  | releaseMute => exact setMute_queuesKept s _ _
  | saveSettings => exact ownSaveSettings_queuesKept s
  | streamRestart => exact ownStreamRestart_queuesKept s
  | clearCounters => exact clearCounters_queuesKept s

theorem countOverlong_queuesKept (n : Nat) (d : List Byte) : QueuesKept s (s.countOverlong r n d) :=
  .ite (countPort_queuesKept s r _) (.refl s)

theorem writeCommand_queuesKept (data : List Byte) : QueuesKept s (s.writeCommand r data) := by
  unfold State.writeCommand
  dsimp only
  split
  · exact record_queuesKept s r _ _ _
  · next kind _ =>
    refine (countOverlong_queuesKept s r kind.argBytes (data.drop 1)).trans ?_
    refine .ite (refuseRights_queuesKept _ r _) (.ite (record_queuesKept _ r _ _ _) ?_)
    exact takeCommand_queuesKept _ r _ _ _ fun s => commandOwner_queuesKept s r _ _

theorem writeSiteObject_queuesKept (o n : Nat) (data : List Byte) (owner : List Byte → State → Taken)
    (h : ∀ d s, QueuesKept s (owner d s).state) : QueuesKept s (s.writeSiteObject r o n data owner) := by
  unfold State.writeSiteObject
  exact .after (.ite (refuseRights_queuesKept _ r o) (takeWrite_queuesKept _ r o true _ (h _)))
    (countOverlong_queuesKept s r n data)

theorem writeObject_queuesKept (o : Nat) (data : List Byte) : QueuesKept s (s.writeObject r o data) := by
  unfold State.writeObject
  exact .ite (writeCommand_queuesKept s r data) (.ite (stagingWrite_queuesKept s r _ _)
    (.ite (writeSiteObject_queuesKept s r _ _ data _ ownSettingsWrite_queuesKept)
      (.ite (writeSiteObject_queuesKept s r _ _ data _ ownEditRecord_queuesKept) (record_queuesKept s r _ _ _))))

theorem judgePhase_queuesKept (f : PhaseForm) : QueuesKept s (s.judgePhase r f) := by
  unfold State.judgePhase
  split
  · exact .refl s
  · exact countPort_queuesKept s r _
  · exact .ite (.after (record_queuesKept _ r _ _ _) (countPort_queuesKept s r _)) (countPort_queuesKept s r _)
  · exact .ite (.refl s) (.ite (refuseHeld_queuesKept s r) (writeObject_queuesKept s r _ _))

theorem writePhase_queuesKept (address : BitVec 7) (bytes : List Byte) (byStop : Bool) :
    QueuesKept s (s.writePhase address bytes byStop) := by
  unfold State.writePhase
  split
  · exact .setMgp
  · exact .after .setMgp (judgePhase_queuesKept s _ _)

theorem openRead_queuesKept (o : Nat) : QueuesKept s (s.openRead r o) := by
  have copied : ∀ bytes, QueuesKept s (s.takeCopy bytes) := fun _ => .setMgp
  unfold State.openRead
  exact .ite (.after .setSst (copied _)) (copied _)

/-- A notice head that has been sent whole leaves its queue (R180). -/
theorem endRead_queuesKept (o n : Nat) : QueuesKept s (s.endRead r o n) := by
  refine .ite (updatePort_queuesKept s r fun p h => ?_) (.refl s)
  exact (List.length_drop.trans_le (Nat.sub_le ..)).trans h

end

/-! ## Every command and every step -/

theorem takeCommand_exec_queuesKept {s t : State} {r : Role} {k : CommandKind} {args : List Byte} {owner : State → Taken}
    (h : ifRunning s (·.takeCommand r k args owner) = .next t) (ho : ∀ s, QueuesKept s (owner s).state) : QueuesKept s t :=
  ifRunning_queuesKept (f := (·.takeCommand r k args owner)) h (takeCommand_queuesKept s r k args owner ho)

theorem takeWrite_exec_queuesKept {s t : State} {r : Role} {o : Nat} {b : Bool} {owner : State → Taken}
    (h : ifRunning s (·.takeWrite r o b owner) = .next t) (ho : ∀ s, QueuesKept s (owner s).state) : QueuesKept s t :=
  ifRunning_queuesKept (f := (·.takeWrite r o b owner)) h (takeWrite_queuesKept s r o b owner ho)

theorem exec_queuesKept {c : Instr} {s t : State} (h : exec c s = .next t) : QueuesKept s t := by
  cases c
  case powerOn => exact Host.Outcome.next.inj h ▸ enterReset_queuesKept s .powerOn
  case resetPin => exact Host.Outcome.next.inj h ▸ enterReset_queuesKept s .resetPin
  case resetEnds a1 a2 =>
    change execResetEnds a1 a2 s = .next t at h
    unfold execResetEnds at h
    split at h
    · exact Host.Outcome.next.inj h ▸ endReset_queuesKept s _ a1 a2
    · exact Host.Outcome.next.inj h ▸ .refl s
  case siteSecondBoundary => exact execSiteSecondBoundary_queuesKept h
  case ppsEdge => exact ifRunning_queuesKept h (pulse_queuesKept s)
  case missingPulse => exact execMissingPulse_queuesKept h
  case refokFall => exact execRefokFall_queuesKept h
  case packetComplete l e => exact execPacketComplete_queuesKept h
  case shortPacket b e => exact execShortPacket_queuesKept h
  case longPacket => exact execLongPacket_queuesKept h
  case feedPacketOpens b e => exact execFeedPacketOpens_queuesKept h
  case gapExpiry => exact execGapExpiry_queuesKept h
  case feedOutTimerExpiry => exact ifRunning_queuesKept h (.ite (feedOut_queuesKept s) (.refl s))
  case feedWrite => exact execFeedWrite_queuesKept h
  case takeControlPacket => exact execTakeControlPacket_queuesKept h
  case emissionMark => exact onDirective_exec_queuesKept h reachMark_queuesKept
  case breakNotice => exact onDirective_exec_queuesKept h reachNotice_queuesKept
  case breakCancel => exact onDirective_exec_queuesKept h reachCancel_queuesKept
  case returnNow => exact onDirective_exec_queuesKept h reachReturn_queuesKept
  case siteMute => exact onDirective_exec_queuesKept h reachMute_queuesKept
  case fetchRequest => exact execFetchRequest_queuesKept h
  case ringReadTaken => exact execRingReadTaken_queuesKept h
  case ringReadComplete => exact execRingReadComplete_queuesKept h
  case slotEmission => exact execSlotEmission_queuesKept h
  case fillEmission => exact execFillEmission_queuesKept h
  case drivenPacketEnd => exact ifRunning_queuesKept h (.ite .setEsc (.refl s))
  case armTimeReached n => exact ifRunning_queuesKept (f := (·.reachArm n)) h (reachArm_queuesKept s n)
  case endReached n => exact ifRunning_queuesKept (f := (·.reachEnd n)) h (reachEnd_queuesKept s n)
  case reserve r n => exact takeCommand_exec_queuesKept h (ownReserve_queuesKept r n)
  case confirm r => exact takeCommand_exec_queuesKept h (ownConfirm_queuesKept r)
  case discard r => exact takeCommand_exec_queuesKept h fun s => ownDiscard_queuesKept s r
  case findBreak r n => exact takeCommand_exec_queuesKept h (ownFindBreak_queuesKept n)
  case clearBooking r n => exact takeCommand_exec_queuesKept h (ownClearBooking_queuesKept n)
  case openLoad r id v n fp => exact takeCommand_exec_queuesKept h (ownOpenLoad_queuesKept id v n fp)
  case abortLoad r id => exact takeCommand_exec_queuesKept h (ownAbortLoad_queuesKept id)
  case retireClip r id => exact takeCommand_exec_queuesKept h (ownRetireClip_queuesKept id)
  case forceSlate r v id => exact takeCommand_exec_queuesKept h (ownForceSlate_queuesKept v id)
  case releaseSlate r v => exact takeCommand_exec_queuesKept h (ownReleaseSlate_queuesKept v)
  case forceMute r => exact takeCommand_exec_queuesKept h fun s => setMute_queuesKept s _ _
  case releaseMute r => exact takeCommand_exec_queuesKept h fun s => setMute_queuesKept s _ _
  case saveSettings r => exact takeCommand_exec_queuesKept h ownSaveSettings_queuesKept
  case saveComplete => exact execSaveComplete_queuesKept h
  case streamRestart r => exact takeCommand_exec_queuesKept h ownStreamRestart_queuesKept
  case clearCounters r => exact takeCommand_exec_queuesKept h clearCounters_queuesKept
  case stagingWrite r c d => exact ifRunning_queuesKept (f := (·.stagingWrite r c d)) h (stagingWrite_queuesKept s r c d)
  case streamMapAdd r n c v k => exact takeWrite_exec_queuesKept h (ownMapEdit_queuesKept .add n c v k)
  case streamMapChange r n c v k => exact takeWrite_exec_queuesKept h (ownMapEdit_queuesKept .change n c v k)
  case streamMapRemove r n c v k => exact takeWrite_exec_queuesKept h (ownMapEdit_queuesKept .remove n c v k)
  case writeOnceSettingWrite r w v => exact takeWrite_exec_queuesKept h (ownWriteOnce_queuesKept w v)
  case operatingSettingWrite r o v => exact takeWrite_exec_queuesKept h (ownOperating_queuesKept o v)
  case writePhase a b e => exact ifRunning_queuesKept (f := (·.writePhase a b e)) h (writePhase_queuesKept s a b e)
  case noticeHeadRead r n =>
    exact ifRunning_queuesKept (f := fun s => (s.openRead r noticeHeadObject).endRead r noticeHeadObject n) h
      ((openRead_queuesKept s r _).trans (endRead_queuesKept _ r _ n))
  case resetCauseRead r => exact ifRunning_queuesKept (f := (·.openRead r resetCauseObject)) h (openRead_queuesKept s r _)
  case packetAdmitted b => exact ifRunning_queuesKept h (.ite (openPacket_queuesKept s b) (.refl s))
  case insertionPacketRefused => exact ifRunning_queuesKept h (.ite (openPacket_queuesKept s 0) (.refl s))
  case insertionShortPacket b => exact execInsertionShortPacket_queuesKept h
  case insertionLongPacket =>
    exact ifRunning_queuesKept h (.ite (.after (countCsc_queuesKept _ _) (setFraming_queuesKept s)) (.refl s))
  case insertionPacketComplete l => exact execInsertionPacketComplete_queuesKept h
  case loadWrite => exact execLoadWrite_queuesKept h
  case loadIdleTimeout => exact execLoadIdleTimeout_queuesKept h
  case clipReadTaken => exact execClipReadTaken_queuesKept h
  case clipReadComplete => exact execClipReadComplete_queuesKept h
  all_goals exact .of_frame (exec_frame h) (by simp [touchedParts])

theorem setPending_queuesKept (s : State) (x : List Instr) : QueuesKept s (s.setPending x) := fun b => { b with }

theorem setChoices_queuesKept (s : State) (x : Nat) : QueuesKept s (s.setChoices x) := fun b => { b with }

theorem advance_queuesKept (s : State) : QueuesKept s s.advance :=
  .ite (setPending_queuesKept s _) (.after (.setTbu _) (cycle_queuesKept s))

theorem idle_queuesKept (s : State) : QueuesKept s s.idle := by
  unfold State.idle
  split
  · exact .refl s
  · unfold State.run
    split
    · exact setPending_queuesKept s _
    · split
      · exact advance_queuesKept s
      · split
        · exact .after (setChoices_queuesKept _ _) (setPending_queuesKept s _)
        · exact .after (advance_queuesKept _) (setChoices_queuesKept s _)

theorem step_queuesKept {s t : State} (h : step s = .next t) : QueuesKept s t := by
  unfold step at h
  split at h
  · exact .after (exec_queuesKept h) (setPending_queuesKept s _)
  · exact Host.Outcome.next.inj h ▸ idle_queuesKept s

/-- Settles O56: every command and every idle cycle keeps the bounds (`step_queuesKept`). The continuity table stays within
its places because the map, within its own, has no room for 33 SERVICE streams (`exists_not_service`). -/
theorem stepKeepsQueuesBounded : Obligations.StepKeepsQueuesBounded := by
  intro s t hs h
  rw [queuesBounded_iff] at hs ⊢
  exact step_queuesKept h hs

end Machine
end Sys2Proof
end

section
/-! PROOFS. The Feed Intake: framing (R25 to R28), a completed packet (R26, R32 to R34, R39), the feed state and its timers
(R29 to R31, R58). -/

set_option Elab.async false

namespace Sys2Proof
namespace Machine

/-! ## A change of the feed state (R29, R31, R58) -/

/-- The feed state changed with its notice, before the carrier follows it (R31). -/
def State.feedNoted (s : State) (x : FeedState) : State :=
  (s.setFiu { s.fiu with state := x }).raiseSite .feedState .none (.feed x)

theorem feedNoted_raised (s : State) (x : FeedState) : Raised s (s.feedNoted x) .site [noticeAt s .feedState .none (.feed x)] :=
  raiseSite_raised (s.setFiu { s.fiu with state := x }) .feedState .none (.feed x)

theorem feedNoted_onlyNotifies (s : State) (x : FeedState) : OnlyNotifies s (s.feedNoted x) :=
  (OnlyNotifies.of_mgp rfl).trans (raiseSite_onlyNotifies (s.setFiu { s.fiu with state := x }) _ _ _)

theorem setFeed_same {s : State} {x : FeedState} (h : s.fiu.state = x) : s.setFeed x = s := if_pos h

/-- Entry to ON stops the feed-out timer and clears FEED (R58). -/
theorem setFeed_on {s : State} (h : s.fiu.state ≠ .on) : s.setFeed .on =
    ((s.feedNoted .on).setEsc { s.esc with feedOutTimer := none }).setMute .feed false := by
  unfold State.setFeed
  rw [if_neg h]
  rfl

/-- Exit from ON starts the feed-out timer (R58). -/
theorem setFeed_exit {s : State} {x : FeedState} (h : s.fiu.state = .on) (hx : x ≠ .on) :
    s.setFeed x = (s.feedNoted x).startFeedOut := by
  unfold State.setFeed
  dsimp only
  rw [if_neg (fun e => hx (e.symm.trans h)), if_neg hx, if_pos h]
  rfl

theorem setFeed_outside {s : State} {x : FeedState} (h : s.fiu.state ≠ x) (hs : s.fiu.state ≠ .on) (hx : x ≠ .on) :
    s.setFeed x = s.feedNoted x := by
  unfold State.setFeed
  dsimp only
  rw [if_neg h, if_neg hx, if_neg hs]
  rfl

theorem startFeedOut_delayed {s : State} (h : s.sst.live.feedMuteDelay ≠ 0) :
    s.startFeedOut = s.setEsc { s.esc with feedOutTimer := some 0 } := if_neg h

theorem startFeedOut_atOnce {s : State} (h : s.sst.live.feedMuteDelay = 0) : s.startFeedOut = s.feedOut := if_pos h

theorem startFeedOut_onlyNotifies (s : State) : OnlyNotifies s s.startFeedOut := by
  by_cases h : s.sst.live.feedMuteDelay = 0
  · rw [startFeedOut_atOnce h]
    exact (OnlyNotifies.of_mgp rfl).trans (setMute_onlyNotifies _ _ _)
  · rw [startFeedOut_delayed h]
    exact .of_mgp rfl

theorem setFeed_onlyNotifies (s : State) (x : FeedState) : OnlyNotifies s (s.setFeed x) := by
  by_cases hsame : s.fiu.state = x
  · rw [setFeed_same hsame]
    exact .refl s
  · by_cases hx : x = .on
    · subst hx
      rw [setFeed_on hsame]
      exact (feedNoted_onlyNotifies s _).trans ((OnlyNotifies.of_mgp rfl).trans (setMute_onlyNotifies _ _ _))
    · by_cases hs : s.fiu.state = .on
      · rw [setFeed_exit hs hx]
        exact (feedNoted_onlyNotifies s _).trans (startFeedOut_onlyNotifies _)
      · rw [setFeed_outside hsame hs hx]
        exact feedNoted_onlyNotifies s _

/-- A change of the feed state changes nothing else of the Feed Intake. -/
theorem setFeed_fiu (s : State) (x : FeedState) : (s.setFeed x).fiu = { s.fiu with state := x } := by
  by_cases hsame : s.fiu.state = x
  · subst hsame
    rw [setFeed_same rfl]
  · by_cases hx : x = .on
    · subst hx
      rw [setFeed_on hsame, State.setMute_fiu]
      rfl
    · by_cases hs : s.fiu.state = .on
      · rw [setFeed_exit hs hx]
        exact startFeedOut_frame _ .fiu (by decide)
      · rw [setFeed_outside hsame hs hx]
        rfl

/-! ## The feed lost (R29, R58) -/

theorem loseFeed_onlyNotifies (s : State) : OnlyNotifies s s.loseFeed :=
  (OnlyNotifies.of_mgp rfl).trans (setFeed_onlyNotifies _ _)

theorem loseFeed_fiu (s : State) : s.loseFeed.fiu = { s.fiu with
    state := .lost, counters := { s.fiu.counters with feedLosses := bump s.fiu.counters.feedLosses } } := setFeed_fiu _ _

/-- The loss counted and noticed, before the feed-out timer (R29, R31). -/
def State.lossNoted (s : State) : State :=
  (s.countFiu (fun c => { c with feedLosses := bump c.feedLosses })).feedNoted .lost

theorem lossNoted_raised (s : State) : Raised s s.lossNoted .site [noticeAt s .feedState .none (.feed .lost)] :=
  feedNoted_raised (s.countFiu _) .lost

theorem loseFeed_eq {s : State} (h : s.fiu.state = .on) : s.loseFeed = s.lossNoted.startFeedOut :=
  setFeed_exit (s := s.countFiu _) h (by decide)

/-- With a feed mute delay the timer starts and no reason is set (R58). -/
theorem loseFeed_delayed {s : State} (h : s.fiu.state = .on) (hd : s.sst.live.feedMuteDelay ≠ 0) :
    s.loseFeed.esc = { s.esc with feedOutTimer := some 0 }
      ∧ Raised s s.loseFeed .site [noticeAt s .feedState .none (.feed .lost)] := by
  rw [loseFeed_eq h, startFeedOut_delayed (s := s.lossNoted) hd]
  exact ⟨rfl, lossNoted_raised s⟩

/-- With a delay of 0 FEED is set at once, its CARRIER-STATE behind FEED-STATE (R58; log 15). -/
theorem loseFeed_atOnce {s : State} (hc : s.CarrierConsistent) (h : s.fiu.state = .on) (hd : s.sst.live.feedMuteDelay = 0) :
    s.loseFeed.esc.feedOutTimer = none ∧ MuteTaken s s.loseFeed .feed true
      ∧ Raised s s.loseFeed .site (noticeAt s .feedState .none (.feed .lost) :: assertNotice s s.loseFeed) := by
  rw [loseFeed_eq h, startFeedOut_atOnce (s := s.lossNoted) hd]
  obtain ⟨muted, stopped, raised⟩ := feedOut_effect (s := s.lossNoted) hc
  exact ⟨stopped, muted, (lossNoted_raised s).append raised⟩

/-! ## A packet counts toward the feed state (R29) -/

section
variable {s : State}

theorem goodPacket_starts (h : s.fiu.state = .absent ∨ s.fiu.state = .lost) :
    s.goodPacket = (s.setFiu { s.fiu with goodRun := 1 }).feedNoted .syncing := by
  have entered : s.goodPacket = (s.setFiu { s.fiu with goodRun := 1 }).setFeed .syncing := by
    unfold State.goodPacket
    rcases h with h | h <;> rw [h]
  have ne : ∀ x, x = .syncing ∨ x = .on → s.fiu.state ≠ x := by
    rintro x (rfl | rfl) <;> rcases h with h | h <;> rw [h] <;> decide
  exact entered.trans (setFeed_outside (ne _ (.inl rfl)) (ne _ (.inr rfl)) (by decide))

theorem goodPacket_counts (h : s.fiu.state = .syncing) (hn : s.fiu.goodRun + 1 < 8) :
    s.goodPacket = s.setFiu { s.fiu with goodRun := s.fiu.goodRun + 1 } := by
  unfold State.goodPacket
  rw [h]
  exact if_neg (Nat.not_le.2 hn)

theorem goodPacket_enters (h : s.fiu.state = .syncing) (hn : 8 ≤ s.fiu.goodRun + 1) :
    s.goodPacket = (s.setFiu { s.fiu with goodRun := s.fiu.goodRun + 1, badRun := 0 }).setFeed .on := by
  unfold State.goodPacket
  rw [h]
  exact if_pos hn

theorem goodPacket_stays (h : s.fiu.state = .on) : s.goodPacket = s.setFiu { s.fiu with badRun := 0 } := by
  unfold State.goodPacket
  rw [h]

theorem badPacket_ignored (h : s.fiu.state = .absent ∨ s.fiu.state = .lost) : s.badPacket = s := by
  unfold State.badPacket
  rcases h with h | h <;> rw [h]

theorem badPacket_restarts (h : s.fiu.state = .syncing) : s.badPacket = s.setFiu { s.fiu with goodRun := 0 } := by
  unfold State.badPacket
  rw [h]

theorem badPacket_counts (h : s.fiu.state = .on) (hn : s.fiu.badRun + 1 < 4) :
    s.badPacket = s.setFiu { s.fiu with badRun := s.fiu.badRun + 1 } := by
  unfold State.badPacket
  rw [h]
  exact if_neg (Nat.not_le.2 hn)

theorem badPacket_loses (h : s.fiu.state = .on) (hn : 4 ≤ s.fiu.badRun + 1) :
    s.badPacket = (s.setFiu { s.fiu with badRun := s.fiu.badRun + 1 }).loseFeed := by
  unfold State.badPacket
  rw [h]
  exact if_pos hn

end

/-- What a good packet leaves of the Feed Intake: all but the feed state and its two runs. -/
theorem goodPacket_fiu (s : State) : ∃ x g b, s.goodPacket.fiu = { s.fiu with state := x, goodRun := g, badRun := b } := by
  unfold State.goodPacket
  dsimp only
  split
  · exact ⟨_, _, _, setFeed_fiu _ _⟩
  · split
    · exact ⟨_, _, _, setFeed_fiu _ _⟩
    · exact ⟨_, _, _, rfl⟩
  · exact ⟨_, _, _, rfl⟩
  · exact ⟨_, _, _, setFeed_fiu _ _⟩

/-- What a bad or short packet leaves of the Feed Intake: all but the feed state, its two runs and the losses. -/
theorem badPacket_fiu (s : State) : ∃ x g b n, s.badPacket.fiu = { s.fiu with
    state := x, goodRun := g, badRun := b, counters := { s.fiu.counters with feedLosses := n } } := by
  unfold State.badPacket
  dsimp only
  split
  · exact ⟨_, _, _, _, rfl⟩
  · exact ⟨_, _, _, _, rfl⟩
  · split
    · exact ⟨_, _, _, _, loseFeed_fiu _⟩
    · exact ⟨_, _, _, _, rfl⟩
  · exact ⟨_, _, _, _, rfl⟩

theorem goodPacket_onlyNotifies (s : State) : OnlyNotifies s s.goodPacket := by
  have entered : ∀ f x, OnlyNotifies s ((s.setFiu f).setFeed x) := fun f x => (OnlyNotifies.of_mgp rfl).trans
    (setFeed_onlyNotifies (s.setFiu f) x)
  unfold State.goodPacket
  dsimp only
  split
  · exact entered _ _
  · split
    · exact entered _ _
    · exact .of_mgp rfl
  · exact .of_mgp rfl
  · exact entered _ _

theorem badPacket_onlyNotifies (s : State) : OnlyNotifies s s.badPacket := by
  unfold State.badPacket
  dsimp only
  split
  · exact .refl s
  · exact .of_mgp rfl
  · split
    · exact (OnlyNotifies.of_mgp rfl).trans (loseFeed_onlyNotifies (s.setFiu _))
    · exact .of_mgp rfl
  · exact .refl s

/-! ## Framing (R25, R27, R28) -/

theorem exec_feedPacketOpens {s : State} (hr : s.Running) (h : ∀ bytes g, s.fiu.framing ≠ .opened bytes g) (b : Byte) (f : Bool) :
    exec (.feedPacketOpens b f) s = .next (s.setFiu { s.fiu with framing := .opened [b] f }) := by
  change execFeedPacketOpens b f s = _
  unfold execFeedPacketOpens
  rw [ifRunning_of_running hr]
  congr 1
  split
  · next hf => exact absurd hf (h _ _)
  all_goals rfl

/-- The open packet discarded and counted, with the next one opened by its first byte (R27). -/
def State.cutShort (s : State) (b : Byte) (f : Bool) : State := s.setFiu { s.fiu with
  framing := .opened [b] f
  counters := { s.fiu.counters with shortPackets := bump s.fiu.counters.shortPackets } }

theorem exec_shortPacket {s : State} (hr : s.Running) {bytes : List Byte} {g : Bool} (h : s.fiu.framing = .opened bytes g)
    (b : Byte) (f : Bool) : exec (.shortPacket b f) s = .next (s.cutShort b f).badPacket := by
  change execShortPacket b f s = _
  unfold execShortPacket
  rw [ifRunning_of_running hr, h]
  rfl

/-- Settles O14: a short packet is one more bad packet of the state with the next packet open. -/
theorem feedPacketOpensAndShort : Obligations.FeedPacketOpensAndShort := by
  refine fun s b f hr => ⟨fun h => exec_feedPacketOpens hr h b f, fun bytes g h => ⟨_, exec_shortPacket hr h b f, ?_⟩⟩
  obtain ⟨x, good, bad, losses, hfiu⟩ := badPacket_fiu (s.cutShort b f)
  have frame : OnlyChanges [.fiu, .esc, .mgp] s (s.cutShort b f).badPacket := (setFiu_frame s _).seq (badPacket_frame _)
  have notifies : OnlyNotifies s (s.cutShort b f).badPacket :=
    (OnlyNotifies.of_mgp rfl).trans (badPacket_onlyNotifies (s.cutShort b f))
  refine ⟨?_, ?_, ?_, ?_, ?_, ?_, ?_, fun hs => ?_, fun hs => ?_, fun hs hn => ?_, fun hs hn => ?_, fun hs => ?_, frame, notifies⟩
  · rw [hfiu]; rfl
  · rw [hfiu]; rfl
  · rw [hfiu]; rfl
  · rw [hfiu]; rfl
  · rw [hfiu]; rfl
  · rw [hfiu]; rfl
  · rw [hfiu]; rfl
  · rw [badPacket_ignored (s := s.cutShort b f) hs]; rfl
  · rw [badPacket_restarts (s := s.cutShort b f) hs]; exact ⟨hs, rfl⟩
  · rw [badPacket_counts (s := s.cutShort b f) hs hn]; exact ⟨hs, rfl⟩
  · rw [badPacket_loses (s := s.cutShort b f) hs hn, loseFeed_fiu]; exact ⟨rfl, rfl⟩
  · cases hx : s.fiu.state with
    | on => exact absurd hx hs
    | syncing => rw [badPacket_restarts (s := s.cutShort b f) hx]; exact ⟨rfl, rfl⟩
    | absent => rw [badPacket_ignored (s := s.cutShort b f) (.inl hx)]; exact ⟨rfl, rfl⟩
    | lost => rw [badPacket_ignored (s := s.cutShort b f) (.inr hx)]; exact ⟨rfl, rfl⟩

/-- Settles O15: the framing record tells the first excess byte from the further ones. -/
theorem excessBytesCountOnce : Obligations.ExcessBytesCountOnce := by
  intro s hr
  refine ⟨fun h => ?_, fun h => ?_⟩
  all_goals
    change execLongPacket s = _
    unfold execLongPacket
    rw [ifRunning_of_running hr, h]

/-! ## A completed packet (R26, R32 to R34, R39) -/

/-- The Feed Intake after a completion, field by field: `v` is the packet's verdict. -/
theorem Fiu.complete_eq (f : Fiu) (x : Settings) {bytes packet : List Byte} {ferr : Bool} {v : Verdict}
    (hp : packet = heldPacket bytes ferr) (hv : v = classify x.map packet) : f.complete x bytes ferr = { f with
      framing := .completed
      slotCounter := f.slotCounter + 1
      gapTimer := some 0
      gapLimit := x.feedGapTicks
      handoff := if v = .control ∧ f.handoff.length < 4 then f.handoff ++ [⟨packet, f.slotCounter⟩] else f.handoff
      writeBuffer := if f.writeBuffer.length < 16 then f.writeBuffer ++ [feedEntry f.slotCounter packet v] else f.writeBuffer
      counters := { f.counters.judged v ferr with
        handoffLosses := if v = .control ∧ 4 ≤ f.handoff.length then bump (f.counters.judged v ferr).handoffLosses
          else (f.counters.judged v ferr).handoffLosses
        intakeOverruns := if f.writeBuffer.length < 16 then (f.counters.judged v ferr).intakeOverruns
          else bump (f.counters.judged v ferr).intakeOverruns } } := by
  subst hp hv
  unfold Fiu.complete
  dsimp only
  generalize classify x.map (heldPacket bytes ferr) = v
  unfold Fiu.offerEntry Fiu.offerControl
  simp only [Config.handoffPlaces, Config.bufferPlaces]
  by_cases hc : v = .control
  · by_cases hh : f.handoff.length < 4
    · by_cases hw : f.writeBuffer.length < 16 <;> simp [hc, hh, hw, Nat.not_le.2 hh]
    · by_cases hw : f.writeBuffer.length < 16 <;> simp [hc, hh, hw, Nat.le_of_not_lt hh]
  · by_cases hw : f.writeBuffer.length < 16 <;> simp [hc, hw]

/-- The counters that a verdict moves, and the two that it leaves (R42). -/
theorem FiuCounters.judged_fields (c : FiuCounters) (v : Verdict) (ferr : Bool) :
    (c.judged v ferr).handoffLosses = c.handoffLosses ∧ (c.judged v ferr).intakeOverruns = c.intakeOverruns
      ∧ (c.judged v ferr).feedLosses = c.feedLosses
      ∧ (v = .bad → (c.judged v ferr).badPackets = bump c.badPackets)
      ∧ (v = .drop → (c.judged v ferr).droppedPackets = bump c.droppedPackets)
      ∧ (v ≠ .bad → ferr = true → (c.judged v ferr).erroredPackets = bump c.erroredPackets) := by
  cases v <;> simp +contextual [FiuCounters.judged]

/-- The packet of a state completed at the Feed Intake, before it counts toward the feed state. -/
def State.completed (s : State) (bytes : List Byte) (ferr : Bool) : State := s.setFiu (s.fiu.complete s.sst.live bytes ferr)

/-- A completion does not touch what the feed state is judged by. -/
theorem completed_feed (s : State) (bytes : List Byte) (ferr : Bool) : (s.completed bytes ferr).fiu.state = s.fiu.state
    ∧ (s.completed bytes ferr).fiu.goodRun = s.fiu.goodRun ∧ (s.completed bytes ferr).fiu.badRun = s.fiu.badRun
    ∧ (s.completed bytes ferr).fiu.counters.feedLosses = s.fiu.counters.feedLosses := by
  unfold State.completed
  rw [State.setFiu_fiu, Fiu.complete_eq s.fiu s.sst.live rfl rfl]
  obtain ⟨-, -, losses, -⟩ := s.fiu.counters.judged_fields (classify s.sst.live.map (heldPacket bytes ferr)) ferr
  exact ⟨rfl, rfl, rfl, losses⟩

section
variable {s : State} (hr : s.Running) {head rest : List Byte} {f0 : Bool} (ho : s.fiu.framing = .opened head f0)
  (hlen : (head ++ rest).length = 188)
include hr ho hlen

theorem exec_packetComplete_judged (f : Bool) : exec (.packetComplete rest f) s = .next
    (if goodFirstByte (head ++ rest) then (s.completed (head ++ rest) (f0 || f)).goodPacket
      else (s.completed (head ++ rest) (f0 || f)).badPacket) := by
  change execPacketComplete rest f s = _
  unfold execPacketComplete
  rw [ifRunning_of_running hr, ho]
  exact congrArg _ (if_pos hlen)

theorem exec_packetComplete_good (f : Bool) (h : byteAt (head ++ rest) 1 = 0x47#8) :
    exec (.packetComplete rest f) s = .next (s.completed (head ++ rest) (f0 || f)).goodPacket := by
  rw [exec_packetComplete_judged hr ho hlen]
  exact congrArg _ (if_pos (beq_iff_eq.2 h))

theorem exec_packetComplete_bad (f : Bool) (h : byteAt (head ++ rest) 1 ≠ 0x47#8) :
    exec (.packetComplete rest f) s = .next (s.completed (head ++ rest) (f0 || f)).badPacket := by
  rw [exec_packetComplete_judged hr ho hlen]
  exact congrArg _ (if_neg (fun e => h (beq_iff_eq.1 e)))

/-- Good or bad, a completed packet leaves the Feed Intake as the completion made it but for the feed state. -/
theorem exec_packetComplete (f : Bool) : ∃ t x g b n, exec (.packetComplete rest f) s = .next t
    ∧ t.fiu = { (s.completed (head ++ rest) (f0 || f)).fiu with
        state := x, goodRun := g, badRun := b
        counters := { (s.completed (head ++ rest) (f0 || f)).fiu.counters with feedLosses := n } }
    ∧ OnlyNotifies s t := by
  have same : OnlyNotifies s (s.completed (head ++ rest) (f0 || f)) := .of_mgp rfl
  by_cases h : byteAt (head ++ rest) 1 = 0x47#8
  · obtain ⟨x, g, b, hfiu⟩ := goodPacket_fiu (s.completed (head ++ rest) (f0 || f))
    exact ⟨_, x, g, b, _, exec_packetComplete_good hr ho hlen f h, hfiu, same.trans (goodPacket_onlyNotifies _)⟩
  · obtain ⟨x, g, b, n, hfiu⟩ := badPacket_fiu (s.completed (head ++ rest) (f0 || f))
    exact ⟨_, x, g, b, n, exec_packetComplete_bad hr ho hlen f h, hfiu, same.trans (badPacket_onlyNotifies _)⟩

end

/-- Settles O16: the Feed Intake after the completion (`Fiu.complete_eq`), of which the feed state touches nothing more. -/
theorem packetCompletes : Obligations.PacketCompletes := by
  intro s head rest packet f0 f v hr ho hlen hp hv
  obtain ⟨t, x, g, b, n, hexec, hfiu, notifies⟩ := exec_packetComplete hr ho hlen f
  have frame : OnlyChanges [.fiu, .esc, .mgp] s t := exec_frame hexec
  obtain ⟨losses, overruns, -, bad, dropped, errored⟩ := s.fiu.counters.judged_fields v (f0 || f)
  unfold State.completed at hfiu
  rw [State.setFiu_fiu, Fiu.complete_eq s.fiu s.sst.live hp hv] at hfiu
  refine ⟨t, hexec, ?_, ?_, ?_, ?_, fun hw => ?_, fun hw => ?_, fun hc hh => ?_, fun hc hh => ?_, fun hc => ?_, fun hb => ?_,
    fun hd => ?_, fun hb he => ?_, frame, notifies⟩
  all_goals rw [hfiu]
  · rfl
  · dsimp only
    rw [if_pos hw, if_pos hw]
    exact ⟨rfl, overruns⟩
  · dsimp only
    rw [if_neg (Nat.not_lt.2 hw), if_neg (Nat.not_lt.2 hw), overruns]
    exact ⟨rfl, rfl⟩
  · exact if_pos ⟨hc, hh⟩
  · dsimp only
    rw [if_neg (fun h => Nat.not_lt.2 hh h.2), if_pos ⟨hc, hh⟩, losses]
    exact ⟨rfl, rfl⟩
  · dsimp only
    rw [if_neg (fun h => hc h.1), if_neg (fun h => hc h.1)]
    exact ⟨rfl, losses⟩
  · exact bad hb
  · exact dropped hd
  · exact errored hb he

/-! ## Packets and the feed state (R29, R31, R58) -/

theorem MuteReasons.any_put_false {m : MuteReasons} (h : m.any = false) (r : MuteReason) : (m.put r false).any = false := by
  cases r <;> simp_all [MuteReasons.any, MuteReasons.put]

/-- Clearing a reason asserts nothing: while CARINH is released there is no reason to begin with (R60). -/
theorem assertNotice_clear {s : State} (hc : s.CarrierConsistent) (r : MuteReason) : assertNotice s (s.setMute r false) = [] := by
  refine if_neg (fun ⟨hreleased, hany⟩ => ?_)
  obtain ⟨hmute, -, -⟩ := setMute_taken s r false hc
  obtain ⟨-, -, hasserted, -⟩ := hc
  have none : s.esc.mute.any = false := by
    rw [← Bool.not_eq_true, ← hasserted, hreleased]
    decide
  rw [hmute, MuteReasons.any_put_false none] at hany
  cases hany

/-- Entry to ON: the carrier and the notice (R31, R58). -/
theorem setFeed_on_effect {s : State} (hc : s.CarrierConsistent) (h : s.fiu.state ≠ .on) :
    (s.setFeed .on).esc.feedOutTimer = none ∧ MuteTaken s (s.setFeed .on) .feed false
      ∧ Raised s (s.setFeed .on) .site [noticeAt s .feedState .none (.feed .on)] := by
  rw [setFeed_on h]
  have hcc : ((s.feedNoted .on).setEsc { s.esc with feedOutTimer := none }).CarrierConsistent := hc
  have raised := setMute_raised _ .feed false hcc
  rw [assertNotice_clear hcc] at raised
  refine ⟨?_, setMute_taken _ .feed false hcc, (feedNoted_raised s .on).append raised⟩
  rw [setMute_esc]
  rfl

/-- A feed mute reason is there exactly as it was put. -/
theorem MuteTaken.feed {s t : State} {b : Bool} (h : MuteTaken s t .feed b) : t.esc.mute.feed = b := by
  rw [h.1]
  rfl

section
variable {s : State} (f : Fiu) (hc : s.CarrierConsistent)
include hc

/-- The good packet of a state whose Feed Intake has become `f` (R29, R31, R58). -/
theorem goodPacket_moves {t : State} (ht : t = (s.setFiu f).goodPacket) :
    (f.state = .absent ∨ f.state = .lost → t.fiu.state = .syncing ∧ t.fiu.goodRun = 1 ∧ t.esc = s.esc
      ∧ Raised s t .site [noticeAt s .feedState .none (.feed .syncing)])
    ∧ (f.state = .syncing → f.goodRun + 1 < 8 →
      t.fiu.state = .syncing ∧ t.fiu.goodRun = f.goodRun + 1 ∧ t.esc = s.esc ∧ t.mgp = s.mgp)
    ∧ (f.state = .syncing → 8 ≤ f.goodRun + 1 → t.fiu.state = .on ∧ t.fiu.badRun = 0 ∧ t.esc.feedOutTimer = none
      ∧ t.esc.mute.feed = false ∧ MuteTaken s t .feed false ∧ Raised s t .site [noticeAt s .feedState .none (.feed .on)])
    ∧ (f.state = .on → t.fiu.state = .on ∧ t.fiu.badRun = 0 ∧ t.esc = s.esc ∧ t.mgp = s.mgp) := by
  subst ht
  refine ⟨fun hs => ?_, fun hs hn => ?_, fun hs hn => ?_, fun hs => ?_⟩
  · rw [goodPacket_starts (s := s.setFiu f) hs]
    exact ⟨rfl, rfl, rfl, feedNoted_raised _ .syncing⟩
  · rw [goodPacket_counts (s := s.setFiu f) hs hn]
    exact ⟨hs, rfl, rfl, rfl⟩
  · rw [goodPacket_enters (s := s.setFiu f) hs hn]
    obtain ⟨htimer, hmute, hraised⟩ := setFeed_on_effect
      (s := s.setFiu { f with goodRun := f.goodRun + 1, badRun := 0 }) hc (fun e => by cases hs.symm.trans e)
    exact ⟨congrArg Fiu.state (setFeed_fiu _ _), congrArg Fiu.badRun (setFeed_fiu _ _), htimer, hmute.feed, hmute, hraised⟩
  · rw [goodPacket_stays (s := s.setFiu f) hs]
    exact ⟨hs, rfl, rfl, rfl⟩

/-- The bad packet of a state whose Feed Intake has become `f` (R29, R31, R58). -/
theorem badPacket_moves {t : State} (ht : t = (s.setFiu f).badPacket) :
    (f.state = .absent ∨ f.state = .lost → t.fiu.state = f.state ∧ t.esc = s.esc ∧ t.mgp = s.mgp)
    ∧ (f.state = .syncing → t.fiu.state = .syncing ∧ t.fiu.goodRun = 0 ∧ t.esc = s.esc ∧ t.mgp = s.mgp)
    ∧ (f.state = .on → f.badRun + 1 < 4 →
      t.fiu.state = .on ∧ t.fiu.badRun = f.badRun + 1 ∧ t.esc = s.esc ∧ t.mgp = s.mgp)
    ∧ (f.state = .on → 4 ≤ f.badRun + 1 → t.fiu.state = .lost ∧ t.fiu.counters.feedLosses = bump f.counters.feedLosses
      ∧ (s.sst.live.feedMuteDelay ≠ 0 → t.esc = { s.esc with feedOutTimer := some 0 }
          ∧ Raised s t .site [noticeAt s .feedState .none (.feed .lost)])
      ∧ (s.sst.live.feedMuteDelay = 0 → t.esc.feedOutTimer = none ∧ MuteTaken s t .feed true
          ∧ Raised s t .site (noticeAt s .feedState .none (.feed .lost) :: assertNotice s t))) := by
  subst ht
  refine ⟨fun hs => ?_, fun hs => ?_, fun hs hn => ?_, fun hs hn => ?_⟩
  · rw [badPacket_ignored (s := s.setFiu f) hs]
    exact ⟨rfl, rfl, rfl⟩
  · rw [badPacket_restarts (s := s.setFiu f) hs]
    exact ⟨hs, rfl, rfl, rfl⟩
  · rw [badPacket_counts (s := s.setFiu f) hs hn]
    exact ⟨hs, rfl, rfl, rfl⟩
  · rw [badPacket_loses (s := s.setFiu f) hs hn]
    have delayed := loseFeed_delayed (s := s.setFiu { f with badRun := f.badRun + 1 }) hs
    have atOnce := loseFeed_atOnce (s := s.setFiu { f with badRun := f.badRun + 1 }) hc hs
    exact ⟨congrArg Fiu.state (loseFeed_fiu _), congrArg (·.counters.feedLosses) (loseFeed_fiu _), delayed, atOnce⟩

end

/-- Settles O17: the packet's good or bad step on the state with the packet completed. -/
theorem packetsMoveTheFeedState : Obligations.PacketsMoveTheFeedState := by
  intro s head rest f0 f hr hc ho hlen
  obtain ⟨hstate, hgood, hbad, hlosses⟩ := completed_feed s (head ++ rest) (f0 || f)
  by_cases hb : byteAt (head ++ rest) 1 = 0x47#8
  · have hexec := exec_packetComplete_good hr ho hlen f hb
    have moves := goodPacket_moves (s.completed (head ++ rest) (f0 || f)).fiu hc rfl
    rw [hstate, hgood] at moves
    exact ⟨_, hexec, fun _ => moves, fun hb' => absurd hb hb', exec_frame hexec⟩
  · have hexec := exec_packetComplete_bad hr ho hlen f hb
    have moves := badPacket_moves (s.completed (head ++ rest) (f0 || f)).fiu hc rfl
    rw [hstate, hbad, hlosses] at moves
    exact ⟨_, hexec, fun hb' => absurd hb' hb, fun _ => moves, exec_frame hexec⟩

/-! ## The timers (R30, R58) -/

section
variable {s : State} {n : Nat} (hr : s.Running)
include hr

theorem exec_gapExpiry_due (hn : s.fiu.gapTimer = some n) (hdue : s.fiu.gapLimit ≤ n) : exec .gapExpiry s = .next
    (match s.fiu.state with
      | .on => (s.setFiu { s.fiu with gapTimer := none }).loseFeed
      | .syncing => (s.setFiu { s.fiu with gapTimer := none, goodRun := 0 }).setFeed .absent
      | .absent => s.setFiu { s.fiu with gapTimer := none }
      | .lost => s.setFiu { s.fiu with gapTimer := none }) := by
  have due : s.gapDue = true := by
    unfold State.gapDue
    rw [hn]
    exact decide_eq_true hdue
  change execGapExpiry s = _
  unfold execGapExpiry
  rw [ifRunning_of_running hr, if_pos due]
  cases s.fiu.state <;> rfl

theorem exec_feedOutTimerExpiry_due (hn : s.esc.feedOutTimer = some n) (hdue : s.sst.live.feedMuteDelay * 27000 ≤ n) :
    exec .feedOutTimerExpiry s = .next s.feedOut := by
  change execFeedOutTimerExpiry s = _
  unfold execFeedOutTimerExpiry
  rw [ifRunning_of_running hr, if_pos ((feedOutDue_iff s).2 ⟨n, hn, hdue⟩)]

end

/-- The gap timer runs out, by the feed state that it meets (R30). -/
theorem gapExpires {s : State} {n : Nat} (hr : s.Running) (hn : s.fiu.gapTimer = some n) (hdue : s.fiu.gapLimit ≤ n) :
    ∃ t, exec .gapExpiry s = .next t
      ∧ t.fiu.gapTimer = none
      ∧ (s.fiu.state = .on → t.fiu.state = .lost ∧ t.fiu.counters.feedLosses = bump s.fiu.counters.feedLosses
          ∧ (s.sst.live.feedMuteDelay ≠ 0 → t.esc = { s.esc with feedOutTimer := some 0 }
              ∧ Raised s t .site [noticeAt s .feedState .none (.feed .lost)]))
      ∧ (s.fiu.state = .syncing → t.fiu.state = .absent ∧ t.fiu.goodRun = 0 ∧ t.esc = s.esc
          ∧ Raised s t .site [noticeAt s .feedState .none (.feed .absent)])
      ∧ (s.fiu.state = .absent ∨ s.fiu.state = .lost → t = s.setFiu { s.fiu with gapTimer := none })
      ∧ OnlyNotifies s t := by
  have hexec := exec_gapExpiry_due hr hn hdue
  have stopped : OnlyNotifies s (s.setFiu { s.fiu with gapTimer := none }) := .of_mgp rfl
  refine ⟨_, hexec, ?_⟩
  cases hs : s.fiu.state with
  | on =>
    refine ⟨congrArg Fiu.gapTimer (loseFeed_fiu _), fun _ => ⟨congrArg Fiu.state (loseFeed_fiu _),
      congrArg (·.counters.feedLosses) (loseFeed_fiu _), loseFeed_delayed (s := s.setFiu { s.fiu with gapTimer := none }) hs⟩,
      nofun, nofun, stopped.trans (loseFeed_onlyNotifies _)⟩
  | syncing =>
    have entered := setFeed_outside (s := s.setFiu { s.fiu with gapTimer := none, goodRun := 0 }) (x := .absent)
      (fun e => by cases hs.symm.trans e) (fun e => by cases hs.symm.trans e) (by decide)
    dsimp only
    rw [entered]
    exact ⟨rfl, nofun, fun _ => ⟨rfl, rfl, rfl, feedNoted_raised _ .absent⟩, nofun,
      (OnlyNotifies.of_mgp rfl).trans (feedNoted_onlyNotifies (s.setFiu { s.fiu with gapTimer := none, goodRun := 0 }) .absent)⟩
  | absent => exact ⟨rfl, nofun, nofun, fun _ => rfl, stopped⟩
  | lost => exact ⟨rfl, nofun, nofun, fun _ => rfl, stopped⟩

/-- Settles O18: each expiry on the state in which it is due. -/
theorem feedTimersExpire : Obligations.FeedTimersExpire := by
  refine fun s n hr => ⟨fun hn hdue => ?_, fun hc hn hdue => ?_⟩
  · obtain ⟨t, hexec, stopped, on, syncing, off, notifies⟩ := gapExpires hr hn hdue
    exact ⟨t, hexec, stopped, on, syncing, off, exec_frame hexec, notifies⟩
  · have hexec := exec_feedOutTimerExpiry_due hr hn hdue
    obtain ⟨muted, stopped, raised⟩ := feedOut_effect hc
    have reason : s.feedOut.esc.mute.any = true := by
      simp [MuteReasons.any, muted.feed]
    exact ⟨_, hexec, stopped, muted, (muted.2.1 reason).1, raised, exec_frame hexec,
      (OnlyNotifies.of_mgp rfl).trans (setMute_onlyNotifies (s.setEsc { s.esc with feedOutTimer := none }) _ _)⟩

end Machine
end Sys2Proof
end

section
/-! PROOFS. The ring write rule (R40), and the stream map edits with their checks in order (R36, R37, R191). -/

set_option Elab.async false

namespace Sys2Proof
namespace Machine

/-! ## The ring write rule (R40) -/

section
variable {running : Bool} {fetchPos : Option Word32} {size : Nat} {slot : Word32}

theorem ringRule_stored (h : running = false
    ∨ ∃ f, fetchPos = some f ∧ 0 ≤ sdiff slot f ∧ sdiff slot f < (size : Int)) :
    ringRule running fetchPos size slot = .stored := by
  unfold ringRule
  rcases h with rfl | ⟨f, rfl, hlow, hhigh⟩
  · rfl
  · dsimp only
    rw [if_neg (Int.not_lt.2 hlow), if_neg (Int.not_le.2 hhigh), ite_self]

theorem ringRule_late {f : Word32} (h : sdiff slot f < 0) : ringRule true (some f) size slot = .late := if_pos h

theorem ringRule_overrun {f : Word32} (hlow : 0 ≤ sdiff slot f) (hhigh : (size : Int) ≤ sdiff slot f) :
    ringRule true (some f) size slot = .overrun := (if_neg (Int.not_lt.2 hlow)).trans (if_pos hhigh)

end

/-- The head entry taken from the feed write buffer by a grant of the packet memory, before the ring write rule (R39, R131). -/
def State.feedGranted (s : State) (rest : List FeedEntry) : State :=
  (s.setFiu { s.fiu with writeBuffer := rest }).setCsc { s.csc with marker := .feed }

/-- The part after a FEED_WRITE with this outcome of the ring write rule. -/
def State.feedWritten (s : State) (e : FeedEntry) (rest : List FeedEntry) : RingOutcome → State
  | .late => (s.feedGranted rest).countFiu (fun c => { c with latePackets := bump c.latePackets })
  | .overrun => (s.feedGranted rest).countFiu (fun c => { c with ringOverruns := bump c.ringOverruns })
  | .stored => (s.feedGranted rest).setCsc { s.csc with
      marker := .feed
      memory := Memory.writeSlot s.csc.memory (ringSlot s.fiu.ringSize e.slot) (slotImage e.packet e.info)
      written := markSlot (ringSlot s.fiu.ringSize e.slot) s.csc.written }

theorem exec_feedWrite {s : State} (hr : s.Running) (hg : s.grant? = some .feedWrite) {e : FeedEntry} {rest : List FeedEntry}
    (hb : s.fiu.writeBuffer = e :: rest) : exec .feedWrite s =
      .next (s.feedWritten e rest (ringRule s.esc.running s.esc.fetchPos s.fiu.ringSize e.slot)) := by
  change execFeedWrite s = _
  unfold execFeedWrite
  rw [ifRunning_of_running hr, if_pos hg, hb]
  dsimp only
  cases ringRule s.esc.running s.esc.fetchPos s.fiu.ringSize e.slot <;> rfl

/-- Settles O19: the three outcomes of the ring write rule. -/
theorem ringWriteRule : Obligations.RingWriteRule := by
  intro s e rest i hr hg hb hi hlt
  have hexec := exec_feedWrite hr hg hb
  have frame : OnlyChanges [.fiu, .csc] s _ := exec_frame hexec
  refine ⟨_, hexec, ?_, ?_, fun hstored => ?_, fun f hrun hf hlow => ?_, fun f hrun hf hlow hhigh => ?_, ?_, ?_, ?_, frame⟩
  case refine_3 =>
    subst hi
    obtain ⟨inside, outside⟩ := Memory.writeSlot_image s.csc.memory hlt e.packet e.info
    rw [ringRule_stored hstored]
    exact ⟨inside, outside, rfl, rfl⟩
  case refine_4 =>
    rw [hrun, hf, ringRule_late hlow]
    exact ⟨rfl, rfl⟩
  case refine_5 =>
    rw [hrun, hf, ringRule_overrun hlow hhigh]
    exact ⟨rfl, rfl⟩
  all_goals cases ringRule s.esc.running s.esc.fetchPos s.fiu.ringSize e.slot <;> rfl

/-! ## The checks of a stream map edit (R36, R37) -/

theorem streamClass_eq_none_iff {map : List MapEntry} {n : Nat} : streamClass? map n = none ↔ ∀ e ∈ map, e.stream ≠ n := by
  simp [streamClass?]

theorem streamClass_isSome_iff {map : List MapEntry} {n : Nat} :
    (streamClass? map n).isSome = true ↔ ∃ e ∈ map, e.stream = n := by
  rw [← not_iff_not, Bool.not_eq_true, Option.isSome_eq_false_iff, Option.isNone_iff_eq_none, streamClass_eq_none_iff]
  simp

theorem exists_of_streamClass {map : List MapEntry} {n : Nat} {c : StreamClass} (h : streamClass? map n = some c) :
    ∃ e ∈ map, e.stream = n ∧ e.cls = c := by
  obtain ⟨e, he, hc⟩ := Option.map_eq_some_iff.1 h
  exact ⟨e, List.mem_of_find?_eq_some he, by simpa using List.find?_some he, hc⟩

theorem Service.ofNat_eq_none : ∀ {n : Nat}, n < 1 ∨ 4 < n → Service.ofNat? n = none
  | 0, _ => rfl
  | 1, h | 2, h | 3, h | 4, h => by omega
  | _ + 5, _ => rfl

theorem EditClass.ofCode_eq_none : ∀ {n : Nat}, n ≠ 1 ∧ n ≠ 2 ∧ n ≠ 3 → EditClass.ofCode? n = none
  | 0, _ => rfl
  | 1, h | 2, h | 3, h => by omega
  | _ + 4, _ => rfl

theorem touchesBusy_iff {s : State} {c : StreamClass} :
    s.touchesBusy (some c) = true ↔ (c.service?.map s.serviceBusy) = some true := by
  unfold State.touchesBusy
  rw [Option.bind_some]
  cases c.service?.map s.serviceBusy <;> simp

theorem not_touchesBusy_none {s : State} : s.touchesBusy none = false := rfl

section
variable {s : State} {op : EditOp} {n : Nat} {old new : Option StreamClass}

theorem editChecked_clock (h : new.any (clockTaken s.sst.live.map n) = true) :
    s.editChecked op n old new = { state := s, code := .invalid } := if_pos h

theorem editChecked_busy (h : new.any (clockTaken s.sst.live.map n) = false)
    (hb : s.touchesBusy old = true ∨ s.touchesBusy new = true) : s.editChecked op n old new = { state := s, code := .busy } :=
  (if_neg (by simp [h])).trans (if_pos (Bool.or_eq_true_iff.2 hb))

/-- The map of a state replaced by an edit of it (R36, R191). -/
def State.withMap (s : State) (map : List MapEntry) : State :=
  s.setLive { s.sst.live with map := map } (decide (map ≠ s.sst.live.map))

theorem editChecked_done (h : new.any (clockTaken s.sst.live.map n) = false)
    (ho : s.touchesBusy old = false) (hn : s.touchesBusy new = false) :
    s.editChecked op n old new = { state := s.withMap (applyEdit s.sst.live.map op n new), code := .done } :=
  (if_neg (by simp [h])).trans (if_neg (by simp [ho, hn]))

theorem withMap_sst (map : List MapEntry) : (s.withMap map).sst = { s.sst with
    live := { s.sst.live with map := map }, unsaved := s.sst.unsaved || decide (map ≠ s.sst.live.map) } := rfl

/-- An edit that changes the map marks the settings unsaved (R191). -/
theorem withMap_sst_of_ne {map : List MapEntry} (h : map ≠ s.sst.live.map) : (s.withMap map).sst = { s.sst with
    live := { s.sst.live with map := map }, unsaved := true } := by
  rw [withMap_sst, decide_eq_true h, Bool.or_true]

end

/-! ## The three edits at their owner -/

section
variable {s : State} {stream : Word16} {cls service clock : Byte}

/-- A class that R204 does not list, the null stream, the reserved stream and what lies past the last are refused first. -/
theorem ownMapEdit_illegal (op : EditOp)
    (h : EditClass.ofCode? cls.toNat = none ∨ stream.toNat = 8176 ∨ 8190 < stream.toNat) :
    ownMapEdit op stream cls service clock s = { state := s, code := .invalid } := by
  unfold ownMapEdit
  rcases h with h | h
  · rw [h]
  · cases EditClass.ofCode? cls.toNat with
    | none => rfl
    | some c => exact if_pos h

variable {c : EditClass} (hc : EditClass.ofCode? cls.toNat = some c) (hs : ¬ (stream.toNat = 8176 ∨ 8190 < stream.toNat))
include hc hs

theorem ownMapEdit_notFound {op : EditOp} (hop : op ≠ .add) (h : streamClass? s.sst.live.map stream.toNat = none) :
    ownMapEdit op stream cls service clock s = { state := s, code := .notFound } := by
  cases op with
  | add => exact absurd rfl hop
  | change => simp [ownMapEdit, hc, hs, h]
  | remove => simp [ownMapEdit, hc, hs, h]

theorem ownMapEdit_add_listed (h : (streamClass? s.sst.live.map stream.toNat).isSome = true) :
    ownMapEdit .add stream cls service clock s = { state := s, code := .invalid } := by
  simp [ownMapEdit, hc, hs, h]

theorem ownMapEdit_remove_checked {old : StreamClass} (h : streamClass? s.sst.live.map stream.toNat = some old) :
    ownMapEdit .remove stream cls service clock s = s.editChecked .remove stream.toNat (some old) none := by
  simp [ownMapEdit, hc, hs, h]

section
variable {old : StreamClass} (h : streamClass? s.sst.live.map stream.toNat = some old)
include h

theorem ownMapEdit_change_unnamed (he : editedClass? c service clock = none) :
    ownMapEdit .change stream cls service clock s = { state := s, code := .invalid } := by
  simp [ownMapEdit, hc, hs, h, he]

theorem ownMapEdit_change_checked {new : StreamClass} (he : editedClass? c service clock = some new) :
    ownMapEdit .change stream cls service clock s = s.editChecked .change stream.toNat (some old) (some new) := by
  simp [ownMapEdit, hc, hs, h, he]

end

variable (h : streamClass? s.sst.live.map stream.toNat = none)
include h

theorem ownMapEdit_add_full (hfull : 32 ≤ s.sst.live.map.length) :
    ownMapEdit .add stream cls service clock s = { state := s, code := .full } := by
  simp [ownMapEdit, hc, hs, h, Config.mapPlaces, hfull]

theorem ownMapEdit_add_unnamed (hroom : s.sst.live.map.length < 32) (he : editedClass? c service clock = none) :
    ownMapEdit .add stream cls service clock s = { state := s, code := .invalid } := by
  simp [ownMapEdit, hc, hs, h, Config.mapPlaces, Nat.not_le.2 hroom, he]

theorem ownMapEdit_add_checked (hroom : s.sst.live.map.length < 32) {new : StreamClass}
    (he : editedClass? c service clock = some new) :
    ownMapEdit .add stream cls service clock s = s.editChecked .add stream.toNat none (some new) := by
  simp [ownMapEdit, hc, hs, h, Config.mapPlaces, Nat.not_le.2 hroom, he]

end

/-- No edit reaches the Management Port itself. -/
theorem editChecked_mgp (s : State) (op : EditOp) (n : Nat) (old new : Option StreamClass) :
    (s.editChecked op n old new).state.mgp = s.mgp := by
  unfold State.editChecked
  split
  · rfl
  · split <;> rfl

theorem ownMapEdit_mgp (op : EditOp) (stream : Word16) (cls service clock : Byte) (s : State) :
    (ownMapEdit op stream cls service clock s).state.mgp = s.mgp := by
  cases hc : EditClass.ofCode? cls.toNat with
  | none => rw [ownMapEdit_illegal op (.inl hc)]
  | some c =>
    by_cases hs : stream.toNat = 8176 ∨ 8190 < stream.toNat
    · rw [ownMapEdit_illegal op (.inr hs)]
    · cases ho : streamClass? s.sst.live.map stream.toNat <;> cases op
      case some.remove => rw [ownMapEdit_remove_checked hc hs ho, editChecked_mgp]
      case some.add => rw [ownMapEdit_add_listed hc hs (Option.isSome_of_eq_some ho)]
      case none.change => rw [ownMapEdit_notFound hc hs (by decide) ho]
      case none.remove => rw [ownMapEdit_notFound hc hs (by decide) ho]
      case some.change =>
        cases he : editedClass? c service clock with
        | none => rw [ownMapEdit_change_unnamed hc hs ho he]
        | some new => rw [ownMapEdit_change_checked hc hs ho he, editChecked_mgp]
      case none.add =>
        by_cases hroom : s.sst.live.map.length < 32
        · cases he : editedClass? c service clock with
          | none => rw [ownMapEdit_add_unnamed hc hs ho hroom he]
          | some new => rw [ownMapEdit_add_checked hc hs ho hroom he, editChecked_mgp]
        · rw [ownMapEdit_add_full hc hs ho (Nat.not_lt.1 hroom)]

/-! ## The commands -/

/-- The command of the site role that makes an edit. -/
def EditOp.command : EditOp → Word16 → Byte → Byte → Byte → Instr
  | .add => .streamMapAdd .site
  | .change => .streamMapChange .site
  | .remove => .streamMapRemove .site

section
variable {s : State} {op : EditOp} {stream : Word16} {cls service clock : Byte}

theorem exec_mapEdit (h : s.Listens .site) : exec (op.command stream cls service clock) s =
    .next ((ownMapEdit op stream cls service clock s).state.record .site 0x0020
      (ownMapEdit op stream cls service clock s).code (ownMapEdit op stream cls service clock s).value) := by
  have taken : exec (op.command stream cls service clock) s =
      ifRunning s (·.takeWrite .site mapEditObject true (ownMapEdit op stream cls service clock)) := by
    cases op <;> rfl
  rw [taken, ifRunning_of_running h.1, takeWrite_taken s .site mapEditObject true _ h.2 (.inr rfl)]
  rfl

theorem refused_answer (s : State) (code : ResultCode) :
    (s.record .site 0x0020 code []).sst = s.sst ∧ Recorded s (s.record .site 0x0020 code []) .site 0x0020 code [] :=
  ⟨rfl, record_recorded _ _ _ _ _⟩

theorem withMap_recorded (s : State) (map : List MapEntry) :
    Recorded s ((s.withMap map).record .site 0x0020 .done []) .site 0x0020 .done [] := OnlyNotifies.recorded (.of_mgp rfl)

end

section
variable {s : State} {stream : Word16} {cls service clock : Byte} {new : StreamClass}

theorem editClass_of_listed (h : cls = 1#8 ∨ cls = 2#8 ∨ cls = 3#8) : ∃ c, EditClass.ofCode? cls.toNat = some c := by
  rcases h with rfl | rfl | rfl
  · exact ⟨.carry, rfl⟩
  · exact ⟨.service, rfl⟩
  · exact ⟨.drop, rfl⟩

/-- The class that an ADD or CHANGE names (R36, R204). -/
theorem editedClass_of_named (h : (cls = 1#8 ∧ new = .carry) ∨ (cls = 3#8 ∧ new = .drop)
      ∨ (cls = 2#8 ∧ ∃ v, Service.ofNat? service.toNat = some v ∧ new = .service v (clockFlag clock))) :
    ∃ c, EditClass.ofCode? cls.toNat = some c ∧ editedClass? c service clock = some new := by
  rcases h with ⟨rfl, rfl⟩ | ⟨rfl, rfl⟩ | ⟨rfl, v, hv, rfl⟩
  · exact ⟨.carry, rfl, rfl⟩
  · exact ⟨.drop, rfl, rfl⟩
  · exact ⟨.service, rfl, congrArg (Option.map _) hv⟩

theorem stream_legal (h : stream ≠ 8176#16) (hle : stream.toNat ≤ 8190) : ¬ (stream.toNat = 8176 ∨ 8190 < stream.toNat) := by
  rintro (heq | hlt)
  · exact h (BitVec.eq_of_toNat_eq heq)
  · omega

end

/-! ## The edits, by the checks of R36 in order -/

section
variable {s : State} {stream : Word16} {cls service clock : Byte}

/-- What every edit keeps, and the checks that all three share. -/
theorem mapEdit_shared (h : s.Listens .site) (op : EditOp) : ∃ t, exec (op.command stream cls service clock) s = .next t
    ∧ ((cls ≠ 1#8 ∧ cls ≠ 2#8 ∧ cls ≠ 3#8) ∨ stream = 8176#16 ∨ 8190 < stream.toNat →
        t.sst = s.sst ∧ Recorded s t .site 0x0020 .invalid [])
    ∧ ((cls = 1#8 ∨ cls = 2#8 ∨ cls = 3#8) → stream ≠ 8176#16 → stream.toNat ≤ 8190 →
        op ≠ .add → (∀ e ∈ s.sst.live.map, e.stream ≠ stream.toNat) →
        t.sst = s.sst ∧ Recorded s t .site 0x0020 .notFound [])
    ∧ OnlyChanges [.sst, .mgp] s t ∧ OnlyAnswers s t .site := by
  have hexec := exec_mapEdit (op := op) (stream := stream) (cls := cls) (service := service) (clock := clock) h
  have frame : OnlyChanges [.sst, .mgp] s _ := (exec_frame hexec).widen (by cases op <;> simp [EditOp.command, touchedParts])
  refine ⟨_, hexec, fun hbad => ?_, fun hcls hne hle hop hfree => ?_, frame,
    record_onlyAnswers (ownMapEdit_mgp op stream cls service clock s)⟩
  · rw [ownMapEdit_illegal]
    · exact refused_answer s _
    · rcases hbad with ⟨h₁, h₂, h₃⟩ | rfl | hlt
      · exact .inl (EditClass.ofCode_eq_none ⟨fun e => h₁ (BitVec.eq_of_toNat_eq e), fun e => h₂ (BitVec.eq_of_toNat_eq e),
          fun e => h₃ (BitVec.eq_of_toNat_eq e)⟩)
      · exact .inr (.inl rfl)
      · exact .inr (.inr hlt)
  · obtain ⟨c, hc⟩ := editClass_of_listed hcls
    rw [ownMapEdit_notFound hc (stream_legal hne hle) hop (streamClass_eq_none_iff.2 hfree)]
    exact refused_answer s _

section
variable {c : EditClass} (h : s.Listens .site) (hc : EditClass.ofCode? cls.toNat = some c)
  (hs : ¬ (stream.toNat = 8176 ∨ 8190 < stream.toNat))
include h hc hs

theorem mapAdd_named {new : StreamClass} (he : editedClass? c service clock = some new) :
    ∃ t, exec (.streamMapAdd .site stream cls service clock) s = .next t
      ∧ ((∃ e ∈ s.sst.live.map, e.stream = stream.toNat) → t.sst = s.sst ∧ Recorded s t .site 0x0020 .invalid [])
      ∧ ((∀ e ∈ s.sst.live.map, e.stream ≠ stream.toNat) → 32 ≤ s.sst.live.map.length →
          t.sst = s.sst ∧ Recorded s t .site 0x0020 .full [])
      ∧ ((∀ e ∈ s.sst.live.map, e.stream ≠ stream.toNat) → s.sst.live.map.length < 32 →
          (clockTaken s.sst.live.map stream.toNat new = true → t.sst = s.sst ∧ Recorded s t .site 0x0020 .invalid [])
          ∧ (clockTaken s.sst.live.map stream.toNat new = false → (new.service?.map s.serviceBusy) = some true →
              t.sst = s.sst ∧ Recorded s t .site 0x0020 .busy [])
          ∧ (clockTaken s.sst.live.map stream.toNat new = false → (new.service?.map s.serviceBusy) ≠ some true →
              t.sst = { s.sst with live := { s.sst.live with
                map := s.sst.live.map ++ [{ stream := stream.toNat, cls := new }] }, unsaved := true }
              ∧ Recorded s t .site 0x0020 .done [])) := by
  refine ⟨_, exec_mapEdit (op := .add) h, fun hlisted => ?_, fun hfree hfull => ?_, fun hfree hroom => ?_⟩
  · rw [ownMapEdit_add_listed hc hs (streamClass_isSome_iff.2 hlisted)]
    exact refused_answer s _
  · rw [ownMapEdit_add_full hc hs (streamClass_eq_none_iff.2 hfree) hfull]
    exact refused_answer s _
  · rw [ownMapEdit_add_checked hc hs (streamClass_eq_none_iff.2 hfree) hroom he]
    refine ⟨fun hk => ?_, fun hk hb => ?_, fun hk hb => ?_⟩
    · rw [editChecked_clock (new := some new) hk]
      exact refused_answer s _
    · rw [editChecked_busy (new := some new) hk (.inr (touchesBusy_iff.2 hb))]
      exact refused_answer s _
    · rw [editChecked_done (new := some new) hk not_touchesBusy_none (Bool.eq_false_iff.2 (mt touchesBusy_iff.1 hb)),
        State.record_sst]
      exact ⟨withMap_sst_of_ne (by simp [applyEdit]), withMap_recorded s _⟩

theorem mapChange_named {old new : StreamClass} (he : editedClass? c service clock = some new)
    (ho : streamClass? s.sst.live.map stream.toNat = some old) {map : List MapEntry}
    (hmap : map = s.sst.live.map.map (fun e => if e.stream = stream.toNat then { e with cls := new } else e)) :
    ∃ t, exec (.streamMapChange .site stream cls service clock) s = .next t
      ∧ (clockTaken s.sst.live.map stream.toNat new = true → t.sst = s.sst ∧ Recorded s t .site 0x0020 .invalid [])
      ∧ (clockTaken s.sst.live.map stream.toNat new = false →
          ((new.service?.map s.serviceBusy) = some true ∨ (old.service?.map s.serviceBusy) = some true) →
          t.sst = s.sst ∧ Recorded s t .site 0x0020 .busy [])
      ∧ (clockTaken s.sst.live.map stream.toNat new = false → (new.service?.map s.serviceBusy) ≠ some true →
          (old.service?.map s.serviceBusy) ≠ some true →
          t.sst = { s.sst with live := { s.sst.live with map := map }
                               unsaved := s.sst.unsaved || decide (map ≠ s.sst.live.map) }
          ∧ (old ≠ new → t.sst.unsaved = true)
          ∧ Recorded s t .site 0x0020 .done []) := by
  refine ⟨_, exec_mapEdit (op := .change) h, ?_⟩
  rw [ownMapEdit_change_checked hc hs ho he]
  refine ⟨fun hk => ?_, fun hk hb => ?_, fun hk hbn hbo => ?_⟩
  · rw [editChecked_clock (new := some new) hk]
    exact refused_answer s _
  · rw [editChecked_busy (new := some new) hk (hb.symm.imp touchesBusy_iff.2 touchesBusy_iff.2)]
    exact refused_answer s _
  · have changed : old ≠ new → map ≠ s.sst.live.map := fun hne heq => by
      obtain ⟨e, hmem, hstream, rfl⟩ := exists_of_streamClass ho
      have kept := List.map_inj_left.1 ((hmap.symm.trans heq).trans (List.map_id _).symm) e hmem
      rw [if_pos hstream] at kept
      exact hne (congrArg MapEntry.cls kept).symm
    have applied : applyEdit s.sst.live.map .change stream.toNat (some new) = map := hmap.symm
    rw [editChecked_done (new := some new) hk (Bool.eq_false_iff.2 (mt touchesBusy_iff.1 hbo))
      (Bool.eq_false_iff.2 (mt touchesBusy_iff.1 hbn)), applied, State.record_sst]
    exact ⟨withMap_sst map, fun hne => congrArg Sst.unsaved (withMap_sst_of_ne (changed hne)), withMap_recorded s map⟩

theorem mapRemove_listed {old : StreamClass} (ho : streamClass? s.sst.live.map stream.toNat = some old) :
    ∃ t, exec (.streamMapRemove .site stream cls service clock) s = .next t
      ∧ ((old.service?.map s.serviceBusy) = some true → t.sst = s.sst ∧ Recorded s t .site 0x0020 .busy [])
      ∧ ((old.service?.map s.serviceBusy) ≠ some true →
          t.sst = { s.sst with
            live := { s.sst.live with map := s.sst.live.map.filter (fun e => e.stream ≠ stream.toNat) }, unsaved := true }
          ∧ Recorded s t .site 0x0020 .done []) := by
  refine ⟨_, exec_mapEdit (op := .remove) h, ?_⟩
  rw [ownMapEdit_remove_checked hc hs ho]
  refine ⟨fun hb => ?_, fun hb => ?_⟩
  · rw [editChecked_busy rfl (.inl (touchesBusy_iff.2 hb))]
    exact refused_answer s _
  · have changed : s.sst.live.map.filter (fun e => e.stream ≠ stream.toNat) ≠ s.sst.live.map := fun heq => by
      obtain ⟨e, hmem, hstream, -⟩ := exists_of_streamClass ho
      simpa [hstream] using List.filter_eq_self.1 heq e hmem
    rw [editChecked_done rfl (Bool.eq_false_iff.2 (mt touchesBusy_iff.1 hb)) not_touchesBusy_none, State.record_sst]
    exact ⟨withMap_sst_of_ne changed, withMap_recorded s _⟩

/-- A SERVICE edit whose service is not 1 to 4 passes no further than the check of the class. -/
theorem mapEdit_unnamed (he : editedClass? c service clock = none) :
    (∃ t, exec (.streamMapAdd .site stream cls service clock) s = .next t ∧ t.sst = s.sst
      ∧ ((∃ e ∈ s.sst.live.map, e.stream = stream.toNat) → Recorded s t .site 0x0020 .invalid [])
      ∧ ((∀ e ∈ s.sst.live.map, e.stream ≠ stream.toNat) → 32 ≤ s.sst.live.map.length → Recorded s t .site 0x0020 .full [])
      ∧ ((∀ e ∈ s.sst.live.map, e.stream ≠ stream.toNat) → s.sst.live.map.length < 32 → Recorded s t .site 0x0020 .invalid []))
    ∧ ((∃ e ∈ s.sst.live.map, e.stream = stream.toNat) →
      ∃ t, exec (.streamMapChange .site stream cls service clock) s = .next t
        ∧ t.sst = s.sst ∧ Recorded s t .site 0x0020 .invalid []) := by
  have add := exec_mapEdit (op := .add) (stream := stream) (cls := cls) (service := service) (clock := clock) h
  have change := exec_mapEdit (op := .change) (stream := stream) (cls := cls) (service := service) (clock := clock) h
  cases ho : streamClass? s.sst.live.map stream.toNat with
  | some old =>
    have hlisted := Option.isSome_of_eq_some ho
    obtain ⟨x, hx, hstream⟩ := streamClass_isSome_iff.1 hlisted
    rw [ownMapEdit_add_listed hc hs hlisted] at add
    rw [ownMapEdit_change_unnamed hc hs ho he] at change
    exact ⟨⟨_, add, rfl, fun _ => (refused_answer s _).2, fun hfree => absurd hstream (hfree x hx),
      fun _ _ => (refused_answer s _).2⟩,
      fun _ => ⟨_, change, refused_answer s _⟩⟩
  | none =>
    have hfree := streamClass_eq_none_iff.1 ho
    have unlisted : ¬ ∃ e ∈ s.sst.live.map, e.stream = stream.toNat := fun ⟨e, hmem, hstream⟩ => hfree e hmem hstream
    refine ⟨?_, fun hlisted => absurd hlisted unlisted⟩
    by_cases hroom : s.sst.live.map.length < 32
    · rw [ownMapEdit_add_unnamed hc hs ho hroom he] at add
      exact ⟨_, add, rfl, fun hlisted => absurd hlisted unlisted, fun _ hfull => absurd hroom (Nat.not_lt.2 hfull),
        fun _ _ => (refused_answer s _).2⟩
    · rw [ownMapEdit_add_full hc hs ho (Nat.not_lt.1 hroom)] at add
      exact ⟨_, add, rfl, fun hlisted => absurd hlisted unlisted, fun _ _ => (refused_answer s _).2,
        fun _ hlt => absurd hlt hroom⟩

end
end

/-- Settles O47: the checks that the three edits share, then each edit with a class that it names, and a SERVICE edit that names
no service. -/
theorem streamMapEdits : Obligations.StreamMapEdits := by
  rintro s stream cls service clock map hl rfl
  refine ⟨?_, fun new hne hle hnew => ?_, fun old hcls hne hle ho => ?_, fun hcls hv hne hle => ?_⟩
  · have shared := mapEdit_shared (stream := stream) (cls := cls) (service := service) (clock := clock) hl
    rintro c (rfl | rfl | rfl)
    · obtain ⟨t, hexec, illegal, -, frame⟩ := shared .add
      exact ⟨t, hexec, illegal, fun _ _ _ h => absurd rfl h, frame⟩
    · obtain ⟨t, hexec, illegal, unlisted, frame⟩ := shared .change
      exact ⟨t, hexec, illegal, fun hc h₁ h₂ _ => unlisted hc h₁ h₂ (by decide), frame⟩
    · obtain ⟨t, hexec, illegal, unlisted, frame⟩ := shared .remove
      exact ⟨t, hexec, illegal, fun hc h₁ h₂ _ => unlisted hc h₁ h₂ (by decide), frame⟩
  · obtain ⟨c, hc, he⟩ := editedClass_of_named hnew
    exact ⟨mapAdd_named hl hc (stream_legal hne hle) he, fun old ho => mapChange_named hl hc (stream_legal hne hle) he ho rfl⟩
  · obtain ⟨c, hc⟩ := editClass_of_listed hcls
    exact mapRemove_listed hl hc (stream_legal hne hle) ho
  · subst hcls
    exact mapEdit_unnamed hl (c := .service) rfl (stream_legal hne hle) (by rw [editedClass?, Service.ofNat_eq_none hv]; rfl)

end Machine
end Sys2Proof
end

section
/-! PROOFS. The stream restart (R199), block by block: the feed and the carrier (R43, R58, R60, R65), the break table (R111), the
slates (R173) and the pins that they held (R103, R129). -/

set_option Elab.async false

namespace Sys2Proof
namespace Machine

/-! ## A command answered, where its owner raises notices and no more (R182, R183) -/

/-- The part with a command in a role's command object, before its owner carries it out (R182). -/
def State.commanded (s : State) (r : Role) (k : CommandKind) (args : List Byte) : State :=
  s.updatePort r (fun p => { p with command := some (BitVec.ofNat 8 k.code :: args) })

section
variable {s u : State} {r : Role} {k : CommandKind} {args : List Byte} {code : ResultCode} {value : List Byte}

theorem commanded_port_of_ne {q : Role} (h : q ≠ r) :
    (s.commanded r k args).mgp.ports.get q = s.mgp.ports.get q := by
  obtain rfl := eq_otherRole_of_ne h
  exact updatePort_port_other s r _

theorem commanded_port : (s.commanded r k args).mgp.ports.get r =
    { s.mgp.ports.get r with command := some (BitVec.ofNat 8 k.code :: args) } := updatePort_port s r _

theorem OnlyNotifies.answered (h : OnlyNotifies (s.commanded r k args) u) :
    Answered s (u.record r k.code code value) r k args code value := by
  have recorded := h.recorded (r := r) (e := k.code) (c := code) (v := value)
  obtain ⟨hcommand, -, -, -⟩ := h.1 r
  refine ⟨?_, ?_⟩
  · unfold Recorded at recorded ⊢
    rw [recorded, commanded_port]
  · rw [State.record, updatePort_port]
    dsimp only
    rw [hcommand, commanded_port]

theorem OnlyNotifies.commanded_answersAndNotifies (h : OnlyNotifies (s.commanded r k args) u) :
    OnlyAnswersAndNotifies s (u.record r k.code code value) r := by
  obtain ⟨hcommand, hresult, hports, hbus⟩ := h.record_answersAndNotifies (r := r) (e := k.code) (c := code) (v := value)
  have other := commanded_port_of_ne (s := s) (k := k) (args := args) (show otherRole r ≠ r by cases r <;> decide)
  rw [other] at hcommand hresult
  refine ⟨hcommand, hresult, fun q => ?_, hbus⟩
  have port := hports q
  by_cases hq : q = r
  · subst hq
    rw [commanded_port] at port
    exact port
  · rw [commanded_port_of_ne hq] at port
    exact port

theorem Raised.commanded {q : Role} {ns : List Notice} (h : Raised (s.commanded r k args) u q ns) :
    Raised s (u.record r k.code code value) q ns := by
  have raised := h.record (r := r) (e := k.code) (c := code) (v := value)
  unfold Raised at raised ⊢
  by_cases hq : q = r
  · subst hq
    rw [commanded_port] at raised
    exact raised
  · rw [commanded_port_of_ne hq] at raised
    exact raised

end

theorem noticeAt_congr {s t : State} (h : t.tbu = s.tbu) : noticeAt t = noticeAt s := by
  funext k j d
  unfold noticeAt
  rw [h]

theorem Raised.of_eq {s t : State} {r : Role} {xs ys : List Notice} (h : Raised s t r xs) (e : ys = xs) : Raised s t r ys := e ▸ h

/-! ## A reason that asserts CARINH (R57, R60) -/

/-- The Emission Scheduler with a mute reason set: CARINH is asserted, and a packet being driven is cut off (R56, R57, R60). -/
def Esc.muted (e : Esc) (r : MuteReason) : Esc := { e.cutOff with mute := e.mute.put r true }

/-- CARINH follows the reasons, and a packet is on the port only while it is released: the last two parts of
`State.CarrierConsistent`, which a change of TIMING or of the schedule on its way does not break. -/
def Esc.CarinhConsistent (e : Esc) : Prop :=
  (e.carinh = .asserted ↔ e.mute.any = true) ∧ (e.port.isSome = true → e.carinh = .released)

theorem State.CarrierConsistent.carinh {s : State} (h : s.CarrierConsistent) : s.esc.CarinhConsistent := h.2.2

theorem MuteReasons.any_of_has {m : MuteReasons} {r : MuteReason} (h : m.has r = true) : m.any = true := by
  cases r <;> simp_all [MuteReasons.any, MuteReasons.has]

theorem MuteReasons.any_put_true (m : MuteReasons) (r : MuteReason) : (m.put r true).any = true := by
  cases r <;> simp [MuteReasons.any, MuteReasons.put]

theorem MuteReasons.eq_empty {m : MuteReasons} (h : m.any = false) : m = MuteReasons.empty := by
  cases m
  simp_all [MuteReasons.any, MuteReasons.empty]

section
variable {e : Esc} (h : e.CarinhConsistent)
include h

/-- With CARINH not released nothing is on the port, so that a cut-off changes CARINH alone. -/
theorem Esc.cutOff_of_not_released (hr : e.carinh ≠ .released) : e.cutOff = { e with carinh := .asserted } := by
  have idle : e.port = none := by
    cases hp : e.port with
    | none => rfl
    | some d => exact absurd (h.2 (by rw [hp]; rfl)) hr
  simp [Esc.cutOff, Esc.driving, idle]

theorem Esc.mute_of_released (hr : e.carinh = .released) : e.mute = MuteReasons.empty := by
  refine MuteReasons.eq_empty (Bool.eq_false_iff.2 fun hany => ?_)
  cases hr.symm.trans (h.1.2 hany)

end

theorem Esc.muted_consistent (e : Esc) (r : MuteReason) : (e.muted r).CarinhConsistent :=
  ⟨⟨fun _ => MuteReasons.any_put_true _ r, fun _ => rfl⟩, nofun⟩

/-- Setting a reason, said once: what becomes of the Emission Scheduler, and the notice where CARINH was released. -/
theorem setMute_asserts {s : State} (h : s.esc.CarinhConsistent) (r : MuteReason) : s.setMute r true =
    if s.esc.carinh = .released then
      (s.setEsc (s.esc.muted r)).raiseSite .carrierState .none (.mute (MuteReasons.empty.put r true))
    else s.setEsc (s.esc.muted r) := by
  unfold State.setMute Esc.muted
  by_cases hr : s.esc.carinh = .released
  · have none := Esc.mute_of_released h hr
    rw [if_pos hr, if_neg (by rw [none]; cases r <;> decide)]
    dsimp only
    rw [if_pos (MuteReasons.any_put_true _ r), hr, none]
    rfl
  · rw [if_neg hr, Esc.cutOff_of_not_released h hr]
    by_cases hb : s.esc.mute.has r = true
    · have asserted : s.esc.carinh = .asserted := h.1.2 (MuteReasons.any_of_has hb)
      have same : s.esc.mute.put r true = s.esc.mute := hb ▸ MuteReasons.put_has s.esc.mute r
      rw [if_pos hb, same, ← asserted]
      rfl
    · rw [if_neg hb]
      dsimp only
      rw [if_pos (MuteReasons.any_put_true _ r)]
      cases hk : s.esc.carinh with
      | released => exact absurd hk hr
      | pending => rfl
      | asserted => rfl

section
variable {s : State} (h : s.esc.CarinhConsistent) (r : MuteReason)
include h

theorem setMute_asserts_esc : (s.setMute r true).esc = s.esc.muted r := by
  rw [setMute_asserts h]
  split <;> rfl

theorem setMute_asserts_raised : Raised s (s.setMute r true) .site
    (if s.esc.carinh = .released then [noticeAt s .carrierState .none (.mute (MuteReasons.empty.put r true))] else []) := by
  rw [setMute_asserts h]
  split
  · exact raiseSite_raised (s.setEsc (s.esc.muted r)) _ _ _
  · exact .nil rfl

end

/-! ## The feed gone absent (R31, R43, R58) -/

/-- The Emission Scheduler as the feed goes absent (R58). -/
def State.feedGone (s : State) : Esc :=
  if s.fiu.state = .on then
    if s.sst.live.feedMuteDelay = 0 then Esc.muted { s.esc with feedOutTimer := none } .feed
    else { s.esc with feedOutTimer := some 0 }
  else s.esc

/-- The notices to the site role as the feed goes absent: CARRIER-STATE where a delay of 0 asserts CARINH (R31, R58, R60). -/
def goneNotices (s : State) : List Notice :=
  (if s.fiu.state = .absent then [] else [noticeAt s .feedState .none (.feed .absent)])
    ++ (if s.fiu.state = .on ∧ s.sst.live.feedMuteDelay = 0 ∧ s.esc.carinh = .released
        then [noticeAt s .carrierState .none (.mute (MuteReasons.empty.put .feed true))] else [])

/-- The feed goes absent, by the state that it leaves. -/
theorem setFeed_absent {s : State} (h : s.esc.CarinhConsistent) :
    (s.setFeed .absent).esc = s.feedGone ∧ Raised s (s.setFeed .absent) .site (goneNotices s) := by
  unfold State.feedGone goneNotices
  have entered := feedNoted_raised s .absent
  by_cases hs : s.fiu.state = .on
  · rw [setFeed_exit hs (by decide), if_pos hs, hs]
    by_cases hd : s.sst.live.feedMuteDelay = 0
    · have hm : ((s.feedNoted .absent).setEsc { s.esc with feedOutTimer := none }).esc.CarinhConsistent := h
      have asserted : Raised (s.feedNoted .absent) (s.feedNoted .absent).feedOut .site (if s.esc.carinh = .released
          then [noticeAt s .carrierState .none (.mute (MuteReasons.empty.put .feed true))] else []) :=
        setMute_asserts_raised hm .feed
      rw [if_pos hd, startFeedOut_atOnce (s := s.feedNoted .absent) hd]
      exact ⟨setMute_asserts_esc hm .feed, (entered.append asserted).of_eq (by simp [hd])⟩
    · rw [if_neg hd, startFeedOut_delayed (s := s.feedNoted .absent) hd]
      exact ⟨rfl, Raised.of_eq entered (by simp [hd])⟩
  · rw [if_neg hs]
    by_cases ha : s.fiu.state = .absent
    · rw [setFeed_same ha, ha]
      exact ⟨rfl, .nil rfl⟩
    · rw [setFeed_outside ha hs (by decide)]
      exact ⟨rfl, entered.of_eq (by simp [hs, ha])⟩

/-! ## Pins dropped (R103, R129) -/

/-- A clip directory with one pin less for each occurrence in a list. -/
def unpinned (dir : List (Nat × Clip)) (ids : List Word32) : List (Nat × Clip) :=
  ids.foldl (fun d id => mapClipId d id (fun c => { c with pins := c.pins - 1 })) dir

theorem dropPins_csc (s : State) (ids : List Word32) :
    (s.dropPins ids).csc = { s.csc with directory := unpinned s.csc.directory ids } := by
  induction ids generalizing s with
  | nil => rfl
  | cons id ids ih => exact ih (s.dropPin id)

theorem unpinned_append (dir : List (Nat × Clip)) (xs ys : List Word32) :
    unpinned dir (xs ++ ys) = unpinned (unpinned dir xs) ys := List.foldl_append

/-! ## The break table at a restart (R111) -/

/-- A break entry after a restart (R111). -/
def BreakEntry.restarted (e : BreakEntry) : BreakEntry :=
  if e.state = .active ∨ (e.state = .fallback ∧ e.windowOpen = true)
    then { e with state := .ended, outcome := some .restart, closure := none, windowOpen := false }
  else if e.state = .armed then { e with state := .fallback, reason := some .notRunning } else e

/-- The clips that an entry's restart unpins. -/
def BreakEntry.restartPins (e : BreakEntry) : List Word32 := if e.state = .active ∨ e.state = .armed then e.clips else []

/-- The notices of an entry's restart, to both roles. -/
def restartNotices (s : State) (e : BreakEntry) : List Notice :=
  if e.state = .active ∨ (e.state = .fallback ∧ e.windowOpen = true)
    then [noticeAt s .breakEnded (.breakNumber e.number) (.ended .restart)]
  else if e.state = .armed then [noticeAt s .breakFallback (.breakNumber e.number) (.reason .notRunning)] else []

theorem restarted_number (e : BreakEntry) : e.restarted.number = e.number := by
  unfold BreakEntry.restarted
  split
  · rfl
  · split <;> rfl

/-- A break entry replaced in the table with its pins dropped and its notice raised to both roles. -/
def State.settleBreak (s : State) (e : BreakEntry) (f : BreakEntry → BreakEntry) (ids : List Word32) (k : NoticeKind)
    (d : Detail) : State := ((s.updateBreak e.number f).dropPins ids).raiseBoth k (.breakNumber e.number) d

theorem updateBreak_table {s : State} {xs ys : List BreakEntry} {e : BreakEntry} (f : BreakEntry → BreakEntry)
    (h : s.bpu.table = xs ++ e :: ys) (hn : (s.bpu.table.map (·.number)).Nodup) :
    (s.updateBreak e.number f).bpu = { s.bpu with table := xs ++ f e :: ys } := by
  rw [h, List.map_append, List.map_cons, List.nodup_middle, List.nodup_cons] at hn
  have other : ∀ x ∈ xs ++ ys, (if x.number = e.number then f x else x) = x := fun x hx =>
    if_neg (fun he => hn.1 (by rw [← List.map_append, ← he]; exact List.mem_map_of_mem hx))
  have before : xs.map (fun x => if x.number = e.number then f x else x) = xs :=
    (List.map_congr_left (fun x hx => other x (List.mem_append_left _ hx))).trans (List.map_id _)
  have behind : ys.map (fun x => if x.number = e.number then f x else x) = ys :=
    (List.map_congr_left (fun x hx => other x (List.mem_append_right _ hx))).trans (List.map_id _)
  unfold State.updateBreak
  rw [State.setBpu_bpu, h, List.map_append, List.map_cons, before, behind, if_pos rfl]

section
variable {s : State} {e : BreakEntry} {f : BreakEntry → BreakEntry} {ids : List Word32} {k : NoticeKind} {d : Detail}

theorem settleBreak_bpu {xs ys : List BreakEntry} (h : s.bpu.table = xs ++ e :: ys) (hn : (s.bpu.table.map (·.number)).Nodup) :
    (s.settleBreak e f ids k d).bpu = { s.bpu with table := xs ++ f e :: ys } :=
  (State.dropPins_bpu (s.updateBreak e.number f) ids).trans (updateBreak_table f h hn)

theorem settleBreak_csc : (s.settleBreak e f ids k d).csc = { s.csc with directory := unpinned s.csc.directory ids } :=
  dropPins_csc (s.updateBreak e.number f) ids

theorem settleBreak_raised : RaisedBoth s (s.settleBreak e f ids k d) [noticeAt s k (.breakNumber e.number) d] := by
  intro r
  have raised := raiseBoth_raised ((s.updateBreak e.number f).dropPins ids) k (.breakNumber e.number) d r
  rw [noticeAt_congr ((dropPins_frame (s.updateBreak e.number f) ids) .tbu (by decide))] at raised
  exact raised.of_mgp (State.dropPins_mgp _ _)

end

/-- The three ways of an entry at a restart. -/
theorem restartEntry_eq (s : State) (e : BreakEntry) :
    (∃ f k d, s.restartEntry e = s.settleBreak e f e.restartPins k d ∧ f e = e.restarted
      ∧ ∀ u, restartNotices u e = [noticeAt u k (.breakNumber e.number) d])
    ∨ s.restartEntry e = s ∧ e.restarted = e ∧ e.restartPins = [] ∧ ∀ u, restartNotices u e = [] := by
  unfold State.restartEntry BreakEntry.restarted restartNotices
  by_cases hended : e.state = .active ∨ (e.state = .fallback ∧ e.windowOpen = true)
  · have pins : e.pinned = e.restartPins := by
      rcases hended with h | ⟨h, -⟩ <;> simp [BreakEntry.pinned, BreakEntry.restartPins, h]
    refine .inl ⟨fun x => { x with state := .ended, outcome := some .restart, closure := none, windowOpen := false },
      .breakEnded, .ended .restart, ?_, (if_pos hended).symm, fun u => if_pos hended⟩
    rw [if_pos hended, ← pins]
    rfl
  · by_cases harmed : e.state = .armed
    · have pins : e.pinned = e.restartPins := by simp [BreakEntry.pinned, BreakEntry.restartPins, harmed]
      refine .inl ⟨fun x => { x with state := .fallback, reason := some .notRunning }, .breakFallback, .reason .notRunning, ?_,
        ((if_neg hended).trans (if_pos harmed)).symm, fun u => (if_neg hended).trans (if_pos harmed)⟩
      rw [if_neg hended, if_pos harmed, ← pins]
      rfl
    · refine .inr ⟨(if_neg hended).trans (if_neg harmed), (if_neg hended).trans (if_neg harmed), ?_,
        fun u => (if_neg hended).trans (if_neg harmed)⟩
      exact if_neg (not_or.2 ⟨fun h => hended (.inl h), harmed⟩)

/-- The restart at one entry: its place in the table, its pins and its notice. -/
theorem restartEntry_effect {s : State} {xs ys : List BreakEntry} {e : BreakEntry} (h : s.bpu.table = xs ++ e :: ys)
    (hn : (s.bpu.table.map (·.number)).Nodup) :
    (s.restartEntry e).bpu = { s.bpu with table := xs ++ e.restarted :: ys }
      ∧ (s.restartEntry e).csc = { s.csc with directory := unpinned s.csc.directory e.restartPins }
      ∧ RaisedBoth s (s.restartEntry e) (restartNotices s e) := by
  rcases restartEntry_eq s e with ⟨f, k, d, heq, hf, hnotices⟩ | ⟨heq, hsame, hpins, hnotices⟩
  · rw [heq, hnotices, ← hf]
    exact ⟨settleBreak_bpu h hn, settleBreak_csc, settleBreak_raised⟩
  · rw [heq, hnotices, hsame, hpins, ← h]
    exact ⟨rfl, rfl, fun _ => .nil rfl⟩

/-- The restart at the entries that are left, those before them restarted already. -/
theorem foldl_restartEntry (u : State) (ys : List BreakEntry) : ∀ (xs : List BreakEntry) (s : State), s.tbu = u.tbu →
    s.bpu.table = xs ++ ys → (s.bpu.table.map (·.number)).Nodup →
    (ys.foldl State.restartEntry s).bpu = { s.bpu with table := xs ++ ys.map BreakEntry.restarted }
      ∧ (ys.foldl State.restartEntry s).csc =
          { s.csc with directory := unpinned s.csc.directory (ys.flatMap BreakEntry.restartPins) }
      ∧ RaisedBoth s (ys.foldl State.restartEntry s) (ys.flatMap (restartNotices u)) := by
  induction ys with
  | nil =>
    intro xs s _ h _
    refine ⟨?_, rfl, fun _ => .nil rfl⟩
    rw [List.map_nil, ← h]
    rfl
  | cons e ys ih =>
    intro xs s ht h hn
    obtain ⟨hbpu, hcsc, hraised⟩ := restartEntry_effect h hn
    have table : (s.restartEntry e).bpu.table = (xs ++ [e.restarted]) ++ ys := by
      rw [hbpu, List.append_assoc]
      rfl
    have numbers : (s.restartEntry e).bpu.table.map (·.number) = s.bpu.table.map (·.number) := by
      rw [table, h]
      simp [restarted_number]
    obtain ⟨hbpu', hcsc', hraised'⟩ := ih (xs ++ [e.restarted]) (s.restartEntry e)
      ((restartEntry_frame s e .tbu (by decide)).trans ht) table (numbers ▸ hn)
    refine ⟨?_, ?_, fun r => ?_⟩
    · rw [List.foldl_cons, hbpu', hbpu, List.append_assoc]
      rfl
    · rw [List.foldl_cons, hcsc', hcsc, List.flatMap_cons, unpinned_append]
    · have first := hraised r
      rw [show restartNotices s e = restartNotices u e by unfold restartNotices; rw [noticeAt_congr ht]] at first
      exact first.append (hraised' r)

/-! ## The slates at a restart (R173) -/

/-- The notice of a slate released at a restart, to the site role. -/
def slateNotice (s : State) (v : Service) : List Notice :=
  match (s.spe.services.get v).slate with
  | some id => [noticeAt s .localDeviation (.clipId id) (.released v)]
  | none => []

/-- The restart at one service's slate: its pin, its notice, and the other services' slates. -/
theorem releaseAtRestart_effect (s : State) (v : Service) :
    (s.releaseAtRestart v).csc =
        { s.csc with directory := unpinned s.csc.directory (s.spe.services.get v).slate.toList }
      ∧ Raised s (s.releaseAtRestart v) .site (slateNotice s v)
      ∧ (s.releaseAtRestart v).mgp.ports.get .insertion = s.mgp.ports.get .insertion
      ∧ (∀ w, w ≠ v → (s.releaseAtRestart v).spe.services.get w = s.spe.services.get w)
      ∧ (s.releaseAtRestart v).spe.counters = s.spe.counters := by
  unfold State.releaseAtRestart slateNotice
  cases (s.spe.services.get v).slate with
  | none => exact ⟨rfl, .nil rfl, rfl, fun _ _ => rfl, rfl⟩
  | some id =>
    exact ⟨rfl, raiseSite_raised ((s.dropPin id).updateService v _) _ _ _,
      raiseSite_insertion ((s.dropPin id).updateService v _) _ _ _, fun w hw => PerService.get_set_of_ne _ hw _, rfl⟩

/-- The restart at the services that are left, whose slates stand as in `u`. -/
theorem foldl_releaseAtRestart (u : State) (vs : List Service) : ∀ s : State, vs.Nodup → s.tbu = u.tbu →
    (∀ v ∈ vs, s.spe.services.get v = u.spe.services.get v) →
    (vs.foldl State.releaseAtRestart s).csc = { s.csc with
        directory := unpinned s.csc.directory (vs.flatMap (fun v => (u.spe.services.get v).slate.toList)) }
      ∧ Raised s (vs.foldl State.releaseAtRestart s) .site (vs.flatMap (slateNotice u))
      ∧ (vs.foldl State.releaseAtRestart s).mgp.ports.get .insertion = s.mgp.ports.get .insertion
      ∧ (vs.foldl State.releaseAtRestart s).spe.counters = s.spe.counters := by
  induction vs with
  | nil => exact fun s _ _ _ => ⟨rfl, .nil rfl, rfl, rfl⟩
  | cons v vs ih =>
    intro s hn ht hs
    obtain ⟨hv, hvs⟩ := List.nodup_cons.1 hn
    obtain ⟨hcsc, hraised, hport, hother, hcount⟩ := releaseAtRestart_effect s v
    have head := hs v (List.mem_cons_self ..)
    obtain ⟨hcsc', hraised', hport', hcount'⟩ := ih (s.releaseAtRestart v) hvs
      ((releaseAtRestart_frame s v .tbu (by decide)).trans ht)
      (fun w hw => (hother w (fun e => hv (e ▸ hw))).trans (hs w (List.mem_cons_of_mem _ hw)))
    refine ⟨?_, ?_, hport'.trans hport, hcount'.trans hcount⟩
    · rw [List.foldl_cons, hcsc', hcsc, List.flatMap_cons, unpinned_append, head]
    · rw [show slateNotice s v = slateNotice u v by unfold slateNotice; rw [head, noticeAt_congr ht]] at hraised
      exact hraised.append hraised'

end Machine
end Sys2Proof
end

section
/-! PROOFS. The stream restart (R199) as a whole: what stops before the break table and the slates are gone through, and the
answer of the command. -/

set_option Elab.async false

namespace Sys2Proof
namespace Machine

/-! ## What raises notices and no more -/

theorem OnlyNotifies.foldl {α : Type} {f : State → α → State} (h : ∀ s x, OnlyNotifies s (f s x)) (l : List α) (s : State) :
    OnlyNotifies s (l.foldl f s) := by
  induction l generalizing s with
  | nil => exact .refl s
  | cons x l ih => exact (h s x).trans (ih (f s x))

theorem settleBreak_onlyNotifies (s : State) (e : BreakEntry) (f : BreakEntry → BreakEntry) (ids : List Word32) (k : NoticeKind)
    (d : Detail) : OnlyNotifies s (s.settleBreak e f ids k d) :=
  (OnlyNotifies.of_mgp (State.dropPins_mgp (s.updateBreak e.number f) ids)).trans
    (raiseBoth_onlyNotifies ((s.updateBreak e.number f).dropPins ids) _ _ _)

theorem restartEntry_onlyNotifies (s : State) (e : BreakEntry) : OnlyNotifies s (s.restartEntry e) := by
  rcases restartEntry_eq s e with ⟨f, k, d, heq, -⟩ | ⟨heq, -⟩ <;> rw [heq]
  · exact settleBreak_onlyNotifies s e f _ k d
  · exact .refl s

theorem releaseAtRestart_onlyNotifies (s : State) (v : Service) : OnlyNotifies s (s.releaseAtRestart v) := by
  unfold State.releaseAtRestart
  split
  · next id _ =>
    exact (OnlyNotifies.of_mgp rfl).trans (raiseSite_onlyNotifies ((s.dropPin id).updateService v _) _ _ _)
  · exact .refl s

theorem setFeed_insertion (s : State) (x : FeedState) :
    (s.setFeed x).mgp.ports.get .insertion = s.mgp.ports.get .insertion := by
  have noted : (s.feedNoted x).mgp.ports.get .insertion = s.mgp.ports.get .insertion :=
    raiseSite_insertion (s.setFiu { s.fiu with state := x }) _ _ _
  by_cases hsame : s.fiu.state = x
  · rw [setFeed_same hsame]
  · by_cases hx : x = .on
    · subst hx
      rw [setFeed_on hsame, setMute_insertion]
      exact noted
    · by_cases hs : s.fiu.state = .on
      · rw [setFeed_exit hs hx]
        by_cases hd : s.sst.live.feedMuteDelay = 0
        · rw [startFeedOut_atOnce (s := s.feedNoted x) hd, State.feedOut, setMute_insertion]
          exact noted
        · rw [startFeedOut_delayed (s := s.feedNoted x) hd]
          exact noted
      · rw [setFeed_outside hsame hs hx]
        exact noted

/-! ## What stops first (R43, R65, R81, R114) -/

/-- The part after a restart but for its break table and its slates (R199). -/
def State.streamsStopped (s : State) : State := s.noteRestart.restartFiu.restartCsc.restartDdc.restartEsc

/-- The Emission Scheduler without its streams: the schedule, the fetches and the fills are gone (R65). -/
def Esc.stopped (e : Esc) : Esc := { e with
  running := false, anchors := [], next := none, fetchPos := none, requested := [], fills := [], lastEmission := e.lastDriven }

/-- The Feed Intake with its framing, its runs and its queues as the part starts, its feed state and counters kept (R43). -/
def Fiu.emptied (f : Fiu) (x : Settings) : Fiu := { f with
  framing := .noPacket, goodRun := 0, badRun := 0, gapTimer := some 0, gapLimit := x.feedGapTicks
  slotCounter := 0, writeBuffer := [], handoff := [] }

theorem restartFiu_eq (s : State) : s.restartFiu = (s.setFiu (s.fiu.emptied s.sst.live)).setFeed .absent := rfl

theorem restartEsc_eq (s : State) : s.restartEsc = (s.setEsc s.esc.stopped).setMute .schedule true := rfl

theorem noteRestart_raised (s : State) :
    RaisedBoth s s.noteRestart [noticeAt s .restarted .none (.restart .streamRestart s.sst.storeInvalid)] :=
  raiseBoth_raised (s.setSst { s.sst with cause := .streamRestart }) _ _ _

theorem streamsStopped_frame (s : State) : OnlyChanges [.mgp, .fiu, .esc, .ddc, .csc, .sst] s s.streamsStopped := by
  have fed := (noteRestart_frame s).seq (restartFiu_frame s.noteRestart) (c := [.mgp, .fiu, .esc, .sst])
  have stored := fed.seq (restartCsc_frame _) (c := [.mgp, .fiu, .esc, .csc, .sst])
  have decoded := stored.seq (restartDdc_frame _) (c := [.mgp, .fiu, .esc, .ddc, .csc, .sst])
  exact decoded.seq (restartEsc_frame _)

theorem noteRestart_onlyNotifies (s : State) : OnlyNotifies s s.noteRestart :=
  (OnlyNotifies.of_mgp rfl).trans (raiseBoth_onlyNotifies (s.setSst { s.sst with cause := .streamRestart }) _ _ _)

theorem restartFiu_onlyNotifies (s : State) : OnlyNotifies s s.restartFiu := by
  rw [restartFiu_eq]
  exact (OnlyNotifies.of_mgp rfl).trans (setFeed_onlyNotifies (s.setFiu _) _)

theorem restartEsc_onlyNotifies (s : State) : OnlyNotifies s s.restartEsc := by
  rw [restartEsc_eq]
  exact (OnlyNotifies.of_mgp rfl).trans (setMute_onlyNotifies (s.setEsc _) _ _)

theorem streamsStopped_onlyNotifies (s : State) : OnlyNotifies s s.streamsStopped := by
  have stored : OnlyNotifies s.noteRestart.restartFiu s.noteRestart.restartFiu.restartCsc.restartDdc := .of_mgp rfl
  exact (((noteRestart_onlyNotifies s).trans (restartFiu_onlyNotifies _)).trans stored).trans (restartEsc_onlyNotifies _)

theorem streamsStopped_insertion (s : State) :
    s.streamsStopped.mgp.ports.get .insertion = s.noteRestart.mgp.ports.get .insertion := by
  unfold State.streamsStopped
  rw [restartEsc_eq, setMute_insertion]
  exact setFeed_insertion (s.noteRestart.setFiu _) .absent

theorem feedGone_consistent {s : State} (h : s.esc.CarinhConsistent) : s.feedGone.CarinhConsistent := by
  unfold State.feedGone
  split
  · split
    · exact Esc.muted_consistent _ _
    · exact h
  · exact h

/-- The restart at the Feed Intake: the feed goes absent (R43, R31, R58). -/
theorem restartFiu_effect {s : State} (h : s.esc.CarinhConsistent) :
    s.restartFiu.fiu = { s.fiu.emptied s.sst.live with state := .absent } ∧ s.restartFiu.esc = s.feedGone
      ∧ Raised s s.restartFiu .site (goneNotices s) := by
  obtain ⟨gone, raised⟩ := setFeed_absent (s := s.setFiu (s.fiu.emptied s.sst.live)) h
  rw [restartFiu_eq]
  exact ⟨setFeed_fiu _ _, gone, raised⟩

/-- The restart at the Emission Scheduler: the schedule is stopped, and SCHEDULE asserts CARINH (R65, R57, R60). -/
theorem restartEsc_effect {s : State} (h : s.esc.CarinhConsistent) :
    s.restartEsc.esc = s.esc.stopped.muted .schedule
      ∧ Raised s s.restartEsc .site (if s.esc.carinh = .released
          then [noticeAt s .carrierState .none (.mute (MuteReasons.empty.put .schedule true))] else []) := by
  rw [restartEsc_eq]
  exact ⟨setMute_asserts_esc (s := s.setEsc s.esc.stopped) h _, setMute_asserts_raised (s := s.setEsc s.esc.stopped) h _⟩

/-- The notices to the site role as the streams stop, behind RESTARTED. -/
def stoppedNotices (s : State) : List Notice :=
  (if s.fiu.state = .absent then [] else [noticeAt s .feedState .none (.feed .absent)])
    ++ (if s.esc.carinh = .released then [noticeAt s .carrierState .none (.mute (MuteReasons.empty.put
        (if s.fiu.state = .on ∧ s.sst.live.feedMuteDelay = 0 then .feed else .schedule) true))] else [])

theorem goneNotices_stopped (s : State) : goneNotices s ++ (if s.feedGone.carinh = .released
    then [noticeAt s .carrierState .none (.mute (MuteReasons.empty.put .schedule true))] else []) = stoppedNotices s := by
  unfold goneNotices stoppedNotices State.feedGone
  by_cases hs : s.fiu.state = .on
  · by_cases hd : s.sst.live.feedMuteDelay = 0
    · simp [hs, hd, Esc.muted, Esc.cutOff]
    · simp [hs, hd]
  · simp [hs]

section
variable {s : State} (h : s.esc.CarinhConsistent)
include h

theorem streamsStopped_fiu : s.streamsStopped.fiu = { s.fiu.emptied s.sst.live with state := .absent } := by
  have kept : s.streamsStopped.fiu = s.noteRestart.restartFiu.fiu :=
    restartEsc_frame s.noteRestart.restartFiu.restartCsc.restartDdc .fiu (by decide)
  obtain ⟨hfiu, -, -⟩ := restartFiu_effect (s := s.noteRestart) h
  exact kept.trans hfiu

theorem streamsStopped_esc : s.streamsStopped.esc = s.feedGone.stopped.muted .schedule := by
  obtain ⟨-, fed, -⟩ := restartFiu_effect (s := s.noteRestart) h
  have hesc : s.noteRestart.restartFiu.restartCsc.restartDdc.esc = s.feedGone := fed
  obtain ⟨muted, -⟩ := restartEsc_effect (hesc ▸ feedGone_consistent h)
  rw [hesc] at muted
  exact muted

/-- The notices to the site role of the streams stopping: CARRIER-STATE comes once, where CARINH was released, at the feed's loss
with no delay and otherwise as the schedule stops. -/
theorem streamsStopped_raised : Raised s s.streamsStopped .site
    (noticeAt s .restarted .none (.restart .streamRestart s.sst.storeInvalid) :: stoppedNotices s) := by
  obtain ⟨-, fed, lost⟩ := restartFiu_effect (s := s.noteRestart) h
  have hesc : s.noteRestart.restartFiu.restartCsc.restartDdc.esc = s.feedGone := fed
  have time : s.noteRestart.restartFiu.restartCsc.restartDdc.tbu = s.tbu := restartFiu_frame s.noteRestart .tbu (by decide)
  obtain ⟨-, stopped⟩ := restartEsc_effect (hesc ▸ feedGone_consistent h)
  rw [hesc, noticeAt_congr time] at stopped
  have feed : Raised s.noteRestart s.noteRestart.restartFiu .site (goneNotices s) := lost
  have carrier := (feed.append (stopped.of_mgp rfl)).of_eq (goneNotices_stopped s).symm
  exact ((noteRestart_raised s) .site).append carrier

end

/-- The Emission Scheduler after a restart, field by field (R58, R60, R65). -/
theorem feedGone_stopped_muted (s : State) (out : Bool) (hout : out = decide (s.fiu.state = .on)) :
    s.feedGone.stopped.muted .schedule = { s.esc with
      running := false, anchors := [], next := none, fetchPos := none, requested := [], fills := []
      lastEmission := s.esc.lastDriven
      mute := { s.esc.mute with
        feed := s.esc.mute.feed || (out && decide (s.sst.live.feedMuteDelay = 0)), schedule := true }
      carinh := .asserted
      port := none
      feedOutTimer := if out then (if s.sst.live.feedMuteDelay = 0 then none else some 0) else s.esc.feedOutTimer
      counters := { s.esc.counters with
        carrierCutoffs := if s.esc.driving then bump s.esc.counters.carrierCutoffs else s.esc.counters.carrierCutoffs } } := by
  subst hout
  unfold State.feedGone
  by_cases hs : s.fiu.state = .on
  · by_cases hd : s.sst.live.feedMuteDelay = 0
    · rw [if_pos hs, if_pos hd, decide_eq_true hs, if_pos rfl, if_pos hd, decide_eq_true hd, Bool.and_self, Bool.or_true]
      rfl
    · rw [if_pos hs, if_neg hd, decide_eq_true hs, if_pos rfl, if_neg hd, decide_eq_false hd, Bool.and_false, Bool.or_false]
      rfl
  · rw [if_neg hs, decide_eq_false hs, Bool.false_and, Bool.or_false]
    rfl

/-! ## The restart as a whole (R199) -/

theorem ownStreamRestart_state (s : State) : (ownStreamRestart s).state = s.streamsStopped.restartBpu.restartSpe := rfl

theorem restartBpu_onlyNotifies (s : State) : OnlyNotifies s s.restartBpu := .foldl restartEntry_onlyNotifies _ s

theorem restartSpe_onlyNotifies (s : State) : OnlyNotifies s s.restartSpe := by
  unfold State.restartSpe
  exact (OnlyNotifies.foldl releaseAtRestart_onlyNotifies Service.all s).trans (.of_mgp rfl)

theorem ownStreamRestart_onlyNotifies (s : State) : OnlyNotifies s (ownStreamRestart s).state := by
  rw [ownStreamRestart_state]
  exact ((streamsStopped_onlyNotifies s).trans (restartBpu_onlyNotifies _)).trans (restartSpe_onlyNotifies _)

/-- The restart at the break table (R111). -/
theorem restartBpu_effect {s : State} (hn : (s.bpu.table.map (·.number)).Nodup) :
    s.restartBpu.bpu = { s.bpu with table := s.bpu.table.map BreakEntry.restarted }
      ∧ s.restartBpu.csc = { s.csc with
          directory := unpinned s.csc.directory (s.bpu.table.flatMap BreakEntry.restartPins) }
      ∧ RaisedBoth s s.restartBpu (s.bpu.table.flatMap (restartNotices s)) := foldl_restartEntry s s.bpu.table [] s rfl rfl hn

/-- The restart at the Splice Engine (R173). -/
theorem restartSpe_effect (s : State) : s.restartSpe.spe = { counters := s.spe.counters }
      ∧ s.restartSpe.csc = { s.csc with
          directory := unpinned s.csc.directory (Service.all.flatMap (fun v => (s.spe.services.get v).slate.toList)) }
      ∧ Raised s s.restartSpe .site (Service.all.flatMap (slateNotice s))
      ∧ s.restartSpe.mgp.ports.get .insertion = s.mgp.ports.get .insertion := by
  obtain ⟨hcsc, hraised, hport, hcount⟩ := foldl_releaseAtRestart s Service.all s (by decide) rfl (fun _ _ => rfl)
  unfold State.restartSpe
  refine ⟨?_, hcsc, hraised, hport⟩
  dsimp only
  rw [State.setSpe_spe, hcount]

theorem restartNotices_congr {s t : State} (h : t.tbu = s.tbu) : restartNotices t = restartNotices s := by
  funext e
  unfold restartNotices
  rw [noticeAt_congr h]

theorem slateNotice_congr {s t : State} (h : t.tbu = s.tbu) (hs : t.spe = s.spe) : slateNotice t = slateNotice s := by
  funext v
  unfold slateNotice
  rw [noticeAt_congr h, hs]

/-- A restart at its owners, block by block. -/
theorem ownStreamRestart_effect {s t : State} (hc : s.CarrierConsistent) (hn : (s.bpu.table.map (·.number)).Nodup)
    (ht : t = (ownStreamRestart s).state) :
    t.sst = { s.sst with cause := .streamRestart }
      ∧ t.fiu = { s.fiu.emptied s.sst.live with state := .absent }
      ∧ t.csc = { s.csc with
          written := []
          directory := unpinned s.csc.directory (s.bpu.table.flatMap BreakEntry.restartPins
            ++ Service.all.flatMap (fun v => (s.spe.services.get v).slate.toList))
          reads := s.csc.reads.filterMap FetchRead.atRestart
          taken := s.csc.taken.map TakenRead.atRestart }
      ∧ t.ddc = { s.ddc with inHand := none, lastSeq := none }
      ∧ t.esc = s.feedGone.stopped.muted .schedule
      ∧ t.bpu = { s.bpu with table := s.bpu.table.map BreakEntry.restarted }
      ∧ t.spe = { counters := s.spe.counters }
      ∧ Raised s t .insertion (noticeAt s .restarted .none (.restart .streamRestart s.sst.storeInvalid)
          :: s.bpu.table.flatMap (restartNotices s))
      ∧ Raised s t .site (noticeAt s .restarted .none (.restart .streamRestart s.sst.storeInvalid)
          :: (stoppedNotices s ++ s.bpu.table.flatMap (restartNotices s) ++ Service.all.flatMap (slateNotice s))) := by
  subst ht
  rw [ownStreamRestart_state]
  have consistent : s.esc.CarinhConsistent := hc.carinh
  have hbpu : s.streamsStopped.bpu = s.bpu := streamsStopped_frame s .bpu (by decide)
  have htbu : s.streamsStopped.tbu = s.tbu := streamsStopped_frame s .tbu (by decide)
  have bpu := restartBpu_frame s.streamsStopped
  have spe := restartSpe_frame s.streamsStopped.restartBpu
  have hspe : s.streamsStopped.restartBpu.spe = s.spe := (bpu .spe (by decide)).trans (streamsStopped_frame s .spe (by decide))
  have hcsc : s.streamsStopped.csc = s.noteRestart.restartFiu.restartCsc.csc :=
    restartEsc_frame s.noteRestart.restartFiu.restartCsc.restartDdc .csc (by decide)
  have hsst : s.streamsStopped.sst = s.noteRestart.restartFiu.restartCsc.restartDdc.sst := restartEsc_frame _ .sst (by decide)
  have hddc : s.streamsStopped.ddc = s.noteRestart.restartFiu.restartCsc.restartDdc.ddc := restartEsc_frame _ .ddc (by decide)
  obtain ⟨table, pins, both⟩ := restartBpu_effect (s := s.streamsStopped) (hbpu ▸ hn)
  obtain ⟨counts, slates, site, port⟩ := restartSpe_effect s.streamsStopped.restartBpu
  have fed := restartFiu_frame s.noteRestart
  rw [hbpu] at table pins both
  rw [restartNotices_congr htbu] at both
  rw [hspe] at counts slates
  rw [slateNotice_congr ((bpu .tbu (by decide)).trans htbu) hspe] at site
  refine ⟨?_, ?_, ?_, ?_, ?_, ?_, counts, ?_, ?_⟩
  · exact (spe .sst (by decide)).trans ((bpu .sst (by decide)).trans (hsst.trans (fed .sst (by decide))))
  · exact (spe .fiu (by decide)).trans ((bpu .fiu (by decide)).trans (streamsStopped_fiu consistent))
  · have kept : s.noteRestart.restartFiu.csc = s.csc := fed .csc (by decide)
    rw [slates, pins, unpinned_append, hcsc, State.restartCsc, State.setCsc_csc, kept]
  · have kept : s.noteRestart.restartFiu.ddc = s.ddc := fed .ddc (by decide)
    refine (spe .ddc (by decide)).trans ((bpu .ddc (by decide)).trans ?_)
    rw [hddc, State.restartDdc, State.setDdc_ddc]
    exact congrArg (fun d : Ddc => { d with inHand := none, lastSeq := none }) kept
  · exact (spe .esc (by decide)).trans ((bpu .esc (by decide)).trans (streamsStopped_esc consistent))
  · exact (spe .bpu (by decide)).trans table
  · have noted : Raised s s.streamsStopped .insertion
        [noticeAt s .restarted .none (.restart .streamRestart s.sst.storeInvalid)] := by
      have raised := noteRestart_raised s .insertion
      unfold Raised at raised ⊢
      rw [streamsStopped_insertion]
      exact raised
    have raised := noted.append (both .insertion)
    unfold Raised at raised ⊢
    rw [port]
    exact raised
  · exact (((streamsStopped_raised consistent).append (both .site)).append site).of_eq (by simp)

/-! ## The command -/

theorem exec_streamRestart {s : State} (h : s.Listens .site) : exec (.streamRestart .site) s =
    .next ((ownStreamRestart (s.commanded .site .streamRestart [])).state.record .site CommandKind.streamRestart.code .done []) :=
  (ifRunning_of_running h.1 (·.takeCommand .site .streamRestart [] ownStreamRestart)).trans
    (congrArg _ (takeCommand_taken s .site .streamRestart [] _ h.2 (.inr rfl)))

/-- Settles O50: the blocks' effects (`ownStreamRestart_effect`) on the state that holds the command. -/
theorem streamRestartReachesEachBlock : Obligations.StreamRestartReachesEachBlock := by
  rintro s out why hl hc hn hout rfl
  have hexec := exec_streamRestart hl
  have frame : OnlyChanges [.mgp, .fiu, .esc, .ddc, .bpu, .csc, .spe, .sst] s _ := exec_frame hexec
  have notifies := ownStreamRestart_onlyNotifies (s.commanded .site .streamRestart [])
  obtain ⟨sst, fiu, csc, ddc, esc, bpu, spe, insertion, site⟩ :=
    ownStreamRestart_effect (s := s.commanded .site .streamRestart []) hc hn rfl
  have carrier := esc.trans (feedGone_stopped_muted (s.commanded .site .streamRestart []) out hout)
  refine ⟨_, hexec, notifies.answered, sst, fiu, ?_, ddc, carrier, bpu, fun n e he => ?_, spe, ?_, frame.widen (by simp),
    notifies.commanded_answersAndNotifies⟩
  · rw [dropPins_csc]
    exact csc
  · have found := find_map_number s.bpu.table n BreakEntry.restarted restarted_number
    unfold State.findBreak? at he ⊢
    rw [he] at found
    exact (congrArg (fun b : Bpu => b.table.find? (fun x => x.number == n)) bpu).trans found
  · rintro both rfl
    exact ⟨insertion.commanded, site.commanded⟩

end Machine
end Sys2Proof
end

section
/-! PROOFS. The operations of the Emission Scheduler, each as one update of its fields: mute reasons, the fetch position, the
examination of slots, marks, emission and fill (R44 to R60). -/

set_option Elab.async false

namespace Sys2Proof
namespace Machine

/-! ## Mute reasons (R57, R60) -/

theorem MuteReasons.any_of_any_put_false {m : MuteReasons} {r : MuteReason} (h : (m.put r false).any = true) : m.any = true := by
  cases hm : m.any with
  | true => rfl
  | false => cases h.symm.trans (MuteReasons.any_put_false hm r)

theorem setMute_mute (s : State) (r : MuteReason) (b : Bool) : (s.setMute r b).esc.mute = s.esc.mute.put r b := by
  unfold State.setMute
  split
  · next h => rw [← h, MuteReasons.put_has]
  · dsimp only
    split
    · split <;> rfl
    · split <;> rfl

/-- CARINH follows the reasons through any change of one (R57, R60). -/
theorem setMute_carinhConsistent {s : State} (h : s.esc.CarinhConsistent) (r : MuteReason) :
    ∀ b, (s.setMute r b).esc.CarinhConsistent
  | true => by
    rw [setMute_asserts_esc h]
    exact Esc.muted_consistent _ _
  | false => by
    unfold State.setMute
    split
    · exact h
    · dsimp only
      split
      · next any =>
        have asserted : s.esc.carinh = .asserted := h.1.2 (MuteReasons.any_of_any_put_false any)
        rw [asserted]
        exact ⟨⟨fun _ => any, fun _ => rfl⟩, fun hp => nomatch asserted.symm.trans (h.2 hp)⟩
      · next none =>
        split
        · next asserted => exact ⟨⟨nofun, (absurd · none)⟩, fun hp => nomatch asserted.symm.trans (h.2 hp)⟩
        · next pending => exact ⟨⟨fun ha => (nomatch pending.symm.trans ha), (absurd · none)⟩, h.2⟩
        · next released => exact ⟨⟨fun ha => (nomatch released.symm.trans ha), (absurd · none)⟩, h.2⟩

/-! ## The fetch position and the examination (R46, R50, R51) -/

theorem refreshFetch_of_next {s : State} {n : NextSlot} (h : s.esc.next = some n) : s.refreshFetch = s.setEsc { s.esc with
    fetchPos := some ((firstWaiting? s.csc.reads).getD n.slot)
    anchors := anchorsFrom ((firstWaiting? s.csc.reads).getD n.slot) s.esc.anchors } := by
  unfold State.refreshFetch
  rw [h]

theorem refreshFetch_of_none {s : State} (h : s.esc.next = none) : s.refreshFetch = s := by
  unfold State.refreshFetch
  rw [h]

/-- The fetch position moves, and anchors go; nothing else of the Emission Scheduler changes. -/
theorem refreshFetch_esc (s : State) : s.refreshFetch.esc = { s.esc with
    fetchPos := s.refreshFetch.esc.fetchPos, anchors := s.refreshFetch.esc.anchors } := by
  cases h : s.esc.next with
  | none => rw [refreshFetch_of_none h]
  | some n =>
    rw [refreshFetch_of_next h]
    rfl

theorem examine_of_accepted {s : State} {slot : Word32} {n : NextSlot} {k : Nat}
    (h : firstAccepted s.tbu.time s.esc.lastEmission slot (anchorsFrom slot s.esc.anchors) = some (n, k)) :
    s.examine slot = s.setEsc { s.esc with
      next := some n
      fetchPos := some ((firstWaiting? s.csc.reads).getD n.slot)
      anchors := anchorsFrom ((firstWaiting? s.csc.reads).getD n.slot) s.esc.anchors
      counters := { s.esc.counters with skippedSlots := bumpBy s.esc.counters.skippedSlots k } } := by
  unfold State.examine
  rw [h]
  dsimp only
  rw [refreshFetch_of_next (by rfl)]
  rfl

/-- An examination leaves the requests, the fills and the carrier of the Emission Scheduler. -/
theorem examine_esc (s : State) (slot : Word32) : (s.examine slot).esc = { s.esc with
    next := (s.examine slot).esc.next, fetchPos := (s.examine slot).esc.fetchPos
    anchors := (s.examine slot).esc.anchors, counters := (s.examine slot).esc.counters } := by
  cases h : firstAccepted s.tbu.time s.esc.lastEmission slot (anchorsFrom slot s.esc.anchors) with
  | none =>
    unfold State.examine
    rw [h]
  | some x =>
    rw [examine_of_accepted h]
    rfl

/-! ## Marks (R45, R48) -/

/-- The Emission Scheduler as a first mark's anchor starts its schedule (R48). -/
def Esc.started (e : Esc) (a : Anchor) : Esc := { e with running := true, anchors := [a], fetchPos := some a.ref }

theorem startRunning_eq (s : State) (a : Anchor) :
    s.startRunning a = ((s.setEsc (s.esc.started a)).setMute .schedule false).examine a.ref := rfl

/-! ## Emission (R54 to R56, R60) -/

/-- The packet of a slot changes of the Emission Scheduler the requested slots and the late fetches (R53). -/
theorem slotPacket_esc (s : State) (q : Requested) : (s.slotPacket q).1.esc = { s.esc with
    requested := s.esc.requested.drop 1
    counters := if q.done then s.esc.counters else { s.esc.counters with fetchLate := bump s.esc.counters.fetchLate } } := by
  unfold State.slotPacket
  dsimp only
  split
  · exact completeSlot_frame _ _ _ .esc (by decide)
  · rfl

/-- CARINH at an instant: a pending release takes place (R60). -/
theorem carrierInstant_esc (s : State) : s.carrierInstant.esc = { s.esc with
    carinh := if s.esc.carinh = .asserted then .asserted else .released } := by
  unfold State.carrierInstant
  split
  · next h => simp [h]
  · next h => rw [if_neg (by simp [h]), ← h]
  · next h => rw [if_pos h, ← h]

/-- A packet is driven where CARINH is released (R54, R56). -/
theorem drive_esc (s : State) (instant : SiteTime) (packet : List Byte) : (s.drive instant packet).esc = { s.esc with
    port := if s.esc.carinh = .released then some ⟨packet, 0⟩ else s.esc.port
    lastDriven := if s.esc.carinh = .released then some instant else s.esc.lastDriven } := by
  unfold State.drive
  split
  · next h => simp [h]
  · next h => rw [if_neg (by simp [h]), if_neg (by simp [h])]
  · next h => rw [if_neg (by simp [h]), if_neg (by simp [h])]

/-- An instant of the emission: a packet goes out where CARINH is released or its release was pending (R54, R55, R60). -/
theorem instant_esc (s : State) (instant : SiteTime) (packet : List Byte) :
    (s.carrierInstant.drive instant packet).esc = if s.esc.carinh = .asserted then s.esc
      else { s.esc with carinh := .released, port := some ⟨packet, 0⟩, lastDriven := some instant } := by
  rw [drive_esc, carrierInstant_esc]
  split
  · next h => rw [if_neg nofun, if_neg nofun, ← h]
  · rw [if_pos rfl, if_pos rfl]

/-- Fill is placed in the fills, and moves the last emission instant (R55). -/
theorem placeFill_esc (e : Esc) (t : SiteTime) : e.placeFill t = { e with
    fills := (e.placeFill t).fills, lastEmission := (e.placeFill t).lastEmission } := by
  unfold Esc.placeFill
  split
  · dsimp only
    split <;> rfl
  · rfl

end Machine
end Sys2Proof
end

section
/-! PROOFS. CARINH and the mute reasons stay consistent through every step (R56, R57, R60). -/

set_option Elab.async false

namespace Sys2Proof
namespace Machine

/-- A change of the part that keeps the carrier consistent with its reasons. -/
def CarrierKept (s t : State) : Prop := s.CarrierConsistent → t.CarrierConsistent

namespace CarrierKept
variable {s t u : State}

theorem refl (s : State) : CarrierKept s s := id

theorem trans (h : CarrierKept s t) (k : CarrierKept t u) : CarrierKept s u := fun c => k (h c)

theorem after (k : CarrierKept t u) (h : CarrierKept s t) : CarrierKept s u := h.trans k

theorem ite {c : Prop} [Decidable c] (h : CarrierKept s t) (k : CarrierKept s u) : CarrierKept s (if c then t else u) := by
  split
  · exact h
  · exact k

/-- What leaves the discipline state, the reasons, the schedule's state, CARINH and the port alone. -/
theorem of_same (hstate : t.tbu.state = s.tbu.state := by exact rfl) (hmute : t.esc.mute = s.esc.mute := by exact rfl)
    (hrun : t.esc.running = s.esc.running := by exact rfl) (hcarinh : t.esc.carinh = s.esc.carinh := by exact rfl)
    (hport : t.esc.port = s.esc.port := by exact rfl) : CarrierKept s t := by
  intro c
  unfold State.CarrierConsistent at c ⊢
  rwa [hstate, hmute, hrun, hcarinh, hport]

theorem of_esc (hstate : t.tbu.state = s.tbu.state) (hesc : t.esc = s.esc) : CarrierKept s t :=
  .of_same hstate (by rw [hesc]) (by rw [hesc]) (by rw [hesc]) (by rw [hesc])

theorem of_frame {a : List Part} (h : OnlyChanges a s t) (ht : .tbu ∉ a := by decide) (he : .esc ∉ a := by decide) :
    CarrierKept s t := .of_esc (congrArg Tbu.state (h .tbu ht)) (h .esc he)

/-- A change of the Time Base Unit that ends in its notices keeps the carrier consistent, whatever state it leads to (R57). -/
theorem afterTbu (he : u.esc = s.esc) : CarrierKept s (u.afterTbu s.tbu.state) := by
  intro c
  obtain ⟨-, schedule, carinh⟩ := id c
  have muted := afterTbu_muteTaken c he
  have fields := setMute_esc s .timing (!u.tbu.state.fit)
  refine ⟨?_, ?_, ?_⟩
  · rw [muted.timing, State.afterTbu_tbu]
  · rw [muted.1, afterTbu_esc c he, fields]
    exact schedule
  · rw [afterTbu_esc c he]
    exact setMute_carinhConsistent carinh .timing _

end CarrierKept

theorem carrierKept_beyondPort : BeyondPort CarrierKept where
  trans := .trans
  port h := .of_frame h

theorem ifRunning_carrierKept {s t : State} {f : State → State} (h : ifRunning s f = .next t) (hf : CarrierKept s (f s)) :
    CarrierKept s t := by
  rcases ifRunning_next h with rfl | rfl
  · exact .refl t
  · exact hf

/-! ## Mute reasons -/

/-- NETWORK, SITE and FEED bear on CARINH alone. -/
theorem setMute_carrierKept (s : State) (r : MuteReason) (b : Bool) (ht : r ≠ .timing) (hs : r ≠ .schedule) :
    CarrierKept s (s.setMute r b) := by
  rintro ⟨timing, schedule, carinh⟩
  refine ⟨?_, ?_, setMute_carinhConsistent carinh r b⟩
  · rw [setMute_mute, State.setMute_tbu, ← timing]
    cases r <;> first | rfl | contradiction
  · rw [setMute_mute, setMute_esc]
    refine Eq.trans ?_ schedule
    cases r <;> first | rfl | contradiction

theorem feedOut_carrierKept (s : State) : CarrierKept s s.feedOut :=
  .after (setMute_carrierKept _ .feed true nofun nofun) .of_same

/-! ## The Time Base Unit -/

theorem pulse_carrierKept (s : State) : CarrierKept s s.pulse := by
  unfold State.pulse
  dsimp only
  split
  · refine .afterTbu ?_
    split
    · exact (setTime_frame (s.setTbu { s.tbu with held := none }) _) .esc (by decide)
    · exact (takenPulse_frame (s.setTbu { s.tbu with held := none }) _) .esc (by decide)
  · exact .of_same

theorem execSiteSecondBoundary_carrierKept {s t : State} (h : execSiteSecondBoundary s = .next t) : CarrierKept s t :=
  ifRunning_carrierKept h (.ite (.after (.afterTbu (s := s.cycle) rfl) cycle_carrierConsistent) (.refl s))

theorem execMissingPulse_carrierKept {s t : State} (h : execMissingPulse s = .next t) : CarrierKept s t :=
  ifRunning_carrierKept h (.ite (.afterTbu rfl) (.refl s))

theorem execRefokFall_carrierKept {s t : State} (h : execRefokFall s = .next t) : CarrierKept s t := by
  unfold execRefokFall at h
  split at h
  · exact (CarrierKept.of_same (t := s.setRefok false)).trans (ifRunning_carrierKept h (.afterTbu rfl))
  · exact Host.Outcome.next.inj h ▸ .refl s

theorem receive_carrierKept (s : State) (b : Byte) (stopHigh : Bool) : CarrierKept s (s.receive b stopHigh) := by
  have bad : ∀ s, CarrierKept s (State.badMessage s) := fun s => .of_same
  have join : ∀ s, CarrierKept s (State.joinByte s b stopHigh) := fun s => by
    unfold State.joinByte
    exact .ite (.ite (.ite .of_same (bad s)) .of_same) (bad s)
  unfold State.receive
  split
  · exact (bad s).trans (join _)
  · exact join s

theorem execSteeringWordSent_carrierKept {s t : State} (h : execSteeringWordSent s = .next t) : CarrierKept s t := by
  refine ifRunning_carrierKept h ?_
  split
  · exact .of_same
  · exact .refl s

/-! ## The Feed Intake -/

theorem setFeed_carrierKept (s : State) (x : FeedState) : CarrierKept s (s.setFeed x) := by
  have noted : CarrierKept s (s.feedNoted x) := .of_same
  unfold State.setFeed
  refine .ite (.refl s) (.ite (.after (setMute_carrierKept _ .feed false nofun nofun) (.after .of_same noted)) (.ite ?_ noted))
  exact .after (.ite (feedOut_carrierKept (s.feedNoted x)) .of_same) noted

theorem loseFeed_carrierKept (s : State) : CarrierKept s s.loseFeed := .after (setFeed_carrierKept _ _) .of_same

theorem goodPacket_carrierKept (s : State) : CarrierKept s s.goodPacket := by
  unfold State.goodPacket
  split
  · exact .after (setFeed_carrierKept _ _) .of_same
  · exact .ite (.after (setFeed_carrierKept _ _) .of_same) .of_same
  · exact .of_same
  · exact .after (setFeed_carrierKept _ _) .of_same

theorem badPacket_carrierKept (s : State) : CarrierKept s s.badPacket := by
  unfold State.badPacket
  split
  · exact .refl s
  · exact .of_same
  · exact .ite (.after (loseFeed_carrierKept _) .of_same) .of_same
  · exact .refl s

theorem execPacketComplete_carrierKept {s t : State} {l : List Byte} {e : Bool} (h : execPacketComplete l e s = .next t) :
    CarrierKept s t := by
  refine ifRunning_carrierKept h ?_
  split
  case h_1 => exact .ite (.ite (.after (goodPacket_carrierKept _) .of_same) (.after (badPacket_carrierKept _) .of_same)) (.refl s)
  all_goals exact .refl s

theorem execShortPacket_carrierKept {s t : State} {b : Byte} {e : Bool} (h : execShortPacket b e s = .next t) :
    CarrierKept s t := by
  refine ifRunning_carrierKept h ?_
  split
  case h_1 => exact .after (badPacket_carrierKept _) .of_same
  all_goals exact .refl s

theorem execGapExpiry_carrierKept {s t : State} (h : execGapExpiry s = .next t) : CarrierKept s t := by
  refine ifRunning_carrierKept h (.ite ?_ (.refl s))
  dsimp only
  split
  · exact .after (loseFeed_carrierKept _) .of_same
  · exact .after (setFeed_carrierKept _ _) .of_same
  · exact .of_same
  · exact .of_same

/-! ## The schedule (R44 to R52) -/

theorem refreshFetch_carrierKept (s : State) : CarrierKept s s.refreshFetch := by
  have fields := refreshFetch_esc s
  exact .of_same (congrArg Tbu.state (refreshFetch_frame s .tbu (by decide))) (by rw [fields]) (by rw [fields]) (by rw [fields])
    (by rw [fields])

theorem examine_carrierKept (s : State) (slot : Word32) : CarrierKept s (s.examine slot) := by
  have fields := examine_esc s slot
  exact .of_same (congrArg Tbu.state (examine_frame s slot .tbu (by decide))) (by rw [fields]) (by rw [fields]) (by rw [fields])
    (by rw [fields])

theorem countEsc_carrierKept (s : State) (f : EscCounters → EscCounters) : CarrierKept s (s.countEsc f) := .of_same

/-- The schedule runs, and SCHEDULE goes with the same event (R48, R57). -/
theorem startRunning_carrierKept (s : State) (a : Anchor) : CarrierKept s (s.startRunning a) := by
  refine .after (examine_carrierKept _ _) ?_
  rintro ⟨timing, -, carinh⟩
  have started : (s.setEsc (s.esc.started a)).esc.CarinhConsistent := carinh
  refine ⟨?_, ?_, setMute_carinhConsistent started .schedule false⟩
  · rw [setMute_mute, State.setMute_tbu]
    exact timing
  · rw [setMute_mute, setMute_esc]
    rfl

theorem checkStep_carrierKept (s : State) (n a : Anchor) : CarrierKept s (s.checkStep n a) := .ite .of_same (.refl s)

theorem appendAnchor_carrierKept (s : State) (m : Mark) (n a : Anchor) : CarrierKept s (s.appendAnchor m n a) := by
  have appended : ∀ (u : State) (as : List Anchor) (c : EscCounters),
      CarrierKept u (u.setEsc { u.esc with anchors := as, counters := c }) := fun u as c => .of_same
  exact .after (refreshFetch_carrierKept _) (.after (appended _ _ _) (checkStep_carrierKept s n a))

theorem takeMark_carrierKept (s : State) (m : Mark) (slot : Word32) : CarrierKept s (s.takeMark m slot) := by
  have refused : CarrierKept s s.refuseMark := countEsc_carrierKept s _
  unfold State.takeMark
  refine .ite ?_ refused
  dsimp only
  split
  · exact startRunning_carrierKept s _
  · exact .ite (.ite (appendAnchor_carrierKept s m _ _) (countEsc_carrierKept s _)) refused

theorem reachMark_carrierKept (s : State) (h : InHand) (d : Directive) : CarrierKept s (s.reachMark h d) := by
  unfold State.reachMark
  split
  · exact .of_same
  · exact .ite (takeMark_carrierKept s _ _) .of_same

theorem reachMute_carrierKept (s : State) (h : InHand) (d : Directive) : CarrierKept s (s.reachMute h d) :=
  .ite (.ite (setMute_carrierKept s .network _ nofun nofun) .of_same) .of_same

theorem onDirective_carrierKept {s t : State} {k : Byte → Bool} {f : State → InHand → Directive → State}
    (h : ifRunning s (·.onDirective k f) = .next t) (hf : ∀ s i d, CarrierKept s (f s i d)) : CarrierKept s t := by
  refine ifRunning_carrierKept (f := (·.onDirective k f)) h ?_
  unfold State.onDirective
  split
  · split
    · exact .ite (.after .of_same (hf s _ _)) (.refl s)
    · exact .refl s
  · exact .refl s

theorem execFetchRequest_carrierKept {s t : State} (h : execFetchRequest s = .next t) : CarrierKept s t := by
  refine ifRunning_carrierKept h ?_
  split
  · exact .after (examine_carrierKept _ _) .of_same
  · exact .refl s

theorem execRingReadTaken_carrierKept {s t : State} (h : execRingReadTaken s = .next t) : CarrierKept s t := by
  refine ifRunning_carrierKept h (.ite ?_ (.refl s))
  split
  · exact .after (refreshFetch_carrierKept _) .of_same
  all_goals exact .refl s

theorem deliverSlot_carrierKept (s : State) (q : Requested) (mark : Bool) (bytes : List Byte) :
    CarrierKept s (s.deliverSlot q mark bytes) :=
  .after .of_same (.after (.of_frame (handOff_frame _ _ _ _ _)) (countEsc_carrierKept s _))

theorem execRingReadComplete_carrierKept {s t : State} (h : execRingReadComplete s = .next t) : CarrierKept s t := by
  refine ifRunning_carrierKept h ?_
  split
  · dsimp only
    split
    · exact .ite (.after (deliverSlot_carrierKept _ _ _ _) .of_same) .of_same
    · exact .of_same
  all_goals exact .refl s

/-! ## Emission and fill (R53 to R56) -/

/-- A packet is driven only where CARINH is released, or is so from this instant on (R54, R60). -/
theorem instant_carrierKept (s : State) (instant : SiteTime) (packet : List Byte) :
    CarrierKept s (s.carrierInstant.drive instant packet) := by
  rintro ⟨timing, schedule, asserted, port⟩
  have state : (s.carrierInstant.drive instant packet).tbu = s.tbu := by rw [State.drive_tbu, State.carrierInstant_tbu]
  unfold State.CarrierConsistent
  rw [state, instant_esc]
  split
  · exact ⟨timing, schedule, asserted, port⟩
  · next h => exact ⟨timing, schedule, ⟨nofun, fun any => absurd (asserted.2 any) h⟩, fun _ => rfl⟩

theorem emitSlot_carrierKept (s : State) (q : Requested) : CarrierKept s (s.emitSlot q) := by
  have taken := slotPacket_esc s q
  have packet : CarrierKept s (s.slotPacket q).1 := .of_same (congrArg Tbu.state (slotPacket_frame s q .tbu (by decide)))
    (by rw [taken]) (by rw [taken]) (by rw [taken]) (by rw [taken])
  have filled : ∀ u : State, CarrierKept u (u.setEsc (u.esc.placeFill q.instant)) := fun u => by
    have fields := placeFill_esc u.esc q.instant
    rw [fields]
    exact .of_same
  exact .after (filled _) (.after (instant_carrierKept _ _ _) packet)

theorem emitFill_carrierKept (s : State) (f : FillRun) : CarrierKept s (s.emitFill f) :=
  .after (instant_carrierKept _ _ _) .of_same

theorem execSlotEmission_carrierKept {s t : State} (h : execSlotEmission s = .next t) : CarrierKept s t := by
  refine ifRunning_carrierKept h ?_
  split
  · exact emitSlot_carrierKept s _
  all_goals exact .refl s

theorem execFillEmission_carrierKept {s t : State} (h : execFillEmission s = .next t) : CarrierKept s t := by
  refine ifRunning_carrierKept h ?_
  split
  · exact emitFill_carrierKept s _
  all_goals exact .refl s

theorem execDrivenPacketEnd_carrierKept {s t : State} (h : execDrivenPacketEnd s = .next t) : CarrierKept s t := by
  refine ifRunning_carrierKept h (.ite ?_ (.refl s))
  rintro ⟨timing, schedule, asserted, -⟩
  exact ⟨timing, schedule, asserted, nofun⟩

/-! ## Settings, resets and the Management Port -/

theorem applySetting_carrierKept (s : State) (o : OperatingSetting) : CarrierKept s (s.applySetting o) := by
  unfold State.applySetting
  split
  case h_1 => exact .afterTbu rfl
  case h_2 => exact .of_same
  case h_3 => exact .ite (feedOut_carrierKept s) (.refl s)
  all_goals exact .refl s

theorem ownOperating_carrierKept (o : OperatingSetting) (v : Word32) (s : State) : CarrierKept s (ownOperating o v s).state := by
  unfold ownOperating
  split
  · exact .after (applySetting_carrierKept _ o) .of_same
  · exact .refl s

theorem ownSettingsWrite_carrierKept (d : List Byte) (s : State) : CarrierKept s (ownSettingsWrite d s).state := by
  have once : ∀ w v, CarrierKept s (ownWriteOnce w v s).state := fun w v => .of_frame (ownWriteOnce_frame w v s)
  unfold ownSettingsWrite
  dsimp only
  split
  · exact .refl s
  · split
    case h_5 =>
      split
      · exact .refl s
      · split
        · exact ownOperating_carrierKept _ _ s
        · exact .refl s
    all_goals exact once _ _

/-- A stream restart stops the schedule with SCHEDULE set, and leaves the discipline state (R65, R199). -/
theorem ownStreamRestart_carrierKept (s : State) : CarrierKept s (ownStreamRestart s).state := by
  rintro ⟨timing, -, carinh⟩
  have rest := (restartBpu_frame s.streamsStopped).seq (restartSpe_frame _) (c := [.bpu, .csc, .spe, .mgp])
  have esc : (ownStreamRestart s).state.esc = s.feedGone.stopped.muted .schedule :=
    (rest .esc (by decide)).trans (streamsStopped_esc carinh)
  have tbu : (ownStreamRestart s).state.tbu = s.tbu := ownStreamRestart_frame s .tbu (by decide)
  have gone : s.feedGone.mute.timing = s.esc.mute.timing := by
    unfold State.feedGone
    split
    · split <;> rfl
    · rfl
  refine ⟨?_, ?_, ?_⟩
  · rw [tbu, esc, ← timing]
    exact gone
  · rw [esc]
    rfl
  · rw [esc]
    exact Esc.muted_consistent _ _

theorem commandOwner_carrierKept (r : Role) (k : CommandKind) (args : List Byte) (s : State) :
    CarrierKept s (commandOwner r k args s).state := by
  cases k
  case forceMute => exact setMute_carrierKept s .site true nofun nofun
  case releaseMute => exact setMute_carrierKept s .site false nofun nofun
  case streamRestart => exact ownStreamRestart_carrierKept s
  case clearCounters => exact .of_same
  all_goals exact .of_frame (commandOwner_frame r _ args s)

theorem writePhase_carrierKept (s : State) (a : BitVec 7) (bytes : List Byte) (byStop : Bool) :
    CarrierKept s (s.writePhase a bytes byStop) :=
  carrierKept_beyondPort.writePhase s a bytes byStop commandOwner_carrierKept
    (fun r c d s => .of_frame (ownStaging_frame r c d s)) ownSettingsWrite_carrierKept
    (fun d s => .of_frame (ownEditRecord_frame d s))

/-- A part in reset has CARINH asserted with TIMING and SCHEDULE standing, in UNSET and STOPPED (R200). -/
theorem enterReset_carrierConsistent (s : State) (src : ResetSource) : (s.enterReset src).CarrierConsistent :=
  ⟨rfl, rfl, ⟨fun _ => rfl, fun _ => rfl⟩, nofun⟩

theorem endReset_carrierConsistent (s : State) (src : ResetSource) (a1 a2 : Bool) : (s.endReset src a1 a2).CarrierConsistent := by
  unfold State.CarrierConsistent State.endReset Esc.afterReset
  dsimp only
  split <;> exact ⟨rfl, rfl, ⟨fun _ => rfl, fun _ => rfl⟩, nofun⟩

/-! ## Every command and every step -/

theorem takeCommand_carrierKept {s t : State} {r : Role} {k : CommandKind} {args : List Byte} {owner : State → Taken}
    (h : ifRunning s (·.takeCommand r k args owner) = .next t) (ho : ∀ s, CarrierKept s (owner s).state) :
    CarrierKept s t := ifRunning_carrierKept h (carrierKept_beyondPort.takeCommand s r k args owner ho)

theorem exec_carrierKept {c : Instr} {s t : State} (h : exec c s = .next t) : CarrierKept s t := by
  cases c
  case powerOn => exact Host.Outcome.next.inj h ▸ fun _ => enterReset_carrierConsistent s .powerOn
  case resetPin => exact Host.Outcome.next.inj h ▸ fun _ => enterReset_carrierConsistent s .resetPin
  case resetEnds a1 a2 =>
    change execResetEnds a1 a2 s = .next t at h
    unfold execResetEnds at h
    split at h
    · exact Host.Outcome.next.inj h ▸ fun _ => endReset_carrierConsistent s _ a1 a2
    · exact Host.Outcome.next.inj h ▸ .refl s
  case siteSecondBoundary => exact execSiteSecondBoundary_carrierKept h
  case ppsEdge => exact ifRunning_carrierKept h (pulse_carrierKept s)
  case missingPulse => exact execMissingPulse_carrierKept h
  case refokFall => exact execRefokFall_carrierKept h
  case timeMessage b e => exact ifRunning_carrierKept (f := (·.receive b e)) h (receive_carrierKept s b e)
  case timeMessageByte b e => exact ifRunning_carrierKept (f := (·.receive b e)) h (receive_carrierKept s b e)
  case timeMessageInterbyteTimeout =>
    exact ifRunning_carrierKept (f := fun s => if s.interbyteDue then s.badMessage else s) h (.ite .of_same (.refl s))
  case steeringWordSent => exact execSteeringWordSent_carrierKept h
  case packetComplete l e => exact execPacketComplete_carrierKept h
  case shortPacket b e => exact execShortPacket_carrierKept h
  case gapExpiry => exact execGapExpiry_carrierKept h
  case feedOutTimerExpiry => exact ifRunning_carrierKept h (.ite (feedOut_carrierKept s) (.refl s))
  case emissionMark => exact onDirective_carrierKept h reachMark_carrierKept
  case siteMute => exact onDirective_carrierKept h reachMute_carrierKept
  case fetchRequest => exact execFetchRequest_carrierKept h
  case ringReadTaken => exact execRingReadTaken_carrierKept h
  case ringReadComplete => exact execRingReadComplete_carrierKept h
  case slotEmission => exact execSlotEmission_carrierKept h
  case fillEmission => exact execFillEmission_carrierKept h
  case drivenPacketEnd => exact execDrivenPacketEnd_carrierKept h
  case forceMute r => exact takeCommand_carrierKept h (commandOwner_carrierKept r .forceMute [])
  case releaseMute r => exact takeCommand_carrierKept h (commandOwner_carrierKept r .releaseMute [])
  case streamRestart r => exact takeCommand_carrierKept h (commandOwner_carrierKept r .streamRestart [])
  case clearCounters r => exact takeCommand_carrierKept h (commandOwner_carrierKept r .clearCounters [])
  case operatingSettingWrite r o v =>
    exact ifRunning_carrierKept (f := (·.takeWrite r settingsObject true (ownOperating o v))) h
      (carrierKept_beyondPort.takeWrite s r _ true _ (ownOperating_carrierKept o v))
  case writePhase a b e => exact ifRunning_carrierKept (f := (·.writePhase a b e)) h (writePhase_carrierKept s a b e)
  all_goals exact .of_frame (exec_frame h) (by simp [touchedParts, CommandKind.touches]) (by simp [touchedParts, CommandKind.touches])

/-- A cycle of OSC27 moves the bytes of the driven packet on, and leaves the carrier (R56). -/
theorem advance_carrierKept (s : State) : CarrierKept s s.advance :=
  .ite .of_same (.after .of_same cycle_carrierConsistent)

theorem idle_carrierKept (s : State) : CarrierKept s s.idle := by
  unfold State.idle
  split
  · exact .refl s
  · unfold State.run
    split
    · exact .of_same
    · split
      · exact advance_carrierKept s
      · split
        · exact .of_same
        · exact .after (advance_carrierKept _) .of_same

theorem step_carrierKept {s t : State} (h : step s = .next t) : CarrierKept s t := by
  unfold step at h
  split at h
  · exact .after (exec_carrierKept h) .of_same
  · exact Host.Outcome.next.inj h ▸ idle_carrierKept s

/-- Settles O55: every command and every idle cycle keeps the carrier consistent (`step_carrierKept`). TIMING follows the discipline
state because every change of it ends in `State.afterTbu`; SCHEDULE changes with the schedule's start and the stream restart. -/
theorem stepKeepsCarrierConsistent : Obligations.StepKeepsCarrierConsistent := fun _ _ hs h => step_carrierKept h hs

end Machine
end Sys2Proof
end

section
/-! PROOFS. Mute orders and mute commands (R59, R78), and what comes at an instant of the emission: fill, the end of a driven packet
and the lines of the port (R54 to R56, R60). -/

set_option Elab.async false

namespace Sys2Proof
namespace Machine

/-! ## FORCE_MUTE and RELEASE_MUTE (R59, R60) -/

/-- SITE set or cleared at its owner and recorded, whichever of the two commands asks for it. -/
theorem siteMuted_answered {s t : State} (hc : s.CarrierConsistent) (k : CommandKind) (b : Bool)
    (ht : t = ((s.commanded .site k []).setMute .site b).record .site k.code .done []) :
    MuteTaken s t .site b ∧ Answered s t .site k [] .done [] ∧ Raised s t .site (assertNotice s t)
      ∧ OnlyChanges [.esc, .mgp] s t ∧ OnlyAnswersAndNotifies s t .site := by
  have hcc : (s.commanded .site k []).CarrierConsistent := hc
  have notifies := setMute_onlyNotifies (s.commanded .site k []) .site b
  have frame := ((updatePort_frame s .site (fun p => { p with command := some (BitVec.ofNat 8 k.code :: []) })).seq
    (setMute_frame _ .site b) (c := [.esc, .mgp])).seq (record_frame _ .site k.code .done []) (c := [.esc, .mgp])
  subst ht
  exact ⟨setMute_taken _ .site b hcc, notifies.answered, (setMute_raised _ .site b hcc).commanded, frame,
    notifies.commanded_answersAndNotifies⟩

theorem exec_forceMute {s : State} (h : s.Listens .site) : exec (.forceMute .site) s =
    .next (((s.commanded .site .forceMute []).setMute .site true).record .site CommandKind.forceMute.code .done []) :=
  (ifRunning_of_running h.1 (·.takeCommand .site .forceMute [] ownForceMute)).trans
    (congrArg _ (takeCommand_taken s .site .forceMute [] _ h.2 (.inr rfl)))

theorem exec_releaseMute {s : State} (h : s.Listens .site) : exec (.releaseMute .site) s =
    .next (((s.commanded .site .releaseMute []).setMute .site false).record .site CommandKind.releaseMute.code .done []) :=
  (ifRunning_of_running h.1 (·.takeCommand .site .releaseMute [] ownReleaseMute)).trans
    (congrArg _ (takeCommand_taken s .site .releaseMute [] _ h.2 (.inr rfl)))

/-- Settles O31: both commands put SITE and record DONE (`siteMuted_answered`); clearing it raises nothing. -/
theorem muteCommands : Obligations.MuteCommands := by
  intro s hl hc
  refine ⟨⟨_, exec_forceMute hl, ?_⟩, ⟨_, exec_releaseMute hl, ?_⟩⟩
  · exact siteMuted_answered hc .forceMute true rfl
  · obtain ⟨taken, answered, raised, frame, only⟩ := siteMuted_answered hc .releaseMute false rfl
    have hcc : (s.commanded .site .releaseMute []).CarrierConsistent := hc
    exact ⟨taken, answered, raised.of_eq (assertNotice_clear hcc .site).symm, frame, only⟩

/-! ## A directive in hand (R69) -/

section
variable {s : State} {h : InHand} {d : Directive}

/-- The directive at the parse position is handled, and parsing goes on behind it. -/
theorem onDirective_handled (hr : s.Running) (hh : s.ddc.inHand = some h) (hd : h.directive? = some d) {kinds : Byte → Bool}
    (hk : kinds d.kind = true) (f : State → InHand → Directive → State) :
    ifRunning s (·.onDirective kinds f) = .next ((f s h d).nextDirective h d) := by
  rw [ifRunning_of_running hr]
  unfold State.onDirective
  rw [hh]
  dsimp only
  rw [hd]
  dsimp only
  rw [if_pos hk]

theorem nextDirective_onlyNotifies {u : State} (n : OnlyNotifies s u) : OnlyNotifies s (u.nextDirective h d) := n

/-! ## SITE_MUTE (R59, R71, R78) -/

theorem byte_le_one_iff (b : Byte) : b.toNat ≤ 1 ↔ b = 0#8 ∨ b = 1#8 := by
  constructor
  · intro hb
    have : b.toNat = 0 ∨ b.toNat = 1 := by omega
    exact this.imp BitVec.eq_of_toNat_eq BitVec.eq_of_toNat_eq
  · rintro (rfl | rfl) <;> decide

theorem forThisSite_iff (x : Settings) (site : Nat) : forThisSite x site = true ↔ site = 0xFFFF ∨ x.siteNumber = some site := by
  simp [forThisSite]

theorem reachMute_here (hl : d.body.length = 3) (hb : byteAt d.body 3 = 0#8 ∨ byteAt d.body 3 = 1#8)
    (hs : bodyNum d.body 1 2 = 0xFFFF ∨ s.sst.live.siteNumber = some (bodyNum d.body 1 2)) :
    s.reachMute h d = s.setMute .network (byteAt d.body 3 == 1#8) := by
  unfold State.reachMute
  rw [if_pos ⟨hl, (byte_le_one_iff _).2 hb⟩, if_pos ((forThisSite_iff _ _).2 hs)]

theorem reachMute_elsewhere (hl : d.body.length = 3) (hb : byteAt d.body 3 = 0#8 ∨ byteAt d.body 3 = 1#8)
    (hs : ¬ (bodyNum d.body 1 2 = 0xFFFF ∨ s.sst.live.siteNumber = some (bodyNum d.body 1 2))) :
    s.reachMute h d = s.countDdc (fun c => { c with otherSites := bump c.otherSites }) := by
  unfold State.reachMute
  rw [if_pos ⟨hl, (byte_le_one_iff _).2 hb⟩, if_neg (mt (forThisSite_iff _ _).1 hs)]

theorem reachMute_malformed (hm : d.body.length ≠ 3 ∨ (byteAt d.body 3 ≠ 0#8 ∧ byteAt d.body 3 ≠ 1#8)) :
    s.reachMute h d = s.malformed := by
  unfold State.reachMute
  refine if_neg fun ⟨hl, hb⟩ => ?_
  rcases hm with hm | ⟨h0, h1⟩
  · exact hm hl
  · exact ((byte_le_one_iff _).1 hb).elim h0 h1

theorem reachMute_onlyNotifies : OnlyNotifies s (s.reachMute h d) := by
  unfold State.reachMute
  split
  · split
    · exact setMute_onlyNotifies s _ _
    · exact .of_mgp rfl
  · exact .of_mgp rfl

end

/-- Settles O21: the order is for this site, for another, or malformed (`reachMute_here`, `reachMute_elsewhere`,
`reachMute_malformed`). -/
theorem siteMuteOrder : Obligations.SiteMuteOrder := by
  intro s h d hr hc hh hd hk
  have hexec : exec .siteMute s = .next ((s.reachMute h d).nextDirective h d) :=
    onDirective_handled hr hh hd (by simp [hk]) State.reachMute
  refine ⟨_, hexec, rfl, fun hl hb hs => ?_, fun hl hb h1 h2 => ?_, fun hm => ?_, exec_frame hexec,
    nextDirective_onlyNotifies reachMute_onlyNotifies⟩
  · rw [reachMute_here hl hb hs]
    refine ⟨setMute_taken s .network _ hc, setMute_raised s .network _ hc, ?_⟩
    change (s.setMute .network _).ddc.counters = _
    rw [State.setMute_ddc]
  · rw [reachMute_elsewhere hl hb (not_or.2 ⟨h1, h2⟩)]
    exact ⟨rfl, rfl, rfl⟩
  · rw [reachMute_malformed hm]
    exact ⟨rfl, rfl, rfl⟩

/-! ## An instant of the emission (R54, R55, R60) -/

section
variable (s : State) (instant : SiteTime) (packet : List Byte)

theorem instant_frame : OnlyChanges [.esc, .mgp] s (s.carrierInstant.drive instant packet) :=
  (carrierInstant_frame s).seq (drive_frame _ _ _)

theorem instant_onlyNotifies : OnlyNotifies s (s.carrierInstant.drive instant packet) :=
  (carrierInstant_onlyNotifies s).trans (.of_mgp (drive_mgp _ _ _))

variable {s}

theorem instant_mgp (h : s.esc.carinh ≠ .pending) : (s.carrierInstant.drive instant packet).mgp = s.mgp := by
  rw [drive_mgp]
  unfold State.carrierInstant
  split
  · next hp => exact absurd hp h
  · rfl
  · rfl

/-- A release takes place with CARRIER-STATE (R60). -/
theorem instant_raised (h : s.esc.carinh = .pending) : Raised s (s.carrierInstant.drive instant packet) .site
    [noticeAt s .carrierState .none (.mute .empty)] := by
  have raised : Raised s s.carrierInstant .site [noticeAt s .carrierState .none (.mute .empty)] := by
    unfold State.carrierInstant
    rw [h]
    exact raiseSite_raised (s.setEsc _) _ _ _
  unfold Raised at raised ⊢
  rwa [drive_mgp]

theorem instant_asserted (h : s.esc.carinh = .asserted) : (s.carrierInstant.drive instant packet).esc = s.esc := by
  rw [instant_esc, if_pos h]

theorem instant_driven (h : s.esc.carinh ≠ .asserted) : (s.carrierInstant.drive instant packet).esc =
    { s.esc with carinh := .released, port := some ⟨packet, 0⟩, lastDriven := some instant } := by rw [instant_esc, if_neg h]

end

/-! ## What comes first (R54, R55) -/

section
variable {s : State} {q : Requested} {qs : List Requested} {f : FillRun} {fs : List FillRun}

theorem nextEmission_slot (hq : s.esc.requested = q :: qs)
    (hf : ∀ f fs, s.esc.fills = f :: fs → f.instant.before q.instant = false) : s.esc.nextEmission? = some (.slot q) := by
  unfold Esc.nextEmission?
  rw [hq]
  cases fills : s.esc.fills with
  | nil => rfl
  | cons f fs =>
    dsimp only
    rw [hf f fs fills]
    rfl

theorem nextEmission_fill (hf : s.esc.fills = f :: fs)
    (hq : ∀ q qs, s.esc.requested = q :: qs → f.instant.before q.instant = true) : s.esc.nextEmission? = some (.fill f) := by
  unfold Esc.nextEmission?
  rw [hf]
  cases requested : s.esc.requested with
  | nil => rfl
  | cons q qs =>
    dsimp only
    rw [hq q qs requested]
    rfl

theorem emissionDue_eq {d : DueEmission} (h : s.esc.nextEmission? = some d) :
    s.emissionDue? = if s.tbu.time.reached d.instant then some d else none := by
  unfold State.emissionDue?
  rw [h]

theorem emissionDue_of_reached {d : DueEmission} (h : s.esc.nextEmission? = some d) (hd : s.tbu.time.before d.instant = false) :
    s.emissionDue? = some d := by
  rw [emissionDue_eq h, if_pos (by rw [SiteTime.reached, hd]; rfl)]

theorem exec_slotEmission_due (hr : s.Running) (hd : s.emissionDue? = some (.slot q)) :
    exec .slotEmission s = .next (s.emitSlot q) := by
  change execSlotEmission s = _
  unfold execSlotEmission
  rw [ifRunning_of_running hr, hd]

theorem exec_fillEmission_due (hr : s.Running) (hd : s.emissionDue? = some (.fill f)) :
    exec .fillEmission s = .next (s.emitFill f) := by
  change execFillEmission s = _
  unfold execFillEmission
  rw [ifRunning_of_running hr, hd]

/-- With a fill instant first, SLOT_EMISSION is no event. -/
theorem exec_slotEmission_fillFirst (hr : s.Running) (h : s.esc.nextEmission? = some (.fill f)) :
    exec .slotEmission s = .next s := by
  change execSlotEmission s = _
  unfold execSlotEmission
  rw [ifRunning_of_running hr, emissionDue_eq h]
  cases s.tbu.time.reached (DueEmission.fill f).instant <;> rfl

/-- With a requested slot first, FILL_EMISSION is no event. -/
theorem exec_fillEmission_slotFirst (hr : s.Running) (h : s.esc.nextEmission? = some (.slot q)) :
    exec .fillEmission s = .next s := by
  change execFillEmission s = _
  unfold execFillEmission
  rw [ifRunning_of_running hr, emissionDue_eq h]
  cases s.tbu.time.reached (DueEmission.slot q).instant <;> rfl

end

/-! ## FILL_EMISSION and DRIVEN_PACKET_END (R55, R56) -/

theorem dropFill_more {f : FillRun} (h : f.next < f.last) (rest : List FillRun) :
    dropFill (f :: rest) = { f with next := f.next + 1 } :: rest := if_pos h

theorem dropFill_last {f : FillRun} (h : f.last ≤ f.next) (rest : List FillRun) : dropFill (f :: rest) = rest :=
  if_neg (Nat.not_lt.2 h)

/-- The part as a fill instant comes, before its packet (R55). -/
def State.fillTaken (s : State) : State := s.setEsc { s.esc with
  fills := dropFill s.esc.fills, counters := { s.esc.counters with fillPackets := bump s.esc.counters.fillPackets } }

theorem emitFill_eq (s : State) (f : FillRun) : s.emitFill f = s.fillTaken.carrierInstant.drive f.instant nullPacket := rfl

/-- The fields of the Emission Scheduler that an instant leaves. -/
theorem instant_esc_fields (s : State) (instant : SiteTime) (packet : List Byte) :
    (s.carrierInstant.drive instant packet).esc = { s.esc with
      carinh := (s.carrierInstant.drive instant packet).esc.carinh, port := (s.carrierInstant.drive instant packet).esc.port
      lastDriven := (s.carrierInstant.drive instant packet).esc.lastDriven } := by
  rw [instant_esc]
  split <;> rfl

theorem fillEmitted {s : State} {f : FillRun} {rest : List FillRun} (hr : s.Running) (hf : s.esc.fills = f :: rest)
    (hq : ∀ q qs, s.esc.requested = q :: qs → f.instant.before q.instant = true)
    (hd : s.tbu.time.before f.instant = false) : exec .fillEmission s = .next (s.emitFill f) :=
  exec_fillEmission_due hr (emissionDue_of_reached (nextEmission_fill hf hq) hd)

section
variable {e : Esc}

theorem driving_iff : e.driving = true ↔ ∃ p n, e.port = some ⟨p, n⟩ ∧ n < 188 := by
  unfold Esc.driving
  cases hp : e.port with
  | none => simp
  | some d =>
    obtain ⟨p, n⟩ := d
    exact ⟨fun h => ⟨p, n, rfl, of_decide_eq_true h⟩, fun ⟨_, _, hp, hn⟩ => by cases hp; exact decide_eq_true hn⟩

/-- While the 188 bytes of a packet go out, EVALID is high, each byte stands on ED0 to ED7, and ESTART goes with the first. -/
theorem lines_of_driving {p : List Byte} {n : Nat} (hp : e.port = some ⟨p, n⟩) (hn : n < 188) :
    e.evalid = true ∧ e.ed = byteAt p (n + 1) ∧ (e.estart = true ↔ n = 0) := by
  have driving : e.driving = true := driving_iff.2 ⟨p, n, hp, hn⟩
  refine ⟨driving, ?_, ?_⟩
  · simp [Esc.ed, hp, driving]
  · simp [Esc.estart, hp]

theorem lines_of_idle (h : e.port = none ∨ ∃ p n, e.port = some ⟨p, n⟩ ∧ 188 ≤ n) :
    e.evalid = false ∧ e.ed = 0#8 ∧ e.estart = false := by
  have quiet : e.driving = false := by
    refine Bool.eq_false_iff.2 fun hd => ?_
    obtain ⟨p, n, hp, hn⟩ := driving_iff.1 hd
    rcases h with h | ⟨p', n', hp', hn'⟩
    · cases h.symm.trans hp
    · cases hp'.symm.trans hp
      omega
  refine ⟨quiet, ?_, ?_⟩
  · unfold Esc.ed
    rw [quiet]
    split <;> rfl
  · unfold Esc.estart
    rcases h with h | ⟨p, n, hp, hn⟩
    · rw [h]
    · rw [hp]
      exact decide_eq_false (by dsimp only; omega)

end

/-- Settles O30: the fill that comes first is driven as any packet at its instant (`instant_driven`), and the lines follow the
driven packet. -/
theorem fillAndPacketEnd : Obligations.FillAndPacketEnd := by
  refine ⟨fun s f rest q qs hr hf hq hb => ?_, fun s f rest hr hf hq hd => ?_, fun s p n hr hp hn => ?_,
    fun e p n hp hn => lines_of_driving hp hn, fun e h => lines_of_idle h⟩
  · refine exec_fillEmission_slotFirst hr (nextEmission_slot hq fun f' fs hf' => ?_)
    cases hf.symm.trans hf'
    exact hb
  · have hexec := fillEmitted hr hf hq hd
    have fields := instant_esc_fields s.fillTaken f.instant nullPacket
    rw [← emitFill_eq] at fields
    have fills : (s.emitFill f).esc.fills = dropFill (f :: rest) := by rw [fields, ← hf]; rfl
    refine ⟨_, hexec, ?_, fun h => ?_, fun h => ?_, fun h => ?_, fun h => ?_, fun h => ?_, ?_, ?_, ?_, exec_frame hexec, ?_⟩
    · rw [fields]
      rfl
    · rw [fills, dropFill_more h]
    · rw [fills, dropFill_last h]
    · have same := instant_asserted (s := s.fillTaken) f.instant nullPacket h
      rw [← emitFill_eq] at same
      rw [same]
      exact ⟨h, rfl⟩
    · have driven := instant_driven (s := s.fillTaken) f.instant nullPacket h
      rw [← emitFill_eq] at driven
      rw [driven]
      exact ⟨rfl, rfl, rfl⟩
    · exact instant_raised (s := s.fillTaken) f.instant nullPacket h
    · rw [fields]
      rfl
    · rw [fields]
      rfl
    · rw [fields]
      rfl
    · exact (OnlyNotifies.of_mgp rfl).trans (instant_onlyNotifies s.fillTaken _ _)
  · have sent : s.packetSent = true := by
      unfold State.packetSent
      rw [hp]
      exact decide_eq_true hn
    exact (ifRunning_of_running hr _).trans (congrArg _ (if_pos sent))

end Machine
end Sys2Proof
end

section
/-! PROOFS. Marks and fetches: EMISSION_MARK (R44 to R48, R73) and FETCH_REQUEST (R46, R50, R51). -/

set_option Elab.async false

namespace Sys2Proof
namespace Machine

theorem OnlyNotifies.frame {a : List Part} {s t u : State} (h : OnlyNotifies s t) (f : OnlyChanges a t u)
    (hm : .mgp ∉ a := by decide) : OnlyNotifies s u := h.trans (.of_mgp (f .mgp hm))

/-! ## Anchors passed (R46) -/

/-- The anchors from the current anchor of a slot on are what the passage of the fetch position to it leaves. -/
theorem anchorsFrom_passed (f : Word32) : ∀ anchors : List Anchor, AnchorsPassed f anchors (anchorsFrom f anchors)
  | [] => ⟨[], rfl, fun h => absurd rfl h, nofun, nofun⟩
  | [a] => ⟨[], rfl, fun _ => List.cons_ne_nil _ _, nofun, nofun⟩
  | a :: b :: rest => by
    unfold anchorsFrom
    split
    · next hb =>
      obtain ⟨gone, split, kept, passed, current⟩ := anchorsFrom_passed f (b :: rest)
      refine ⟨a :: gone, by rw [List.cons_append, ← split], fun _ => kept (List.cons_ne_nil _ _), fun x hx => ?_, current⟩
      rw [List.cons_append, List.drop_succ_cons, List.drop_zero] at hx
      cases gone with
      | nil =>
        rw [List.nil_append] at split hx
        rw [← split, List.take_succ_cons, List.take_zero, List.mem_singleton] at hx
        exact hx ▸ hb
      | cons g gone =>
        obtain rfl : b = g := (List.cons.inj split).1
        rcases List.mem_cons.1 hx with rfl | hx
        · exact hb
        · exact passed x hx
    · next hb =>
      refine ⟨[], rfl, fun _ => List.cons_ne_nil _ _, nofun, fun x hx => ?_⟩
      obtain rfl : x = b := by simpa using hx
      exact Int.not_le.1 hb

theorem anchorsFrom_ne_nil {f : Word32} {anchors : List Anchor} (h : anchors ≠ []) : anchorsFrom f anchors ≠ [] := by
  obtain ⟨-, -, kept, -⟩ := anchorsFrom_passed f anchors
  exact kept h

/-! ## The accepted slot (R50) -/

/-- Under any anchor some slot is accepted. -/
theorem firstAccepted_exists (now : SiteTime) (last : Option SiteTime) : ∀ (anchors : List Anchor) (slot : Word32),
    anchors ≠ [] → ∃ n k, firstAccepted now last slot anchors = some (n, k)
  | [], _, h => absurd rfl h
  | [_], _, _ => ⟨_, _, rfl⟩
  | _ :: b :: rest, _, _ => by
    unfold firstAccepted
    dsimp only
    split
    · exact ⟨_, _, rfl⟩
    · obtain ⟨n, k, h⟩ := firstAccepted_exists now last (b :: rest) b.ref (List.cons_ne_nil _ _)
      rw [h]
      exact ⟨_, _, rfl⟩

/-- A ring read that joins the reads is the first that waits where none waited before (R51). -/
theorem firstWaiting_append (slot : Word32) : ∀ reads : List FetchRead,
    firstWaiting? (reads ++ [.ring slot true]) = some ((firstWaiting? reads).getD slot)
  | [] => rfl
  | .ring _ true :: _ => rfl
  | .ring _ false :: rest => firstWaiting_append slot rest
  | .clip _ _ _ _ _ _ :: rest => firstWaiting_append slot rest

/-! ## Marks (R44 to R48) -/

theorem Mark.usable_iff (m : Mark) : m.usable = true ↔ 1000000 ≤ m.rate ∧ m.rate ≤ 60000000 ∧ m.ticks < 27000000 := by
  unfold Mark.usable
  rw [Bool.and_eq_true, Bool.and_eq_true, decide_eq_true_iff, decide_eq_true_iff, decide_eq_true_iff]
  exact and_assoc

theorem parseMark_malformed {body : List Byte} (h : body.length ≠ 15 ∨ bodyNum body 2 2 = 0) : parseMark? body = none := by
  refine if_neg fun ⟨hl, hn⟩ => ?_
  rcases h with h | h
  · exact h hl
  · exact hn h

section
variable {s : State} {h : InHand} {d : Directive} {m : Mark} {slot : Word32} {newest : Anchor}

theorem reachMark_malformed (hm : parseMark? d.body = none) : s.reachMark h d = s.malformed := by
  unfold State.reachMark
  rw [hm]

theorem reachMark_feedOff (hm : parseMark? d.body = some m) (hf : s.fiu.state ≠ .on) : s.reachMark h d =
    s.countDdc (fun c => { c with marksWithoutFeed := bump c.marksWithoutFeed }) := by
  unfold State.reachMark
  rw [hm]
  exact if_neg hf

theorem reachMark_delivered (hm : parseMark? d.body = some m) (hf : s.fiu.state = .on) :
    s.reachMark h d = s.takeMark m h.slot := by
  unfold State.reachMark
  rw [hm]
  exact if_pos hf

theorem takeMark_unusable (hu : m.rate < 1000000 ∨ 60000000 < m.rate ∨ 27000000 ≤ m.ticks) :
    s.takeMark m slot = s.refuseMark := by
  refine if_neg fun usable => ?_
  obtain ⟨low, high, ticks⟩ := (Mark.usable_iff m).1 usable
  omega

theorem takeMark_first (hu : m.usable = true) (ha : s.esc.anchors = []) :
    s.takeMark m slot = s.startRunning (m.anchor s.sst.live slot) := by
  unfold State.takeMark
  rw [if_pos hu, ha]
  rfl

section
variable (hu : m.usable = true) (hn : s.esc.anchors.getLast? = some newest)
include hu hn

theorem takeMark_notAfter (hd : sdiff (m.anchor s.sst.live slot).ref newest.ref ≤ 0) : s.takeMark m slot = s.refuseMark := by
  unfold State.takeMark
  rw [if_pos hu, hn]
  exact if_neg (Int.not_lt.2 hd)

theorem takeMark_overflow (hd : 0 < sdiff (m.anchor s.sst.live slot).ref newest.ref) (hfull : 32 ≤ s.esc.anchors.length) :
    s.takeMark m slot = s.countEsc (fun c => { c with anchorOverflows := bump c.anchorOverflows }) := by
  unfold State.takeMark
  rw [if_pos hu, hn]
  exact (if_pos hd).trans (if_neg (Nat.not_lt.2 hfull))

theorem takeMark_appended (hd : 0 < sdiff (m.anchor s.sst.live slot).ref newest.ref) (hroom : s.esc.anchors.length < 32) :
    s.takeMark m slot = s.appendAnchor m newest (m.anchor s.sst.live slot) := by
  unfold State.takeMark
  rw [if_pos hu, hn]
  exact (if_pos hd).trans (if_pos hroom)

end

/-! ## The first mark (R48) -/

theorem setMute_skippedSlots (s : State) (r : MuteReason) (b : Bool) :
    (s.setMute r b).esc.counters.skippedSlots = s.esc.counters.skippedSlots := by
  unfold State.setMute
  split
  · rfl
  · dsimp only
    split
    · split <;> rfl
    · split <;> rfl

/-- The schedule starts with its anchor, and the first slot that is accepted under it is next. -/
theorem startRunning_effect (s : State) (a : Anchor) {k : Nat} (hk : k = skipsUnder a a.ref s.tbu.time s.esc.lastEmission) :
    (s.startRunning a).esc.running = true ∧ (s.startRunning a).esc.anchors = [a]
      ∧ (s.startRunning a).esc.mute.schedule = false
      ∧ (s.startRunning a).esc.next = some (a.slotTimes (a.ref + BitVec.ofNat 32 k))
      ∧ (firstWaiting? s.csc.reads = none → (s.startRunning a).esc.fetchPos = some (a.ref + BitVec.ofNat 32 k))
      ∧ (s.startRunning a).esc.counters.skippedSlots = bumpBy s.esc.counters.skippedSlots k := by
  have fields := setMute_esc (s.setEsc (s.esc.started a)) .schedule false
  have mute := setMute_mute (s.setEsc (s.esc.started a)) .schedule false
  have skipped := setMute_skippedSlots (s.setEsc (s.esc.started a)) .schedule false
  have csc := State.setMute_csc (s.setEsc (s.esc.started a)) .schedule false
  have tbu := State.setMute_tbu (s.setEsc (s.esc.started a)) .schedule false
  rw [startRunning_eq]
  generalize (s.setEsc (s.esc.started a)).setMute .schedule false = u at *
  have running : u.esc.running = true := by rw [fields]; rfl
  have anchors : u.esc.anchors = [a] := by rw [fields]; rfl
  have last : u.esc.lastEmission = s.esc.lastEmission := by rw [fields]; rfl
  have accepted : firstAccepted u.tbu.time u.esc.lastEmission a.ref (anchorsFrom a.ref u.esc.anchors)
      = some (a.slotTimes (a.ref + BitVec.ofNat 32 k), k) := by
    rw [anchors, last, tbu, hk]
    rfl
  rw [examine_of_accepted accepted]
  refine ⟨running, ?_, ?_, rfl, fun unread => ?_, congrArg (bumpBy · k) skipped⟩
  · rw [State.setEsc_esc, anchors]
    rfl
  · exact congrArg MuteReasons.schedule mute
  · have reads : firstWaiting? u.csc.reads = none := by rw [csc]; exact unread
    rw [State.setEsc_esc, reads]
    rfl

theorem startRunning_onlyNotifies (s : State) (a : Anchor) : OnlyNotifies s (s.startRunning a) := by
  have cleared := setMute_onlyNotifies (s.setEsc (s.esc.started a)) .schedule false
  have muted : OnlyNotifies s ((s.setEsc (s.esc.started a)).setMute .schedule false) := (OnlyNotifies.of_mgp rfl).trans cleared
  rw [startRunning_eq]
  exact muted.frame (examine_frame _ _)

/-! ## A mark on a schedule that runs (R46, R47) -/

theorem checkStep_esc (s : State) (newest a : Anchor) : (s.checkStep newest a).esc = { s.esc with
    counters := { s.esc.counters with scheduleSteps :=
      (if stepsSchedule s.sst.live newest a then bump s.esc.counters.scheduleSteps else s.esc.counters.scheduleSteps) } } := by
  unfold State.checkStep
  split <;> rfl

theorem checkStep_raised (s : State) (newest a : Anchor) : Raised s (s.checkStep newest a) .site
    (if stepsSchedule s.sst.live newest a then [noticeAt s .markStep .none (.mark a.seq)] else []) := by
  unfold State.checkStep
  split
  · exact raiseSite_raised (s.countEsc _) _ _ _
  · exact .nil rfl

theorem checkStep_insertion (s : State) (newest a : Anchor) : Raised s (s.checkStep newest a) .insertion [] := by
  unfold State.checkStep
  split
  · exact .nil (congrArg RolePort.notices (raiseSite_insertion (s.countEsc _) _ _ _))
  · exact .nil rfl

theorem checkStep_onlyNotifies (s : State) (newest a : Anchor) : OnlyNotifies s (s.checkStep newest a) := by
  unfold State.checkStep
  split
  · exact (OnlyNotifies.of_mgp rfl).trans (raiseSite_onlyNotifies (s.countEsc _) _ _ _)
  · exact .refl s

theorem checkCount_eq (c : EscCounters) (steps : Nat) (m : Mark) (newest a : Anchor) :
    EscCounters.checkCount { c with scheduleSteps := steps } m newest a = { c with
      scheduleSteps := steps,
      markCountMismatches := (if a.seq = newest.seq + 1 ∧ m.count ≠ (a.ref - newest.ref).toNat
        then bump c.markCountMismatches else c.markCountMismatches),
      markSequenceGaps := (if a.seq = newest.seq + 1 then c.markSequenceGaps else bump c.markSequenceGaps) } := by
  unfold EscCounters.checkCount
  split
  · next hs =>
    split
    · next hc => rw [if_neg fun h => h.2 hc]
    · next hc => rw [if_pos ⟨hs, hc⟩]
  · next hs => rw [if_neg fun h => hs h.1]

/-- The part with the anchor of a mark appended, before the fetch position is looked at. -/
def State.anchored (s : State) (m : Mark) (newest a : Anchor) : State := (s.checkStep newest a).setEsc {
  (s.checkStep newest a).esc with
  anchors := (s.checkStep newest a).esc.anchors ++ [a], counters := (s.checkStep newest a).esc.counters.checkCount m newest a }

theorem appendAnchor_eq (s : State) (m : Mark) (newest a : Anchor) : s.appendAnchor m newest a = (s.anchored m newest a).refreshFetch :=
  rfl

theorem anchored_esc (s : State) (m : Mark) (newest a : Anchor) : (s.anchored m newest a).esc = { s.esc with
    anchors := s.esc.anchors ++ [a],
    counters := { s.esc.counters with
      scheduleSteps :=
        (if stepsSchedule s.sst.live newest a then bump s.esc.counters.scheduleSteps else s.esc.counters.scheduleSteps),
      markCountMismatches := (if a.seq = newest.seq + 1 ∧ m.count ≠ (a.ref - newest.ref).toNat
        then bump s.esc.counters.markCountMismatches else s.esc.counters.markCountMismatches),
      markSequenceGaps := (if a.seq = newest.seq + 1 then s.esc.counters.markSequenceGaps
        else bump s.esc.counters.markSequenceGaps) } } := by
  rw [State.anchored, State.setEsc_esc, checkStep_esc, checkCount_eq]

theorem anchored_frame (s : State) (m : Mark) (newest a : Anchor) : OnlyChanges [.esc, .mgp] s (s.anchored m newest a) :=
  (checkStep_frame s newest a).seq (setEsc_frame _ _)

theorem appendAnchor_mgp (s : State) (m : Mark) (newest a : Anchor) : (s.appendAnchor m newest a).mgp = (s.checkStep newest a).mgp := by
  have refreshed : (s.anchored m newest a).refreshFetch.mgp = (s.anchored m newest a).mgp := refreshFetch_frame _ .mgp (by decide)
  rw [appendAnchor_eq, refreshed, State.anchored, State.setEsc_mgp]

/-- The fetch position after an anchor is appended, with the anchors that it has passed gone (R46, R51). -/
theorem appendAnchor_fetchPos {n : NextSlot} (hn : s.esc.next = some n) (m : Mark) (newest a : Anchor) {f : Word32}
    (hf : f = (firstWaiting? s.csc.reads).getD n.slot) : (s.appendAnchor m newest a).esc.fetchPos = some f
      ∧ AnchorsPassed f (s.esc.anchors ++ [a]) (s.appendAnchor m newest a).esc.anchors := by
  have esc := anchored_esc s m newest a
  have next : (s.anchored m newest a).esc.next = some n := by rw [esc]; exact hn
  have csc : (s.anchored m newest a).csc = s.csc := anchored_frame s m newest a .csc (by decide)
  rw [appendAnchor_eq, refreshFetch_of_next next, csc, ← hf, esc]
  exact ⟨rfl, anchorsFrom_passed f _⟩

theorem appendAnchor_onlyNotifies (s : State) (m : Mark) (newest a : Anchor) : OnlyNotifies s (s.appendAnchor m newest a) :=
  (checkStep_onlyNotifies s newest a).trans (.of_mgp (appendAnchor_mgp s m newest a))

theorem appendAnchor_raised (s : State) (m : Mark) (newest a : Anchor) :
    Raised s (s.appendAnchor m newest a) .site
        (if stepsSchedule s.sst.live newest a then [noticeAt s .markStep .none (.mark a.seq)] else [])
      ∧ Raised s (s.appendAnchor m newest a) .insertion [] := by
  unfold Raised
  rw [appendAnchor_mgp]
  exact ⟨checkStep_raised s newest a, checkStep_insertion s newest a⟩

/-! ## EMISSION_MARK -/

theorem takeMark_onlyNotifies (s : State) (m : Mark) (slot : Word32) : OnlyNotifies s (s.takeMark m slot) := by
  have refused : OnlyNotifies s s.refuseMark := .of_mgp rfl
  unfold State.takeMark
  split
  · dsimp only
    split
    · exact startRunning_onlyNotifies s _
    · split
      · split
        · exact appendAnchor_onlyNotifies s m _ _
        · exact .of_mgp rfl
      · exact refused
  · exact refused

theorem reachMark_onlyNotifies (s : State) (h : InHand) (d : Directive) : OnlyNotifies s (s.reachMark h d) := by
  unfold State.reachMark
  split
  · exact .of_mgp rfl
  · split
    · exact takeMark_onlyNotifies s _ _
    · exact .of_mgp rfl

theorem nextDirective_esc (s : State) (h : InHand) (d : Directive) : (s.nextDirective h d).esc = s.esc := rfl

theorem nextDirective_mgp (s : State) (h : InHand) (d : Directive) : (s.nextDirective h d).mgp = s.mgp := rfl

theorem nextDirective_counters (s : State) (h : InHand) (d : Directive) :
    (s.nextDirective h d).ddc.counters = s.ddc.counters := rfl

theorem takeMark_ddc (s : State) (m : Mark) (slot : Word32) : (s.takeMark m slot).ddc = s.ddc :=
  takeMark_frame s m slot .ddc (by decide)

end

/-- Settles O24: the mark by what becomes of it: malformed, met by no feed, unusable, the first (`startRunning_effect`), refused,
one too many, or appended (`anchored_esc`, `appendAnchor_fetchPos`). -/
theorem firstMarkStartsTheSchedule : Obligations.FirstMarkStartsTheSchedule := by
  intro s h d hr hh hd hk
  have hexec : exec .emissionMark s = .next ((s.reachMark h d).nextDirective h d) :=
    onDirective_handled hr hh hd (by simp [hk]) State.reachMark
  refine ⟨_, hexec, rfl, fun hm => ?_, parseMark_malformed, fun m hm hf => ?_, fun m hm hf hu => ?_,
    fun m a k hm hf low high ticks empty ha hk => ?_, fun m a newest hm hf low high ticks hn ha => ?_, exec_frame hexec,
    nextDirective_onlyNotifies (reachMark_onlyNotifies s h d)⟩
  · rw [reachMark_malformed hm]
    exact ⟨rfl, rfl⟩
  · rw [reachMark_feedOff hm hf]
    exact ⟨rfl, rfl⟩
  · rw [reachMark_delivered hm hf, takeMark_unusable hu]
    rfl
  · have ddc := takeMark_ddc s m h.slot
    rw [reachMark_delivered hm hf]
    rw [takeMark_first ((Mark.usable_iff m).2 ⟨low, high, ticks⟩) empty] at ddc ⊢
    obtain rfl : a = m.anchor s.sst.live h.slot := ha
    obtain ⟨running, anchors, mute, next, fetch, skipped⟩ := startRunning_effect s _ hk
    rw [nextDirective_esc, nextDirective_counters, ddc]
    exact ⟨running, anchors, mute, next, fetch, skipped, rfl⟩
  · obtain rfl : a = m.anchor s.sst.live h.slot := ha
    have usable := (Mark.usable_iff m).2 ⟨low, high, ticks⟩
    rw [reachMark_delivered hm hf]
    rw [nextDirective_esc, nextDirective_mgp, nextDirective_counters, takeMark_ddc]
    refine ⟨fun hle => ?_, fun hlt full => ?_, ?_, rfl⟩
    · rw [takeMark_notAfter usable hn hle]
      exact ⟨rfl, rfl⟩
    · rw [takeMark_overflow usable hn hlt full]
      exact ⟨rfl, rfl⟩
    · rintro between _ stepped hlt room rfl rfl rfl
      rw [takeMark_appended usable hn hlt room]
      have esc := anchored_esc s m newest (m.anchor s.sst.live h.slot)
      obtain ⟨site, insertion⟩ := appendAnchor_raised s m newest (m.anchor s.sst.live h.slot)
      unfold Raised at site insertion ⊢
      rw [nextDirective_mgp]
      refine ⟨?_, fun unexamined => ?_, fun n f next hf => appendAnchor_fetchPos next m newest _ hf, site, insertion⟩
      · have fields := refreshFetch_esc (s.anchored m newest (m.anchor s.sst.live h.slot))
        rw [← appendAnchor_eq, esc] at fields
        exact fields
      · have same : s.appendAnchor m newest (m.anchor s.sst.live h.slot) = s.anchored m newest (m.anchor s.sst.live h.slot) :=
          refreshFetch_of_none (s := s.anchored m newest (m.anchor s.sst.live h.slot)) (by rw [esc]; exact unexamined)
        rw [same, esc]
        exact ⟨rfl, rfl⟩

/-! ## FETCH_REQUEST (R50, R51) -/

theorem exec_fetchRequest {s : State} {n : NextSlot} (hr : s.Running) (running : s.esc.running = true)
    (next : s.esc.next = some n) (due : s.tbu.time.before n.fetchTime = false) :
    exec .fetchRequest s = .next ((s.request n).examine (n.slot + 1)) := by
  have hd : s.fetchDue? = some n := by
    unfold State.fetchDue?
    rw [next]
    simp [running, SiteTime.reached, due]
  change execFetchRequest s = _
  unfold execFetchRequest
  rw [ifRunning_of_running hr, hd]

theorem latest_of_none {e : Esc} (h : e.lastEmission = none) (t : SiteTime) : e.latest t = t := by
  unfold Esc.latest
  rw [h]

theorem latest_of_some {e : Esc} {l : SiteTime} (h : e.lastEmission = some l) (t : SiteTime) : e.latest t = l.later t := by
  unfold Esc.latest
  rw [h]

/-- Settles O26: the request joins the requested slots and the reads, and the examination goes on from the slot after it
(`examine_of_accepted`). -/
theorem fetchIsRequested : Obligations.FetchIsRequested := by
  intro s n hr running next due
  have hexec := exec_fetchRequest hr running next due
  have fields := examine_esc (s.request n) (n.slot + 1)
  have last : ((s.request n).examine (n.slot + 1)).esc.lastEmission = some (s.esc.latest n.instant) := by rw [fields]; rfl
  refine ⟨_, hexec, ?_, examine_frame _ _ .csc (by decide), fun h => ?_, fun l h => ?_, fun m k accepted => ?_, fun anchored => ?_,
    anchorsFrom_passed _ _, ?_, ?_, ?_, ?_, ?_, exec_frame hexec⟩
  · rw [fields]
    rfl
  · rw [last, latest_of_none h]
  · rw [last, latest_of_some h]
  · rw [last] at accepted
    have waiting : firstWaiting? (s.request n).csc.reads = some ((firstWaiting? s.csc.reads).getD n.slot) :=
      firstWaiting_append n.slot s.csc.reads
    rw [examine_of_accepted (s := s.request n) accepted, waiting]
    exact ⟨rfl, rfl, rfl, anchorsFrom_passed _ _⟩
  · exact firstAccepted_exists _ _ _ _ (anchorsFrom_ne_nil anchored)
  · rw [fields]
    exact running
  all_goals
    rw [fields]
    rfl

end Machine
end Sys2Proof
end

section
/-! PROOFS. Ring reads: what a hand-off keeps, RING_READ_TAKEN and RING_READ_COMPLETE (R46, R51 to R53, R131, R153). -/

set_option Elab.async false

namespace Sys2Proof
namespace Machine

/-! ## What the steps of a hand-off keep (R153) -/

/-- What no step of a hand-off touches: the exact time of the last hand-off, the read under way, the packet memory, and of the
ports all but their notices. -/
structure HandOffKept (s t : State) : Prop where
  fetchInstant : t.spe.fetchInstant = s.spe.fetchInstant
  taken : t.csc.taken = s.csc.taken
  memory : t.csc.memory = s.csc.memory
  mgp : OnlyNotifies s t

namespace HandOffKept

theorem refl (s : State) : HandOffKept s s := ⟨rfl, rfl, rfl, .refl s⟩

theorem trans {s t u : State} (h : HandOffKept s t) (k : HandOffKept t u) : HandOffKept s u :=
  ⟨k.fetchInstant.trans h.fetchInstant, k.taken.trans h.taken, k.memory.trans h.memory, h.mgp.trans k.mgp⟩

/-- Where only other parts change, all of it is kept. -/
theorem of_frame {a : List Part} {s t : State} (f : OnlyChanges a s t) (hm : .mgp ∉ a := by decide) (hc : .csc ∉ a := by decide)
    (hs : .spe ∉ a := by decide) : HandOffKept s t := by
  have mgp : t.mgp = s.mgp := f .mgp hm
  have csc : t.csc = s.csc := f .csc hc
  have spe : t.spe = s.spe := f .spe hs
  exact ⟨congrArg Spe.fetchInstant spe, congrArg Csc.taken csc, congrArg Csc.memory csc, .of_mgp mgp⟩

/-- A change within the Splice Engine that leaves the exact time of the last hand-off. -/
theorem of_spe {s : State} {x : Spe} (h : x.fetchInstant = s.spe.fetchInstant := by rfl) : HandOffKept s (s.setSpe x) :=
  ⟨h, rfl, rfl, .of_mgp rfl⟩

/-- A change within the Clip Store Controller that leaves the read under way and the memory. -/
theorem of_csc {s : State} {x : Csc} (ht : x.taken = s.csc.taken := by rfl) (hm : x.memory = s.csc.memory := by rfl) :
    HandOffKept s (s.setCsc x) := ⟨rfl, ht, hm, .of_mgp rfl⟩

end HandOffKept

theorem updateBreak_handOffKept (s : State) (n : Word16) (f : BreakEntry → BreakEntry) : HandOffKept s (s.updateBreak n f) :=
  .of_frame (updateBreak_frame s n f)

theorem updateService_handOffKept (s : State) (v : Service) (f : ServiceState → ServiceState) :
    HandOffKept s (s.updateService v f) := .of_spe

theorem raiseBoth_handOffKept (s : State) (k : NoticeKind) (j : Subject) (d : Detail) : HandOffKept s (s.raiseBoth k j d) := by
  have csc : (s.raiseBoth k j d).csc = s.csc := raiseBoth_frame s k j d .csc (by decide)
  have spe : (s.raiseBoth k j d).spe = s.spe := raiseBoth_frame s k j d .spe (by decide)
  exact ⟨congrArg Spe.fetchInstant spe, congrArg Csc.taken csc, congrArg Csc.memory csc, raiseBoth_onlyNotifies s k j d⟩

theorem dropPins_handOffKept (s : State) (ids : List Word32) : HandOffKept s (s.dropPins ids) := by
  have spe : (s.dropPins ids).spe = s.spe := dropPins_frame s ids .spe (by decide)
  exact ⟨congrArg Spe.fetchInstant spe, by rw [dropPins_csc], by rw [dropPins_csc], .of_mgp (State.dropPins_mgp s ids)⟩

theorem finishBreak_handOffKept (s : State) (e : BreakEntry) (x : BreakState) (o : BreakOutcome) :
    HandOffKept s (s.finishBreak e x o) :=
  ((updateBreak_handOffKept s _ _).trans (dropPins_handOffKept _ _)).trans (raiseBoth_handOffKept _ _ _ _)

theorem spliceIn_handOffKept (s : State) (v : Service) (e : BreakEntry) : HandOffKept s (s.spliceIn v e) :=
  ((updateBreak_handOffKept s _ _).trans (finishBreak_handOffKept _ _ _ _)).trans
    ((updateService_handOffKept _ _ _).trans .of_spe)

theorem closeWindow_handOffKept (s : State) (t : ExactTime) (v : Service) : HandOffKept s (s.closeWindow t v) := by
  unfold State.closeWindow
  split
  · split
    · split
      · exact spliceIn_handOffKept s _ _
      · exact .refl s
    · exact .refl s
  · exact .refl s

theorem closeWindows_handOffKept (s : State) (t : ExactTime) : HandOffKept s (s.closeWindows t) := by
  unfold State.closeWindows
  induction Service.all generalizing s with
  | nil => exact .refl s
  | cons v rest ih => exact (closeWindow_handOffKept s t v).trans (ih _)

theorem grantClip_handOffKept (s : State) (v : Service) (e : BreakEntry) : HandOffKept s (s.grantClip v e) := by
  unfold State.grantClip
  exact ((updateBreak_handOffKept s _ _).trans (raiseBoth_handOffKept _ _ _ _)).trans (updateService_handOffKept _ _ _)

theorem grantBlank_handOffKept (s : State) (v : Service) (e : BreakEntry) : HandOffKept s (s.grantBlank v e) := by
  unfold State.grantBlank
  exact ((updateBreak_handOffKept s _ _).trans (raiseBoth_handOffKept _ _ _ _)).trans (updateService_handOffKept _ _ _)

theorem openWindow_handOffKept (s : State) (t : ExactTime) (v : Service) : HandOffKept s (s.openWindow t v) := by
  unfold State.openWindow
  split
  · split
    · split
      · split
        · exact grantClip_handOffKept s _ _
        · exact grantBlank_handOffKept s _ _
      · exact .of_spe
    · exact .refl s
  · exact .refl s
  · exact .refl s

theorem addPending_handOffKept (s : State) (n : Word32) (t : SiteTime) (c : Content) : HandOffKept s (s.addPending n t c) := .of_spe

theorem askClip_handOffKept (s : State) (n : Word32) (p : Nat) (c : Clip) (k : Nat) : HandOffKept s (s.askClip n p c k) := by
  unfold State.askClip
  split
  · exact .of_csc
  · exact .refl s

theorem takeBreakPacket_handOffKept (s : State) (n : Word32) (t : SiteTime) (v : Service) (b : Word16) :
    HandOffKept s (s.takeBreakPacket n t v b) := by
  have started (c : Prop) [Decidable c] (f : BreakEntry → BreakEntry) : HandOffKept s (if c then s.updateBreak b f else s) := by
    split
    · exact updateBreak_handOffKept s _ _
    · exact .refl s
  unfold State.takeBreakPacket
  dsimp only
  split
  · split
    · split
      · exact (((started _ _).trans (addPending_handOffKept _ _ _ _)).trans (askClip_handOffKept _ _ _ _ _)).trans
          (updateService_handOffKept _ _ _)
      · exact addPending_handOffKept s _ _ _
    · exact (updateBreak_handOffKept s _ _).trans (addPending_handOffKept _ _ _ _)
  · exact addPending_handOffKept s _ _ _

theorem takeSlatePacket_handOffKept (s : State) (n : Word32) (t : SiteTime) (v : Service) (id : Word32) :
    HandOffKept s (s.takeSlatePacket n t v id) := by
  unfold State.takeSlatePacket
  dsimp only
  split
  · exact ((addPending_handOffKept s _ _ _).trans (askClip_handOffKept _ _ _ _ _)).trans (updateService_handOffKept _ _ _)
  · exact addPending_handOffKept s _ _ _

theorem chooseContent_handOffKept (s : State) (n : Word32) (t : SiteTime) (v : Service) (p : List Byte) (i : SlotInfo) :
    HandOffKept s (s.chooseContent n t v p i) := by
  unfold State.chooseContent
  dsimp only
  split
  · exact takeSlatePacket_handOffKept s _ _ _ _
  · split
    · exact addPending_handOffKept s _ _ _
    · exact takeBreakPacket_handOffKept s _ _ _ _
    · exact addPending_handOffKept s _ _ _

/-- A hand-off notes its exact time (R153), and keeps the rest. -/
theorem handOff_handOffKept (s : State) (n : Word32) (t : ExactTime) (i : SiteTime) (o : SlotOutcome) :
    HandOffKept (s.setSpe { s.spe with fetchInstant := some t }) (s.handOff n t i o) := by
  have closed := closeWindows_handOffKept (s.setSpe { s.spe with fetchInstant := some t }) t
  unfold State.handOff
  dsimp only
  split
  · split
    · exact closed.trans ((openWindow_handOffKept _ _ _).trans (chooseContent_handOffKept _ _ _ _ _ _))
    · exact closed.trans (addPending_handOffKept _ _ _ _)
  all_goals exact closed.trans (addPending_handOffKept _ _ _ _)

/-! ## The contents that a hand-off adds (R153) -/

theorem spliceIn_pendingSlots (s : State) (v : Service) (e : BreakEntry) :
    (s.spliceIn v e).spe.pendingSlots = s.spe.pendingSlots := by
  have finished (u : State) (o : BreakOutcome) : (u.finishBreak e .ended o).spe = u.spe :=
    finishBreak_frame u e .ended o .spe (by decide)
  change (State.finishBreak _ e .ended _).spe.pendingSlots = _
  rw [finished]
  rfl

theorem closeWindow_pendingSlots (s : State) (t : ExactTime) (v : Service) :
    (s.closeWindow t v).spe.pendingSlots = s.spe.pendingSlots := by
  unfold State.closeWindow
  split
  · split
    · split
      · exact spliceIn_pendingSlots s _ _
      · rfl
    · rfl
  · rfl

theorem closeWindows_pendingSlots (s : State) (t : ExactTime) : (s.closeWindows t).spe.pendingSlots = s.spe.pendingSlots := by
  unfold State.closeWindows
  induction Service.all generalizing s with
  | nil => rfl
  | cons v rest ih => exact (ih _).trans (closeWindow_pendingSlots s t v)

/-- The content of a slot that no service carries: the packet as read, else the null packet. -/
def SlotOutcome.content : SlotOutcome → Content
  | .absent => .null
  | .void => .null
  | .memoryFault => .null
  | .valid packet info => .stored packet info

theorem handOff_pendingSlots (s : State) (n : Word32) (t : ExactTime) (i : SiteTime) {o : SlotOutcome}
    (h : ∀ p info, o = .valid p info → serviceOf? s.sst.live.map (streamId p) = none) :
    (s.handOff n t i o).spe.pendingSlots = s.spe.pendingSlots ++ [⟨n, i, o.content⟩] := by
  have closed := closeWindows_pendingSlots (s.setSpe { s.spe with fetchInstant := some t }) t
  have sst : (State.closeWindows (s.setSpe { s.spe with fetchInstant := some t }) t).sst = s.sst :=
    closeWindows_frame _ t .sst (by decide)
  unfold State.handOff
  cases o with
  | valid p info =>
    dsimp only
    rw [sst, h p info rfl]
    exact congrArg (· ++ _) closed
  | absent => exact congrArg (· ++ _) closed
  | void => exact congrArg (· ++ _) closed
  | memoryFault => exact congrArg (· ++ _) closed

/-! ## The judgement (R52) -/

section
variable {slot : Word32} {mark : Bool} {bytes : List Byte}

theorem judgeSlot_absent (h : mark = false ∨ (slotInfo bytes).tag ≠ slot.toNat % 65536) : judgeSlot slot mark bytes = .absent :=
  if_pos h

section
variable (hm : mark = true) (ht : (slotInfo bytes).tag = slot.toNat % 65536)
include hm ht

theorem judgeSlot_of_present : judgeSlot slot mark bytes = if (slotInfo bytes).void then .void
    else if (slotInfo bytes).check ≠ crc8 (bytes.take 188) then .memoryFault else .valid (bytes.take 188) (slotInfo bytes) := by
  refine if_neg fun h => ?_
  rcases h with h | h
  · exact absurd (hm.symm.trans h) (by decide)
  · exact h ht

theorem judgeSlot_void (hv : (slotInfo bytes).void = true) : judgeSlot slot mark bytes = .void := by
  rw [judgeSlot_of_present hm ht, if_pos hv]

variable (hv : (slotInfo bytes).void = false)
include hv

theorem judgeSlot_memoryFault (hc : (slotInfo bytes).check ≠ crc8 (bytes.take 188)) : judgeSlot slot mark bytes = .memoryFault := by
  rw [judgeSlot_of_present hm ht, hv, if_neg Bool.false_ne_true, if_pos hc]

theorem judgeSlot_valid (hc : (slotInfo bytes).check = crc8 (bytes.take 188)) :
    judgeSlot slot mark bytes = .valid (bytes.take 188) (slotInfo bytes) := by
  rw [judgeSlot_of_present hm ht, hv, if_neg Bool.false_ne_true, if_neg (not_not.2 hc)]

end
end

/-! ## The two events -/

/-- The part with the ring read of a slot under way (R51, R131). -/
def State.ringTaken (s : State) (slot : Word32) (live : Bool) (rest : List FetchRead) : State := s.setCsc { s.csc with
  reads := rest
  taken := some (.ring slot live (s.csc.written.contains (ringSlot s.fiu.ringSize slot))
    (Memory.readSlot s.csc.memory (ringSlot s.fiu.ringSize slot))) }

theorem exec_ringReadTaken {s : State} {slot : Word32} {live : Bool} {rest : List FetchRead} (hr : s.Running)
    (free : s.csc.taken = none) (reads : s.csc.reads = .ring slot live :: rest) :
    exec .ringReadTaken s = .next (s.ringTaken slot live rest).refreshFetch := by
  have granted : s.grant? = some .ringRead := by
    unfold State.grant?
    rw [free, reads]
  change execRingReadTaken s = _
  unfold execRingReadTaken
  rw [ifRunning_of_running hr, if_pos granted, reads]
  rfl

theorem exec_ringReadComplete_delivered {s : State} {slot : Word32} {mark : Bool} {bytes : List Byte} {q : Requested}
    (hr : s.Running) (taken : s.csc.taken = some (.ring slot true mark bytes)) (found : s.esc.findRequested? slot = some q) :
    exec .ringReadComplete s = .next ((s.setCsc { s.csc with taken := none }).deliverSlot q mark bytes) := by
  change execRingReadComplete s = _
  unfold execRingReadComplete
  rw [ifRunning_of_running hr, taken]
  dsimp only
  rw [found]
  exact congrArg _ (if_pos rfl)

/-- A read that no slot waits for, or that was dropped, is discarded (R53, R65). -/
theorem exec_ringReadComplete_discarded {s : State} {slot : Word32} {live mark : Bool} {bytes : List Byte} (hr : s.Running)
    (taken : s.csc.taken = some (.ring slot live mark bytes)) (h : live = false ∨ ∀ q ∈ s.esc.requested, q.slot ≠ slot) :
    exec .ringReadComplete s = .next (s.setCsc { s.csc with taken := none }) := by
  change execRingReadComplete s = _
  unfold execRingReadComplete
  rw [ifRunning_of_running hr, taken]
  dsimp only
  split
  · next q found =>
    rcases h with rfl | h
    · exact congrArg _ (if_neg Bool.false_ne_true)
    · have matched : (q.slot == slot) = true :=
        List.find?_some (p := fun r : Requested => r.slot == slot) (l := s.esc.requested) found
      exact absurd (beq_iff_eq.1 matched) (h q (List.mem_of_find?_eq_some found))
  · rfl

section
variable {s : State} {q : Requested} {mark : Bool} {bytes : List Byte}

theorem deliverSlot_onlyNotifies : OnlyNotifies s (s.deliverSlot q mark bytes) := by
  have kept := handOff_handOffKept (s.countEsc (·.judged (judgeSlot q.slot mark bytes))) q.slot q.exact q.instant
    (judgeSlot q.slot mark bytes)
  exact (OnlyNotifies.of_mgp rfl).trans (kept.mgp.trans (.of_mgp rfl))

theorem deliverSlot_csc : (s.deliverSlot q mark bytes).csc.taken = s.csc.taken
    ∧ (s.deliverSlot q mark bytes).csc.memory = s.csc.memory := by
  have kept := handOff_handOffKept (s.countEsc (·.judged (judgeSlot q.slot mark bytes))) q.slot q.exact q.instant
    (judgeSlot q.slot mark bytes)
  exact ⟨kept.taken, kept.memory⟩

theorem deliverSlot_fetchInstant : (s.deliverSlot q mark bytes).spe.fetchInstant = some q.exact :=
  (handOff_handOffKept (s.countEsc (·.judged (judgeSlot q.slot mark bytes))) q.slot q.exact q.instant _).fetchInstant

theorem deliverSlot_esc : (s.deliverSlot q mark bytes).esc = { s.esc with
    requested := s.esc.requested.map (fun r => if r.slot = q.slot then { r with done := true } else r)
    counters := s.esc.counters.judged (judgeSlot q.slot mark bytes) } := by
  have esc : ((s.countEsc (·.judged (judgeSlot q.slot mark bytes))).handOff q.slot q.exact q.instant
      (judgeSlot q.slot mark bytes)).esc = (s.countEsc (·.judged (judgeSlot q.slot mark bytes))).esc :=
    handOff_frame _ _ _ _ _ .esc (by decide)
  unfold State.deliverSlot State.markDone
  rw [State.setEsc_esc, esc]
  rfl

theorem deliverSlot_pendingSlots {o : SlotOutcome} (hj : judgeSlot q.slot mark bytes = o)
    (h : ∀ p info, o = .valid p info → serviceOf? s.sst.live.map (streamId p) = none) :
    (s.deliverSlot q mark bytes).spe.pendingSlots = s.spe.pendingSlots ++ [⟨q.slot, q.instant, o.content⟩] := by
  subst hj
  exact handOff_pendingSlots (s.countEsc (·.judged (judgeSlot q.slot mark bytes))) q.slot q.exact q.instant h

/-- The judgement counted and the content added, by outcome. -/
theorem deliverSlot_judged {o : SlotOutcome} (hj : judgeSlot q.slot mark bytes = o)
    (h : ∀ p info, o = .valid p info → serviceOf? s.sst.live.map (streamId p) = none) :
    (s.deliverSlot q mark bytes).esc.counters = s.esc.counters.judged o
      ∧ (s.deliverSlot q mark bytes).spe.pendingSlots = s.spe.pendingSlots ++ [⟨q.slot, q.instant, o.content⟩] := by
  refine ⟨?_, deliverSlot_pendingSlots hj h⟩
  rw [deliverSlot_esc, hj]

end

/-- Settles O27: the grant and the slot read (`exec_ringReadTaken`), and by outcome the judgement and the content
(`deliverSlot_judged`). -/
theorem ringReadIsJudged : Obligations.RingReadIsJudged := by
  intro s hr
  refine ⟨fun slot live rest i free reads hi hlt => ?_,
    fun slot live mark bytes taken h => exec_ringReadComplete_discarded hr taken h, fun slot mark bytes q info taken found hinfo => ?_⟩
  · obtain rfl : i = ringSlot s.fiu.ringSize slot := hi
    have hexec := exec_ringReadTaken hr free reads
    have csc : (s.ringTaken slot live rest).refreshFetch.csc = (s.ringTaken slot live rest).csc :=
      refreshFetch_frame _ .csc (by decide)
    refine ⟨_, hexec, ?_, congrArg Csc.reads csc, by rw [csc]; rfl, by rw [csc]; rfl,
      refreshFetch_esc (s.ringTaken slot live rest), fun n f next hf => ?_, fun unexamined => ?_, exec_frame hexec⟩
    · rw [csc, ← Memory.readSlot_of_lt s.csc.memory hlt]
      rfl
    · rw [refreshFetch_of_next (s := s.ringTaken slot live rest) next]
      subst hf
      exact ⟨rfl, anchorsFrom_passed _ _⟩
    · rw [refreshFetch_of_none (s := s.ringTaken slot live rest) unexamined]
      rfl
  · have hslot : q.slot = slot := by simpa using List.find?_some found
    have hexec := exec_ringReadComplete_delivered hr taken found
    subst hslot hinfo
    obtain ⟨free, memory⟩ := deliverSlot_csc (s := s.setCsc { s.csc with taken := none }) (q := q) (mark := mark) (bytes := bytes)
    refine ⟨_, hexec, free, ?_, deliverSlot_fetchInstant, fun h => ?_, fun hm ht hv => ?_, fun hm ht hv hc => ?_,
      fun hm ht hv hc foreign => ?_, memory, exec_frame hexec, (OnlyNotifies.of_mgp rfl).trans deliverSlot_onlyNotifies⟩
    · exact congrArg Esc.requested deliverSlot_esc
    · exact deliverSlot_judged (judgeSlot_absent h) nofun
    · exact deliverSlot_judged (judgeSlot_void hm ht hv) nofun
    · exact deliverSlot_judged (judgeSlot_memoryFault hm ht hv hc) nofun
    · exact deliverSlot_judged (judgeSlot_valid hm ht hv hc) fun p info h => by
        cases h
        exact foreign

end Machine
end Sys2Proof
end

section
/-! PROOFS. Slot times and the examination of slots: the closed form of the skipped slots (R49, R50). -/

set_option Elab.async false

namespace Sys2Proof
namespace Machine

/-! ## Slots skipped under one anchor -/

/-- A slot `j` places on is skipped exactly where its `j` periods fall short of the shortfall. -/
theorem lt_ceilDiv_iff {p : Nat} (hp : 0 < p) (short j : Nat) : j < (short + (p - 1)) / p ↔ j * p < short := by
  rw [← Nat.succ_le_iff, Nat.le_div_iff_mul_le hp, Nat.succ_mul]
  omega

/-- The first test of R50 passes exactly where no units are missing. -/
theorem shortOfFetch_le_iff (e : ExactTime) (lead : Nat) (now : SiteTime) (x : Int) :
    shortOfFetch e lead now ≤ x ↔ (lead : Int) * 16777216 - 16777216 < e.unitsSince now + x := by
  unfold shortOfFetch Config.unitsPerTick
  omega

/-- The second test of R50 passes exactly where no units are missing. -/
theorem shortOfSpacing_le_iff (e : ExactTime) (last : Option SiteTime) (x : Nat) :
    shortOfSpacing e last ≤ x ↔ ∀ t, last = some t → 187 * 16777216 < e.unitsSince t + x := by
  cases last with
  | none => exact iff_of_true (Int.natCast_nonneg x) nofun
  | some t =>
    have short : shortOfSpacing e (some t) = 187 * 16777216 + 1 - e.unitsSince t := rfl
    rw [short]
    exact ⟨fun h _ ht => by cases ht; omega, fun h => by have := h t rfl; omega⟩

theorem lt_skipsUnder_iff {a : Anchor} (hp : 0 < a.period) (slot : Word32) (now : SiteTime) (last : Option SiteTime) (j : Nat) :
    j < skipsUnder a slot now last ↔ ¬ (shortOfFetch (a.exactTime slot) (fetchLead a.period) now ≤ (j * a.period : Nat)
      ∧ shortOfSpacing (a.exactTime slot) last ≤ (j * a.period : Nat)) := by
  rw [← max_le_iff, ← Int.toNat_le, Nat.not_le]
  exact lt_ceilDiv_iff hp _ j

/-! ## Site times across the wrap of the second count (log 34) -/

/-- The ticks of a site time, counted from second 0. -/
def SiteTime.ticks (t : SiteTime) : Int := (t.sec.toNat : Int) * 27000000 + t.tick

/-- The ticks in a wrap of the second count. -/
def secondWrap : Int := 4294967296 * 27000000

theorem sdiff_modEq (a b : Word32) : sdiff a b ≡ (a.toNat : Int) - b.toNat [ZMOD 4294967296] := by
  have whole : sdiff a b ≡ (a - b).toNat [ZMOD ((2 ^ 32 : Nat) : Int)] := by
    unfold sdiff Int.ModEq
    rw [BitVec.toInt_eq_toNat_bmod, Int.bmod_emod]
  refine whole.trans ?_
  unfold Int.ModEq
  rw [BitVec.toNat_sub]
  omega

theorem SiteTime.since_modEq (a b : SiteTime) : a.since b ≡ a.ticks - b.ticks [ZMOD secondWrap] := by
  have seconds := (sdiff_modEq a.sec b.sec).mul_right' (c := 27000000)
  have total := seconds.add_right ((a.tick : Int) - b.tick)
  unfold SiteTime.since SiteTime.ticks secondWrap Config.ticksPerSecond
  refine total.trans (congrArg (· % _) ?_)
  ring

theorem SiteTime.add_ticks_modEq (t : SiteTime) (k : Int) : (t.add k).ticks ≡ t.ticks + k [ZMOD secondWrap] := by
  have carried : ((t.sec + BitVec.ofInt 32 (((t.tick : Int) + k) / 27000000)).toNat : Int)
      ≡ t.sec.toNat + ((t.tick : Int) + k) / 27000000 [ZMOD 4294967296] := by
    unfold Int.ModEq
    rw [BitVec.toNat_add, BitVec.toNat_ofInt]
    omega
  have seconds := carried.mul_right' (c := 27000000)
  have total := seconds.add_right (((t.tick : Int) + k) % 27000000)
  have tick : ((t.add k).tick : Int) = ((t.tick : Int) + k) % 27000000 := Int.toNat_of_nonneg (Int.emod_nonneg _ (by decide))
  unfold SiteTime.ticks secondWrap
  rw [tick]
  refine total.trans (congrArg (· % _) ?_)
  omega

/-- Two site times lie less than half a wrap, and a second, apart. -/
theorem SiteTime.since_bounds {a b : SiteTime} (ha : a.tick < 27000000) (hb : b.tick < 27000000) :
    -(2147483649 * 27000000) < a.since b ∧ a.since b < 2147483648 * 27000000 := by
  have low : -2147483648 ≤ sdiff a.sec b.sec := BitVec.le_toInt (a.sec - b.sec)
  have high : sdiff a.sec b.sec < 2147483648 := BitVec.toInt_lt (x := a.sec - b.sec)
  unfold SiteTime.since Config.ticksPerSecond
  omega

/-- The difference of two site times is the one number of ticks with its remainder that lies within half a wrap. -/
theorem SiteTime.since_eq {a b : SiteTime} (ha : a.tick < 27000000) (hb : b.tick < 27000000) {x : Int}
    (hm : x ≡ a.ticks - b.ticks [ZMOD secondWrap]) (hx : x.natAbs < 2147483647 * 27000000) : a.since b = x := by
  obtain ⟨low, high⟩ := SiteTime.since_bounds ha hb
  obtain ⟨wraps, h⟩ := ((SiteTime.since_modEq a b).trans hm.symm).symm.dvd
  unfold secondWrap at h
  omega

/-- Ticks added to a time are added to its difference, within half a wrap. -/
theorem SiteTime.add_since {t u : SiteTime} (hu : u.tick < 27000000) {k : Int}
    (h : (t.since u + k).natAbs < 2147483647 * 27000000) : (t.add k).since u = t.since u + k := by
  refine SiteTime.since_eq (SiteTime.add_tick_lt t k) hu ?_ h
  have moved : t.since u + k ≡ (t.ticks - u.ticks) + k [ZMOD secondWrap] := (SiteTime.since_modEq t u).add_right k
  have added : (t.ticks + k) - u.ticks ≡ (t.add k).ticks - u.ticks [ZMOD secondWrap] :=
    (SiteTime.add_ticks_modEq t k).symm.sub_right _
  exact moved.trans (by rwa [show t.ticks - u.ticks + k = t.ticks + k - u.ticks by ring])

/-- Within half a wrap a time has been reached exactly where the difference from it is not negative. -/
theorem SiteTime.before_eq_false_iff {t u : SiteTime} (ht : t.tick < 27000000) (hu : u.tick < 27000000)
    (h : (t.since u).natAbs < 2147483647 * 27000000) : t.before u = false ↔ 0 ≤ t.since u := by
  unfold SiteTime.since Config.ticksPerSecond at h ⊢
  unfold SiteTime.before
  by_cases hs : t.sec = u.sec
  · have zero : sdiff t.sec u.sec = 0 := by rw [hs, sdiff, BitVec.sub_self, BitVec.toInt_zero]
    rw [if_pos hs, decide_eq_false_iff_not, zero]
    omega
  · have away : sdiff t.sec u.sec ≠ 0 := fun h0 => hs (by
      have := BitVec.eq_of_toInt_eq (h0.trans (BitVec.toInt_zero (w := 32)).symm)
      bv_omega)
    have turned : sdiff u.sec t.sec = -sdiff t.sec u.sec := by
      have mod := (sdiff_modEq u.sec t.sec).add (sdiff_modEq t.sec u.sec)
      obtain ⟨wraps, h0⟩ := mod.symm.dvd
      have low := BitVec.le_toInt (u.sec - t.sec)
      have high := BitVec.toInt_lt (x := u.sec - t.sec)
      unfold sdiff at *
      omega
    rw [if_neg hs, decide_eq_false_iff_not, turned]
    omega

/-! ## The times of a slot (R49) -/

theorem exactAfter_frac_lt (t : SiteTime) (x : Nat) : (exactAfter t x).frac < 16777216 := Nat.mod_lt _ (by decide)

theorem slot_places {ref slot : Word32} {j : Nat} (h : (slot - ref).toNat + j < 4294967296) :
    (slot + BitVec.ofNat 32 j - ref).toNat = (slot - ref).toNat + j := by
  bv_omega

section
variable {t u : SiteTime} (hu : u.tick < 27000000)
include hu

/-- Units added to an exact time are added to its difference, within half a wrap. -/
theorem exactAfter_unitsSince {x y : Nat}
    (hb : ((exactAfter t x).unitsSince u + y).natAbs < 2147483646 * (27000000 * 16777216)) :
    (exactAfter t (x + y)).unitsSince u = (exactAfter t x).unitsSince u + y := by
  have ticks (z : Nat) : (exactAfter t z).time.ticks ≡ t.ticks + (z / 16777216 : Nat) [ZMOD secondWrap] := SiteTime.add_ticks_modEq t _
  have units (z : Nat) : (exactAfter t z).unitsSince u = (exactAfter t z).time.since u * 16777216 + (z % 16777216 : Nat) := rfl
  have moved : (exactAfter t (x + y)).time.since u
      = (exactAfter t x).time.since u + (((x + y) / 16777216 : Nat) - (x / 16777216 : Nat)) := by
    refine SiteTime.since_eq (a := (exactAfter t (x + y)).time) (SiteTime.add_tick_lt t _) hu ?_ ?_
    · have start := SiteTime.since_modEq (exactAfter t x).time u
      have later := ((ticks (x + y)).sub (ticks x)).symm.add_left ((exactAfter t x).time.ticks - u.ticks)
      rw [add_sub_add_left_eq_sub, sub_add_sub_cancel'] at later
      exact (start.add_right _).trans later
    · rw [units] at hb
      omega
  rw [units, units, moved]
  omega

theorem exactTime_unitsSince {a : Anchor} {slot : Word32} {j : Nat} (hs : (slot - a.ref).toNat + j < 4294967296)
    (hb : ((a.exactTime slot).unitsSince u + (j * a.period : Nat)).natAbs < 2147483646 * (27000000 * 16777216)) :
    (a.exactTime (slot + BitVec.ofNat 32 j)).unitsSince u = (a.exactTime slot).unitsSince u + (j * a.period : Nat) := by
  unfold Anchor.exactTime at hb ⊢
  rw [slot_places hs, Nat.add_mul, exactAfter_unitsSince hu hb]

/-- The instant of an exact time is its next whole tick, within half a wrap. -/
theorem ceil_since {e : ExactTime} (hb : (e.unitsSince u).natAbs < 2147483646 * (27000000 * 16777216)) (hf : e.frac < 16777216)
    (x : Int) : x ≤ e.ceil.since u ↔ x * 16777216 - 16777216 < e.unitsSince u := by
  unfold ExactTime.unitsSince Config.unitsPerTick at *
  unfold ExactTime.ceil
  split
  · omega
  · rw [SiteTime.add_since hu (by omega)]
    omega

end

/-- A time is reached its lead before the next whole tick, within half a wrap. -/
theorem reached_before {c u : SiteTime} (hu : u.tick < 27000000) {lead : Nat} {units : Int} (hl : lead ≤ 8 * 27000000)
    (hb : units.natAbs < 1610612736 * (27000000 * 16777216)) (whole : ∀ x, x ≤ c.since u ↔ x * 16777216 - 16777216 < units) :
    (c.add (-(lead : Int))).before u = false ↔ (lead : Int) * 16777216 - 16777216 < units := by
  have least := (whole (c.since u)).1 le_rfl
  have greatest := mt (whole (c.since u + 1)).2 (by omega)
  have moved := SiteTime.add_since (t := c) hu (k := -(lead : Int)) (by omega)
  rw [SiteTime.before_eq_false_iff (SiteTime.add_tick_lt _ _) hu (by rw [moved]; omega), moved, ← whole lead]
  omega

theorem fetchLead_bound {p : Nat} (h : p < 27000000 * 16777216) : fetchLead p ≤ 8 * 27000000 := by
  unfold fetchLead ceilUnits Config.unitsPerTick
  omega

/-! ## The accepted slot (R50) -/

theorem firstAccepted_slot {now : SiteTime} {last : Option SiteTime} :
    ∀ {slot : Word32} {anchors : List Anchor} {n : NextSlot} {k : Nat}, firstAccepted now last slot anchors = some (n, k) → n.slot = slot + BitVec.ofNat 32 k
  | _, [], _, _, h => nomatch h
  | slot, [a], _, _, h => by
    cases h
    rfl
  | slot, a :: b :: rest, n, k, h => by
    unfold firstAccepted at h
    dsimp only at h
    split at h
    · cases h
      rfl
    · obtain ⟨⟨m, i⟩, hm, hn⟩ := Option.map_eq_some_iff.1 h
      cases hn
      rw [firstAccepted_slot hm, BitVec.ofNat_add, BitVec.ofNat_toNat, BitVec.setWidth_eq]
      bv_omega

/-- Settles O25: the shortfall divided by the period (`lt_skipsUnder_iff`), the two tests in whole ticks (`ceil_since`), and the
slots of the accepted anchor (`firstAccepted_slot`). -/
theorem skippedSlotsFailTheTests : Obligations.SkippedSlotsFailTheTests := by
  refine ⟨fun a slot now last k j e hp hk he => ?_, fun a slot now j e n _ hnow he hn hslot hstart hrun hp => ?_,
    fun now last slot anchors n k => firstAccepted_slot⟩
  · subst hk he
    have skipped := lt_skipsUnder_iff hp slot now last j
    rw [shortOfFetch_le_iff, shortOfSpacing_le_iff, Nat.cast_mul] at skipped
    refine ⟨fun hj => ?_, fun hj => ?_⟩
    · have passed := not_not.1 (mt skipped.2 (by omega))
      exact passed
    · have failed := skipped.1 hj
      by_cases first : (fetchLead a.period : Int) * 16777216 - 16777216 < (a.exactTime slot).unitsSince now + j * a.period
      · right
        by_contra spaced
        exact failed ⟨first, fun t ht => Int.not_le.1 fun hle => spaced ⟨t, ht, hle⟩⟩
      · exact .inl (Int.not_lt.1 first)
  · subst he hn
    have units := exactTime_unitsSince hnow hslot (by rw [Nat.cast_mul]; omega)
    rw [Nat.cast_mul] at units
    have bound : ((a.exactTime (slot + BitVec.ofNat 32 j)).unitsSince now).natAbs < 1610612736 * (27000000 * 16777216) := by
      rw [units]
      omega
    have frac := exactAfter_frac_lt a.time ((slot + BitVec.ofNat 32 j - a.ref).toNat * a.period)
    have whole := ceil_since hnow (e := a.exactTime (slot + BitVec.ofNat 32 j)) (by omega) frac
    rw [units] at whole
    rw [units] at bound
    exact ⟨rfl, reached_before hnow (fetchLead_bound hp) bound whole, whole 188⟩

end Machine
end Sys2Proof
end

section
/-! PROOFS. What an emission leaves in the Splice Engine: the continuity table, the check of a returning stream, the passes of
clips (R160 to R167). -/

set_option Elab.async false

namespace Sys2Proof
namespace Machine

/-! ## The entries of the continuity table (R161) -/

theorem continuityOf_cons (x : Continuity) (rest : List Continuity) (n : Nat) :
    continuityOf? (x :: rest) n = if n = x.stream then some x else continuityOf? rest n := by
  unfold continuityOf?
  rw [List.find?_cons]
  by_cases h : n = x.stream
  · rw [if_pos h, h, beq_self_eq_true]
  · rw [if_neg h, beq_false_of_ne (Ne.symm h)]

theorem continuityOf_stream {table : List Continuity} {n : Nat} {c : Continuity} (h : continuityOf? table n = some c) :
    c.stream = n := by
  simpa using List.find?_some h

theorem continuityOf_isNone {table : List Continuity} {n : Nat} (h : ∀ c ∈ table, c.stream ≠ n) : continuityOf? table n = none :=
  List.find?_eq_none.2 fun c hc he => h c hc (beq_iff_eq.1 he)

/-- An entry that is put is found under its stream, and the others are found as before. -/
theorem continuityOf_putContinuity (c : Continuity) (n : Nat) : ∀ table : List Continuity,
    continuityOf? (putContinuity c table) n = if n = c.stream then some c else continuityOf? table n
  | [] => continuityOf_cons c [] n
  | x :: rest => by
    unfold putContinuity
    split
    · exact continuityOf_cons c (x :: rest) n
    · split
      · next hs =>
        rw [continuityOf_cons, continuityOf_cons]
        split
        · rfl
        · next hn => rw [if_neg fun h => hn (h.trans hs.symm)]
      · next hne =>
        rw [continuityOf_cons, continuityOf_cons, continuityOf_putContinuity c n rest]
        by_cases hx : n = x.stream
        · rw [if_pos hx, if_pos hx, if_neg fun h => hne (h.symm.trans hx)]
        · rw [if_neg hx, if_neg hx]

/-- The entry that is taken out is the one of the lowest stream that is no SERVICE stream. -/
theorem continuityOf_evictContinuity {map : List MapEntry} {gone : Continuity} (hs : serviceOf? map gone.stream = none) (n : Nat) :
    ∀ {table : List Continuity}, RisingStreams table → gone ∈ table →
      (∀ x ∈ table, serviceOf? map x.stream = none → gone.stream ≤ x.stream) →
      continuityOf? (evictContinuity map table) n = if n = gone.stream then none else continuityOf? table n
  | x :: rest, rising, hg, least => by
    obtain ⟨above, rising⟩ := risingStreams_cons.1 rising
    unfold evictContinuity
    split
    · next hx =>
      obtain rfl : gone = x := by
        rcases List.mem_cons.1 hg with h | h
        · exact h
        · have := above gone h
          have := least x (List.mem_cons_self ..) (Option.isNone_iff_eq_none.1 hx)
          omega
      rw [continuityOf_cons]
      split
      · next hn => exact continuityOf_isNone fun c hc => hn ▸ (above c hc).ne'
      · rfl
    · next hx =>
      have hg : gone ∈ rest := (List.mem_cons.1 hg).resolve_left fun h => hx (by rw [← h, hs]; rfl)
      rw [continuityOf_cons, continuityOf_cons, continuityOf_evictContinuity hs n rising hg fun y hy => least y (List.mem_cons_of_mem _ hy)]
      have := above gone hg
      by_cases hn : n = x.stream
      · rw [if_pos hn, if_pos hn, if_neg (by omega)]
      · rw [if_neg hn, if_neg hn]

section
variable {map : List MapEntry} {table : List Continuity} {stream : Nat} (count : Nat) {held : Bool}

theorem updateContinuity_held (hs : (serviceOf? map stream).isSome = true) {c : Continuity} (hc : continuityOf? table stream = some c) :
    updateContinuity map table stream count held = putContinuity { c with count := count } table := by
  unfold updateContinuity
  rw [hc]
  exact if_pos (by rw [hs]; rfl)

theorem updateContinuity_room (hs : (serviceOf? map stream).isSome = true) (hn : continuityOf? table stream = none)
    (hroom : table.length < 32) :
    updateContinuity map table stream count held = putContinuity { stream := stream, count := count, returning := false } table := by
  unfold updateContinuity
  rw [hn]
  exact (if_pos hs).trans (congrArg (putContinuity _) (if_pos hroom))

theorem updateContinuity_full (hs : (serviceOf? map stream).isSome = true) (hn : continuityOf? table stream = none)
    (hfull : table.length = 32) : updateContinuity map table stream count held
      = putContinuity { stream := stream, count := count, returning := false } (evictContinuity map table) := by
  unfold updateContinuity
  rw [hn]
  exact (if_pos hs).trans (congrArg (putContinuity _) (if_neg (by rw [hfull]; decide)))

theorem updateContinuity_foreign (hs : serviceOf? map stream = none) (hn : continuityOf? table stream = none) :
    updateContinuity map table stream count held = table := by
  unfold updateContinuity
  rw [hn, hs]
  rfl

end

/-! ## The discontinuity mark (R162) -/

theorem byteAt_setDiscontinuity_of_ne (p : List Byte) {n : Nat} (h : n - 1 ≠ 5) : byteAt (setDiscontinuity p) n = byteAt p n := by
  unfold setDiscontinuity setByte byteAt
  rw [List.getD_eq_getElem?_getD, List.getElem?_set_ne (Ne.symm h), List.getD_eq_getElem?_getD]

theorem byteAt_setDiscontinuity (p : List Byte) :
    byteAt (setDiscontinuity p) 6 = byteAt p 6 ||| 0x80#8 ∨ byteAt (setDiscontinuity p) 6 = byteAt p 6 := by
  unfold setDiscontinuity setByte
  by_cases h : 5 < p.length
  · exact .inl (by simp [byteAt, h])
  · rw [List.set_eq_of_length_le (Nat.le_of_not_lt h)]
    exact .inr rfl

/-- The mark leaves whether the packet carries a clock stamp. -/
theorem carriesStamp_setDiscontinuity (p : List Byte) : carriesStamp (setDiscontinuity p) = carriesStamp p := by
  have flag : (byteAt (setDiscontinuity p) 6).getLsbD 4 = (byteAt p 6).getLsbD 4 := by
    rcases byteAt_setDiscontinuity p with h | h
    · rw [h, BitVec.getLsbD_or]
      exact Bool.or_false _
    · rw [h]
  unfold carriesStamp adaptationLength? adaptation
  rw [byteAt_setDiscontinuity_of_ne p (by decide), byteAt_setDiscontinuity_of_ne p (by decide), flag]

/-- The mark leaves the clock stamp. -/
theorem stampValue_setDiscontinuity (p : List Byte) : stampValue (setDiscontinuity p) = stampValue p := by
  have bits : stampBits (setDiscontinuity p) = stampBits p := by
    unfold stampBits setDiscontinuity setByte
    rw [List.drop_set_of_lt (by decide)]
  unfold stampValue
  rw [bits]

/-! ## The check of a returning stream (R162) -/

/-- The part with the mark of a stream cleared and the packet's count kept. -/
def State.returned (s : State) (c : Continuity) (p : List Byte) : State := s.setSpe { s.spe with
  continuity := putContinuity { c with count := continuityCount p, returning := false } s.spe.continuity }

section
variable {s : State} {p : List Byte}

theorem checkReturning_unmarked (h : ∀ c, continuityOf? s.spe.continuity (streamId p) = some c → c.returning = false) :
    s.checkReturning p = (s, p) := by
  unfold State.checkReturning
  split
  · next c hc => exact if_neg (by rw [h c hc]; decide)
  · rfl

section
variable {c : Continuity} (hc : continuityOf? s.spe.continuity (streamId p) = some c) (hr : c.returning = true)
include hc hr

theorem checkReturning_expected (he : continuityCount p = expectedCount c.count p) : s.checkReturning p = (s.returned c p, p) := by
  unfold State.checkReturning
  rw [hc]
  exact (if_pos hr).trans (if_pos he)

theorem checkReturning_marked (he : continuityCount p ≠ expectedCount c.count p) (hm : hasMarkRoom p = true) : s.checkReturning p =
    ((s.returned c p).countSpe (fun k => { k with discontinuityMarksSet := bump k.discontinuityMarksSet }), setDiscontinuity p) := by
  unfold State.checkReturning
  rw [hc]
  exact (if_pos hr).trans ((if_neg he).trans (if_pos hm))

theorem checkReturning_broken (he : continuityCount p ≠ expectedCount c.count p) (hm : hasMarkRoom p = false) : s.checkReturning p =
    ((s.returned c p).countSpe (fun k => { k with continuityBreaks := bump k.continuityBreaks }), p) := by
  unfold State.checkReturning
  rw [hc]
  exact (if_pos hr).trans ((if_neg he).trans (if_neg (by rw [hm]; decide)))

/-- A marked stream: its mark is cleared in the table. -/
theorem checkReturning_returned : (s.checkReturning p).1.spe.continuity
    = putContinuity { c with count := continuityCount p, returning := false } s.spe.continuity := by
  by_cases he : continuityCount p = expectedCount c.count p
  · rw [checkReturning_expected hc hr he]
    rfl
  · cases hm : hasMarkRoom p with
    | false =>
      rw [checkReturning_broken hc hr he hm]
      rfl
    | true =>
      rw [checkReturning_marked hc hr he hm]
      rfl

end

theorem checkReturning_spe (s : State) (p : List Byte) : (s.checkReturning p).1.spe = { s.spe with
    continuity := (s.checkReturning p).1.spe.continuity, counters := (s.checkReturning p).1.spe.counters } := by
  unfold State.checkReturning
  split
  · dsimp only
    split
    · split
      · rfl
      · split <;> rfl
    · rfl
  · rfl

/-- The packet goes out as it is or with the discontinuity mark. -/
theorem checkReturning_packet (s : State) (p : List Byte) :
    (s.checkReturning p).2 = p ∨ (s.checkReturning p).2 = setDiscontinuity p := by
  unfold State.checkReturning
  split
  · dsimp only
    split
    · split
      · exact .inl rfl
      · split
        · exact .inr rfl
        · exact .inl rfl
    · exact .inl rfl
  · exact .inl rfl

theorem checkReturning_carriesStamp : carriesStamp (s.checkReturning p).2 = carriesStamp p := by
  rcases checkReturning_packet s p with h | h
  · rw [h]
  · rw [h, carriesStamp_setDiscontinuity]

theorem checkReturning_stampValue : stampValue (s.checkReturning p).2 = stampValue p := by
  rcases checkReturning_packet s p with h | h
  · rw [h]
  · rw [h, stampValue_setDiscontinuity]

/-- After the check the packet's stream is not marked, and every other entry is found as before. -/
theorem checkReturning_continuityOf (s : State) (p : List Byte) :
    (∀ n, n ≠ streamId p → continuityOf? (s.checkReturning p).1.spe.continuity n = continuityOf? s.spe.continuity n)
      ∧ (∀ c, continuityOf? (s.checkReturning p).1.spe.continuity (streamId p) = some c → c.returning = false) := by
  by_cases unmarked : ∀ c, continuityOf? s.spe.continuity (streamId p) = some c → c.returning = false
  · rw [checkReturning_unmarked unmarked]
    exact ⟨fun _ _ => rfl, unmarked⟩
  · obtain ⟨c, hc, hr⟩ : ∃ c, continuityOf? s.spe.continuity (streamId p) = some c ∧ c.returning = true := by
      simpa using unmarked
    have hs := continuityOf_stream hc
    refine ⟨fun n hn => ?_, fun d hd => ?_⟩
    · rw [checkReturning_returned hc hr, continuityOf_putContinuity, if_neg (by rwa [hs])]
    · rw [checkReturning_returned hc hr, continuityOf_putContinuity, if_pos hs.symm] at hd
      cases hd
      rfl

/-- A stream that the table does not hold is not checked. -/
theorem checkReturning_absent (h : continuityOf? s.spe.continuity (streamId p) = none) : s.checkReturning p = (s, p) :=
  checkReturning_unmarked fun _ hc => absurd (h.symm.trans hc) nofun

/-- A stream that the table holds is held after the check. -/
theorem checkReturning_held (h : (continuityOf? s.spe.continuity (streamId p)).isSome = true) :
    ∃ c, continuityOf? (s.checkReturning p).1.spe.continuity (streamId p) = some c := by
  obtain ⟨c, hc⟩ := Option.isSome_iff_exists.1 h
  cases hr : c.returning with
  | false =>
    rw [checkReturning_unmarked fun d hd => by cases hc.symm.trans hd; exact hr]
    exact ⟨c, hc⟩
  | true =>
    rw [checkReturning_returned hc hr, continuityOf_putContinuity]
    exact ⟨_, if_pos (continuityOf_stream hc).symm⟩

end

/-! ## A programme packet (R161, R162, R164) -/

section
variable {s : State} {instant : SiteTime} {p : List Byte} {info : SlotInfo}

theorem completeProgramme_packet : (s.completeProgramme instant p info).2 = (s.checkReturning p).2 := by
  unfold State.completeProgramme
  dsimp only
  split <;> rfl

/-- The table takes the packet's count, and the tracker of its service its stamp. -/
theorem completeProgramme_spe : (s.completeProgramme instant p info).1.spe = { (s.checkReturning p).1.spe with
    continuity := updateContinuity (s.checkReturning p).1.sst.live.map (s.checkReturning p).1.spe.continuity (streamId p)
      (continuityCount p) false
    services := (s.completeProgramme instant p info).1.spe.services } := by
  unfold State.completeProgramme
  dsimp only
  split
  · split <;> rfl
  · rfl

theorem completeProgramme_counters : (s.completeProgramme instant p info).1.spe.counters = (s.checkReturning p).1.spe.counters := by
  rw [completeProgramme_spe]

theorem completeProgramme_pendingSlots : (s.completeProgramme instant p info).1.spe.pendingSlots = s.spe.pendingSlots := by
  rw [completeProgramme_spe, checkReturning_spe]

theorem completeProgramme_continuity : (s.completeProgramme instant p info).1.spe.continuity
    = updateContinuity s.sst.live.map (s.checkReturning p).1.spe.continuity (streamId p) (continuityCount p) false := by
  have sst : (s.checkReturning p).1.sst = s.sst := checkReturning_frame s p .sst (by decide)
  rw [completeProgramme_spe, sst]

theorem completeProgramme_tracked (hb : info.clockBearing = true) (hc : carriesStamp p = true) {v : Service}
    (hv : Service.ofNat? info.service = some v) : (s.completeProgramme instant p info).1.spe.services
      = s.spe.services.set v { s.spe.services.get v with tracker := some ⟨stampValue p, instant⟩ } := by
  have same := congrArg Spe.services (checkReturning_spe s p)
  unfold State.completeProgramme
  rw [hv]
  dsimp only
  rw [checkReturning_carriesStamp, hb, hc, checkReturning_stampValue]
  change (s.checkReturning p).1.spe.services.set v { (s.checkReturning p).1.spe.services.get v with tracker := _ } = _
  rw [same]

theorem completeProgramme_untracked
    (h : info.clockBearing = false ∨ carriesStamp p = false ∨ Service.ofNat? info.service = none) :
    (s.completeProgramme instant p info).1.spe.services = s.spe.services := by
  have same := congrArg Spe.services (checkReturning_spe s p)
  unfold State.completeProgramme
  dsimp only
  rw [checkReturning_carriesStamp]
  split
  · next v hv =>
    have unstamped : (info.clockBearing && carriesStamp p) = false := by
      rcases h with h | h | h
      · rw [h]
        rfl
      · rw [h, Bool.and_false]
      · exact absurd (h.symm.trans hv) nofun
    rw [unstamped]
    exact same
  · exact same

/-- With a place for it, a SERVICE stream's entry is the packet's count. -/
theorem completeProgramme_counted (hs : (serviceOf? s.sst.live.map (streamId p)).isSome = true)
    (hroom : s.spe.continuity.length < 32 ∨ (continuityOf? s.spe.continuity (streamId p)).isSome = true) (k : Nat) :
    continuityOf? (s.completeProgramme instant p info).1.spe.continuity k = if k = streamId p
      then some { stream := k, count := continuityCount p, returning := false } else continuityOf? s.spe.continuity k := by
  obtain ⟨others, unmarked⟩ := checkReturning_continuityOf s p
  rw [completeProgramme_continuity]
  cases absent : continuityOf? s.spe.continuity (streamId p) with
  | none =>
    have room : s.spe.continuity.length < 32 := hroom.resolve_right (by rw [absent]; exact nofun)
    rw [checkReturning_absent absent, updateContinuity_room _ hs absent room, continuityOf_putContinuity]
    split
    · next hk => rw [hk]
    · rfl
  | some e =>
    obtain ⟨c, hc⟩ := checkReturning_held (s := s) (p := p) (by rw [absent]; rfl)
    rw [updateContinuity_held _ hs hc, continuityOf_putContinuity, continuityOf_stream hc]
    split
    · next hk => rw [hk, ← continuityOf_stream hc, ← unmarked c hc]
    · next hk => exact others k hk

/-- In a full table the entry of a new SERVICE stream takes the place of the lowest stream that is none. -/
theorem completeProgramme_evicted {gone : Continuity} (hg : gone ∈ s.spe.continuity) (rising : RisingStreams s.spe.continuity)
    (hs : (serviceOf? s.sst.live.map (streamId p)).isSome = true) (hfull : s.spe.continuity.length = 32)
    (absent : continuityOf? s.spe.continuity (streamId p) = none) (hgone : serviceOf? s.sst.live.map gone.stream = none)
    (least : ∀ x ∈ s.spe.continuity, serviceOf? s.sst.live.map x.stream = none → gone.stream ≤ x.stream) (k : Nat) :
    continuityOf? (s.completeProgramme instant p info).1.spe.continuity k = if k = streamId p
      then some { stream := k, count := continuityCount p, returning := false }
      else if k = gone.stream then none else continuityOf? s.spe.continuity k := by
  rw [completeProgramme_continuity, checkReturning_absent absent, updateContinuity_full _ hs absent hfull,
    continuityOf_putContinuity, continuityOf_evictContinuity hgone k rising hg least]
  split
  · next hk => rw [hk]
  · rfl

theorem completeProgramme_foreign (hs : serviceOf? s.sst.live.map (streamId p) = none)
    (absent : continuityOf? s.spe.continuity (streamId p) = none) :
    (s.completeProgramme instant p info).1.spe.continuity = s.spe.continuity := by
  rw [completeProgramme_continuity, checkReturning_absent absent, updateContinuity_foreign _ hs absent]

end

/-! ## A clip packet (R158, R161, R163 to R167) -/

theorem PerService.set_get {α : Type} (p : PerService α) (v : Service) : p.set v (p.get v) = p := by
  cases v <;> rfl

/-- The offset of a pass that begins at an instant (R165). -/
def ServiceState.startOffset (x : ServiceState) (c : ClipContent) (instant : SiteTime) : Nat :=
  match x.tracker with
  | some t => passOffset t instant (if c.packet = 0 then c.firstStamp.getD 0 else x.resumeStamp.getD (c.firstStamp.getD 0))
  | none => 0

/-- A service after the pass of a clip packet is begun, where the packet begins one (R165). -/
def ServiceState.begun (x : ServiceState) (c : ClipContent) (instant : SiteTime) : ServiceState := { x with
  slateOffset := if c.passStart = true ∧ c.slate = true then x.startOffset c instant else x.slateOffset
  breakOffset := if c.passStart = true ∧ c.slate = false then x.startOffset c instant else x.breakOffset
  resumeStamp := if c.slate = false ∧ c.packet = 0 then none else x.resumeStamp }

theorem startOffset_tracked {x : ServiceState} {c : ClipContent} {instant : SiteTime} {t : Tracker} (h : x.tracker = some t) :
    x.startOffset c instant = passOffset t instant (passBase x c) := by
  unfold ServiceState.startOffset passBase
  rw [h]
  cases x.resumeStamp <;> rfl

theorem startOffset_untracked {x : ServiceState} {c : ClipContent} {instant : SiteTime} (h : x.tracker = none) :
    x.startOffset c instant = 0 := by
  unfold ServiceState.startOffset
  rw [h]

section
variable (s : State) (c : ClipContent) (instant : SiteTime)

/-- The offset of a pass is set in its service, and a pass with no tracker is counted. -/
theorem fixOffset_spe : (s.fixOffset c instant).spe = { s.spe with
    services := s.spe.services.set c.service (if c.passStart = true
      then (s.spe.services.get c.service).setOffset c.slate ((s.spe.services.get c.service).startOffset c instant)
      else s.spe.services.get c.service),
    counters := { s.spe.counters with
      unrebasedPasses := (if c.passStart = true ∧ (s.spe.services.get c.service).tracker = none
        then bump s.spe.counters.unrebasedPasses else s.spe.counters.unrebasedPasses) } } := by
  unfold State.fixOffset
  by_cases hp : c.passStart = true
  · rw [if_pos hp, if_pos hp]
    dsimp only
    cases ht : (s.spe.services.get c.service).tracker with
    | none =>
      rw [startOffset_untracked ht, if_pos ⟨hp, rfl⟩]
      rfl
    | some t =>
      rw [startOffset_tracked ht, if_neg fun h => nomatch h.2]
      rfl
  · rw [if_neg hp, if_neg hp, if_neg fun h => hp h.1, PerService.set_get]

theorem clearResume_spe : (s.clearResume c).spe = { s.spe with services := (s.spe.services.set c.service
    { s.spe.services.get c.service with
      resumeStamp := (if c.slate = false ∧ c.packet = 0 then none else (s.spe.services.get c.service).resumeStamp) }) } := by
  unfold State.clearResume
  split
  · rfl
  · rw [PerService.set_get]

theorem begun_eq (x : ServiceState) :
    { (if c.passStart = true then x.setOffset c.slate (x.startOffset c instant) else x) with
      resumeStamp := (if c.slate = false ∧ c.packet = 0 then none
        else (if c.passStart = true then x.setOffset c.slate (x.startOffset c instant) else x).resumeStamp) }
      = x.begun c instant := by
  unfold ServiceState.begun ServiceState.setOffset
  cases c.passStart with
  | false => rfl
  | true => cases c.slate <;> rfl

/-- The Splice Engine after the pass of a clip packet is begun. -/
theorem passBegun_spe : ((s.fixOffset c instant).clearResume c).spe = { s.spe with
    services := s.spe.services.set c.service ((s.spe.services.get c.service).begun c instant),
    counters := { s.spe.counters with
      unrebasedPasses := (if c.passStart = true ∧ (s.spe.services.get c.service).tracker = none
        then bump s.spe.counters.unrebasedPasses else s.spe.counters.unrebasedPasses) } } := by
  rw [clearResume_spe, fixOffset_spe, PerService.set_set, PerService.get_set, ← begun_eq c instant (s.spe.services.get c.service)]

end

section
variable {s : State} {c : ClipContent} {instant : SiteTime} {p : List Byte} {info : SlotInfo}

theorem countScrambled_spe (s : State) (p : List Byte) : (s.countScrambled p).spe = { s.spe with counters := { s.spe.counters with
    scrambledUnitStamps := (if unitStart p = true ∧ scrambling p ≠ 0
      then bump s.spe.counters.scrambledUnitStamps else s.spe.counters.scrambledUnitStamps) } } := by
  unfold State.countScrambled
  by_cases h : unitStart p = true ∧ scrambling p ≠ 0
  · rw [if_pos h, if_pos (by simpa using h)]
    rfl
  · rw [if_neg h, if_neg (by simpa using h)]

theorem noteResume_spe (s : State) (c : ClipContent) (stamped : Bool) (p : List Byte) : (s.noteResume c stamped p).spe = { s.spe with
    services := (if c.slate = false ∧ stamped = true then s.spe.services.set c.service
      { s.spe.services.get c.service with resumeStamp := some (stampValue p) } else s.spe.services) } := by
  unfold State.noteResume
  split <;> rfl

theorem countSpe_spe (s : State) (f : SpeCounters → SpeCounters) :
    (s.countSpe f).spe = { s.spe with counters := f s.spe.counters } := rfl

theorem track_spe (s : State) (v : Service) (stamp : Nat) (instant : SiteTime) : (s.track v stamp instant).spe = { s.spe with
    services := s.spe.services.set v { s.spe.services.get v with tracker := some ⟨stamp, instant⟩ } } := rfl

/-- A packet of a clip with its notes made, before its stamp reaches the tracker. -/
def State.clipNoted (s : State) (c : ClipContent) (p : List Byte) (stamped : Bool) : State :=
  ((s.countScrambled p).noteResume c stamped p).noteCount (streamId p)
    (continuityCount (emittedClip s.spe.continuity (s.offsetOf c) p)) true

theorem completeClip_of_stamped (h : info.clockBearing = true ∧ carriesStamp p = true) : s.completeClip instant c p info =
    ((s.clipNoted c p true).track c.service (stampValue (emittedClip s.spe.continuity (s.offsetOf c) p)) instant,
      emittedClip s.spe.continuity (s.offsetOf c) p) := by
  unfold State.completeClip
  rw [h.1, h.2]
  rfl

theorem completeClip_of_unstamped (h : ¬ (info.clockBearing = true ∧ carriesStamp p = true)) : s.completeClip instant c p info =
    (s.clipNoted c p false, emittedClip s.spe.continuity (s.offsetOf c) p) := by
  have unstamped : (info.clockBearing && carriesStamp p) = false := by simpa using h
  unfold State.completeClip
  rw [unstamped]
  rfl

theorem clipNoted_spe (s : State) (c : ClipContent) (p : List Byte) (stamped : Bool) : (s.clipNoted c p stamped).spe = { s.spe with
    continuity := updateContinuity s.sst.live.map s.spe.continuity (streamId p)
      (continuityCount (emittedClip s.spe.continuity (s.offsetOf c) p)) true,
    counters := { s.spe.counters with
      scrambledUnitStamps := (if unitStart p = true ∧ scrambling p ≠ 0
        then bump s.spe.counters.scrambledUnitStamps else s.spe.counters.scrambledUnitStamps) },
    services := (if c.slate = false ∧ stamped = true then s.spe.services.set c.service
      { s.spe.services.get c.service with resumeStamp := some (stampValue p) } else s.spe.services) } := by
  have sst : ((s.countScrambled p).noteResume c stamped p).sst = s.sst :=
    ((countScrambled_frame s p).seq (noteResume_frame _ c stamped p) (c := [.spe])) .sst (by decide)
  have noted := noteResume_spe (s.countScrambled p) c stamped p
  rw [countScrambled_spe] at noted
  unfold State.clipNoted State.noteCount
  rw [State.setSpe_spe, sst, noted]

theorem completeContent_waiting (hr : c.read = .waiting) : s.completeContent instant (.clip c) =
    (((s.fixOffset c instant).clearResume c).countSpe (fun k => { k with clipReadsLate := bump k.clipReadsLate }), nullPacket) := by
  unfold State.completeContent
  dsimp only
  rw [hr]

theorem completeContent_faulty (hr : c.read = .done .faulty) : s.completeContent instant (.clip c) =
    ((s.fixOffset c instant).clearResume c, nullPacket) := by
  unfold State.completeContent
  dsimp only
  rw [hr]

theorem completeContent_good {packet : List Byte} {info : SlotInfo} (hr : c.read = .done (.good packet info)) :
    s.completeContent instant (.clip c) = ((s.fixOffset c instant).clearResume c).completeClip instant c packet info := by
  unfold State.completeContent
  dsimp only
  rw [hr]

theorem passBegun_offsetOf : ((s.fixOffset c instant).clearResume c).offsetOf c =
    if c.slate then ((s.spe.services.get c.service).begun c instant).slateOffset
      else ((s.spe.services.get c.service).begun c instant).breakOffset := by
  unfold State.offsetOf
  rw [passBegun_spe, PerService.get_set]

/-- A clip packet that was read well: the packet that goes out is rebased, and its count and its scrambling are noted. -/
theorem completeClip_noted (s : State) (instant : SiteTime) (c : ClipContent) (p : List Byte) (info : SlotInfo) :
    (s.completeClip instant c p info).1.spe = { s.spe with
      continuity := updateContinuity s.sst.live.map s.spe.continuity (streamId p)
        (continuityCount (emittedClip s.spe.continuity (s.offsetOf c) p)) true,
      counters := { s.spe.counters with
        scrambledUnitStamps := (if unitStart p = true ∧ scrambling p ≠ 0
          then bump s.spe.counters.scrambledUnitStamps else s.spe.counters.scrambledUnitStamps) },
      services := (s.completeClip instant c p info).1.spe.services }
      ∧ (s.completeClip instant c p info).2 = emittedClip s.spe.continuity (s.offsetOf c) p := by
  by_cases stamped : info.clockBearing = true ∧ carriesStamp p = true
  · rw [completeClip_of_stamped stamped, track_spe, clipNoted_spe]
    exact ⟨rfl, rfl⟩
  · rw [completeClip_of_unstamped stamped, clipNoted_spe]
    exact ⟨rfl, rfl⟩

theorem completeClip_stamped {p : List Byte} {info : SlotInfo} (h : info.clockBearing = true ∧ carriesStamp p = true) :
    (s.completeClip instant c p info).1.spe.services = s.spe.services.set c.service { s.spe.services.get c.service with
      resumeStamp := (if c.slate = true then (s.spe.services.get c.service).resumeStamp else some (stampValue p)),
      tracker := some ⟨stampValue (emittedClip s.spe.continuity (s.offsetOf c) p), instant⟩ } := by
  rw [completeClip_of_stamped h, track_spe, clipNoted_spe]
  cases c.slate with
  | false =>
    dsimp only
    rw [if_pos ⟨rfl, rfl⟩, PerService.set_set, PerService.get_set]
    rfl
  | true => rfl

theorem completeClip_unstamped {p : List Byte} {info : SlotInfo} (h : ¬ (info.clockBearing = true ∧ carriesStamp p = true)) :
    (s.completeClip instant c p info).1.spe.services = s.spe.services := by
  rw [completeClip_of_unstamped h, clipNoted_spe]
  exact if_neg fun h => nomatch h.2

/-- Whatever became of its read, a clip packet leaves the pending list, and a pass with no tracker is counted. -/
theorem completeContent_begun : (s.completeContent instant (.clip c)).1.spe.pendingSlots = s.spe.pendingSlots
    ∧ (s.completeContent instant (.clip c)).1.spe.counters.unrebasedPasses
      = (if c.passStart = true ∧ (s.spe.services.get c.service).tracker = none
        then bump s.spe.counters.unrebasedPasses else s.spe.counters.unrebasedPasses) := by
  cases hr : c.read with
  | waiting =>
    rw [completeContent_waiting hr, countSpe_spe, passBegun_spe]
    exact ⟨rfl, rfl⟩
  | done result =>
    cases result with
    | faulty =>
      rw [completeContent_faulty hr, passBegun_spe]
      exact ⟨rfl, rfl⟩
    | good packet info =>
      obtain ⟨noted, -⟩ := completeClip_noted ((s.fixOffset c instant).clearResume c) instant c packet info
      rw [completeContent_good hr, noted, passBegun_spe]
      exact ⟨rfl, rfl⟩

end

end Machine
end Sys2Proof
end

section
/-! PROOFS. SLOT_EMISSION: the packet that goes out, the fill behind it and what it leaves in the Splice Engine (R53 to R55, R60,
R160). -/

set_option Elab.async false

namespace Sys2Proof
namespace Machine

/-! ## Fill after a slot (R55) -/

section
variable {e : Esc} {t T : SiteTime} {P : Nat}

theorem fillCount_of_le (h : T.since t * 16777216 ≤ (2 * P : Nat)) : fillCount t T P = 0 := if_neg (Int.not_lt.2 h)

theorem ceilUnits_le_iff (n x : Nat) : ceilUnits n ≤ x ↔ n ≤ x * 16777216 := by
  unfold ceilUnits Config.unitsPerTick
  omega

/-- A fill packet is placed exactly where its instant is not later than a period before the next slot. -/
theorem le_fillCount_iff (hP : 0 < P) (h : ((2 * P : Nat) : Int) < T.since t * 16777216) (k : Nat) :
    k ≤ fillCount t T P ↔ ((ceilUnits (k * P) * 16777216 : Nat) : Int) ≤ T.since t * 16777216 - P := by
  have count : fillCount t T P = ((T.since t * 16777216 - P).toNat / 16777216 * 16777216) / P := if_pos h
  rw [count, Nat.le_div_iff_mul_le hP, ← ceilUnits_le_iff, Nat.le_div_iff_mul_le (by decide)]
  omega

theorem upcoming_eq (h : (∃ r rs, e.requested = r :: rs ∧ T = r.instant ∧ P = r.period)
    ∨ (e.requested = [] ∧ ∃ n, e.next = some n ∧ T = n.instant ∧ P = n.period)) : e.upcoming? = some (T, P) := by
  unfold Esc.upcoming?
  rcases h with ⟨r, rs, hr, rfl, rfl⟩ | ⟨hr, n, hn, rfl, rfl⟩
  · rw [hr]
  · rw [hr, hn]
    rfl

theorem upcoming_none (hr : e.requested = []) (hn : e.next = none) : e.upcoming? = none := by
  unfold Esc.upcoming?
  rw [hr, hn]
  rfl

theorem placeFill_of_none (h : e.upcoming? = none) : e.placeFill t = e := by
  unfold Esc.placeFill
  rw [h]

theorem placeFill_of_zero (h : e.upcoming? = some (T, P)) (h0 : fillCount t T P = 0) : e.placeFill t = e := by
  unfold Esc.placeFill
  rw [h]
  exact if_neg (by rw [h0]; decide)

theorem placeFill_of_pos (h : e.upcoming? = some (T, P)) (hpos : 0 < fillCount t T P) : e.placeFill t = { e with
    fills := e.fills ++ [{ base := t, period := P, next := 1, last := fillCount t T P }]
    lastEmission := some (e.latest (t.add (ceilUnits (fillCount t T P * P)))) } := by
  unfold Esc.placeFill
  rw [h]
  exact if_pos hpos

end

/-! ## The slot that goes out (R53, R54, R60) -/

section
variable (s : State) (q : Requested)

/-- The part with the slot's packet driven, before fill is placed. -/
def State.slotDriven : State := (s.slotPacket q).1.carrierInstant.drive q.instant (s.slotPacket q).2

theorem emitSlot_esc : (s.emitSlot q).esc = (s.slotDriven q).esc.placeFill q.instant := rfl

theorem slotPacket_carinh : (s.slotPacket q).1.esc.carinh = s.esc.carinh := by rw [slotPacket_esc]

theorem slotDriven_esc : (s.slotDriven q).esc = { (s.slotPacket q).1.esc with
    carinh := (s.slotDriven q).esc.carinh, port := (s.slotDriven q).esc.port, lastDriven := (s.slotDriven q).esc.lastDriven } := by
  unfold State.slotDriven
  rw [instant_esc]
  split <;> rfl

/-- The slot leaves the requested slots, a late fetch is counted, and the rest of the schedule stays. -/
theorem emitSlot_fields : (s.emitSlot q).esc.requested = s.esc.requested.drop 1
    ∧ (s.emitSlot q).esc.counters
      = (if q.done then s.esc.counters else { s.esc.counters with fetchLate := bump s.esc.counters.fetchLate })
    ∧ (s.emitSlot q).esc.mute = s.esc.mute ∧ (s.emitSlot q).esc.next = s.esc.next ∧ (s.emitSlot q).esc.anchors = s.esc.anchors := by
  rw [emitSlot_esc, placeFill_esc, slotDriven_esc, slotPacket_esc]
  exact ⟨rfl, rfl, rfl, rfl, rfl⟩

/-- What the placing of fill goes by. -/
theorem slotDriven_schedule : (s.slotDriven q).esc.requested = s.esc.requested.drop 1 ∧ (s.slotDriven q).esc.next = s.esc.next
    ∧ (s.slotDriven q).esc.fills = s.esc.fills ∧ (s.slotDriven q).esc.lastEmission = s.esc.lastEmission := by
  rw [slotDriven_esc, slotPacket_esc]
  exact ⟨rfl, rfl, rfl, rfl⟩

theorem emitSlot_spe : (s.emitSlot q).spe = (s.slotPacket q).1.spe := instant_frame _ q.instant _ .spe (by decide)

variable {s q}

/-- Under an asserted CARINH nothing is driven. -/
theorem emitSlot_asserted (h : s.esc.carinh = .asserted) : (s.emitSlot q).esc.carinh = .asserted
    ∧ (s.emitSlot q).esc.port = s.esc.port ∧ (s.emitSlot q).esc.lastDriven = s.esc.lastDriven := by
  have driven : (s.slotDriven q).esc = (s.slotPacket q).1.esc := instant_asserted _ _ ((slotPacket_carinh s q).trans h)
  rw [emitSlot_esc, placeFill_esc, driven, slotPacket_esc]
  exact ⟨h, rfl, rfl⟩

/-- Otherwise the packet is driven, and CARINH is released. -/
theorem emitSlot_driven (h : s.esc.carinh ≠ .asserted) : (s.emitSlot q).esc.carinh = .released
    ∧ (s.emitSlot q).esc.lastDriven = some q.instant ∧ (s.emitSlot q).esc.port = some ⟨(s.slotPacket q).2, 0⟩ := by
  have driven := instant_driven (s := (s.slotPacket q).1) q.instant (s.slotPacket q).2 (by rwa [slotPacket_carinh])
  rw [emitSlot_esc, placeFill_esc, State.slotDriven, driven]
  exact ⟨rfl, rfl, rfl⟩

theorem slotPacket_mgp : (s.slotPacket q).1.mgp = s.mgp := slotPacket_frame s q .mgp (by decide)

theorem emitSlot_mgp (h : s.esc.carinh ≠ .pending) : (s.emitSlot q).mgp = s.mgp := by
  have same : (s.slotDriven q).mgp = (s.slotPacket q).1.mgp := instant_mgp _ _ (by rwa [slotPacket_carinh])
  exact same.trans slotPacket_mgp

theorem emitSlot_raised (h : s.esc.carinh = .pending) : Raised s (s.emitSlot q) .site
    [noticeAt s .carrierState .none (.mute .empty)] := by
  have raised := instant_raised (s := (s.slotPacket q).1) q.instant (s.slotPacket q).2 ((slotPacket_carinh s q).trans h)
  rw [noticeAt_congr (slotPacket_frame s q .tbu (by decide))] at raised
  exact raised.of_mgp slotPacket_mgp

theorem emitSlot_onlyNotifies : OnlyNotifies s (s.emitSlot q) := by
  have driven : OnlyNotifies (s.slotPacket q).1 (s.slotDriven q) := instant_onlyNotifies _ _ _
  exact (OnlyNotifies.of_mgp slotPacket_mgp).trans driven

/-! ## The fill behind it (R55) -/

theorem emitSlot_noFill (hr : s.esc.requested.drop 1 = []) (hn : s.esc.next = none) :
    (s.emitSlot q).esc.fills = s.esc.fills ∧ (s.emitSlot q).esc.lastEmission = s.esc.lastEmission := by
  obtain ⟨requested, next, fills, last⟩ := slotDriven_schedule s q
  rw [emitSlot_esc, placeFill_of_none (upcoming_none (requested.trans hr) (next.trans hn))]
  exact ⟨fills, last⟩

section
variable {T : SiteTime} {P : Nat} (h : (∃ r rs, s.esc.requested.drop 1 = r :: rs ∧ T = r.instant ∧ P = r.period)
  ∨ (s.esc.requested.drop 1 = [] ∧ ∃ n, s.esc.next = some n ∧ T = n.instant ∧ P = n.period))
include h

theorem slotDriven_upcoming : (s.slotDriven q).esc.upcoming? = some (T, P) := by
  obtain ⟨requested, next, -, -⟩ := slotDriven_schedule s q
  rw [← requested, ← next] at h
  exact upcoming_eq h

theorem emitSlot_fillZero (h0 : fillCount q.instant T P = 0) :
    (s.emitSlot q).esc.fills = s.esc.fills ∧ (s.emitSlot q).esc.lastEmission = s.esc.lastEmission := by
  obtain ⟨-, -, fills, last⟩ := slotDriven_schedule s q
  rw [emitSlot_esc, placeFill_of_zero (slotDriven_upcoming h) h0]
  exact ⟨fills, last⟩

theorem emitSlot_fillPlaced (hpos : 0 < fillCount q.instant T P) : (s.emitSlot q).esc.fills
      = s.esc.fills ++ [{ base := q.instant, period := P, next := 1, last := fillCount q.instant T P }]
    ∧ (s.emitSlot q).esc.lastEmission = some ((s.slotDriven q).esc.latest (q.instant.add (ceilUnits (fillCount q.instant T P * P)))) := by
  obtain ⟨-, -, fills, -⟩ := slotDriven_schedule s q
  rw [emitSlot_esc, placeFill_of_pos (slotDriven_upcoming h) hpos, fills]
  exact ⟨rfl, rfl⟩

end

/-! ## What goes out (R53, R158, R160) -/

/-- The part with the slot's content taken from the pending list, before it is completed. -/
def State.contentTaken (s : State) (ps : List Pending) : State :=
  (s.setEsc { s.esc with requested := s.esc.requested.drop 1 }).setSpe { s.spe with pendingSlots := ps }

theorem slotPacket_late (hd : q.done = false) : (s.slotPacket q).1.spe = s.spe ∧ (s.slotPacket q).2 = nullPacket := by
  unfold State.slotPacket
  rw [hd]
  exact ⟨rfl, rfl⟩

theorem slotPacket_completed (hd : q.done = true) {instant : SiteTime} {content : Content} {ps : List Pending}
    (hp : s.spe.pendingSlots = ⟨q.slot, instant, content⟩ :: ps) :
    s.slotPacket q = (s.contentTaken ps).completeContent q.instant content := by
  unfold State.slotPacket State.completeSlot
  rw [hd]
  dsimp only [State.setEsc_spe]
  rw [hp]
  exact (if_pos rfl).trans (if_pos rfl)

theorem emitSlot_port {p : List Byte} (hp : (s.slotPacket q).2 = p) (h : s.esc.carinh ≠ .asserted) :
    (s.emitSlot q).esc.port = some ⟨p, 0⟩ := by
  obtain ⟨-, -, port⟩ := emitSlot_driven (q := q) h
  rw [port, hp]

theorem emitSlot_counters (hd : q.done = true) : (s.emitSlot q).esc.counters = s.esc.counters := by
  obtain ⟨-, counters, -⟩ := emitSlot_fields s q
  rw [counters, if_pos hd]

/-! ## The content that is completed -/

section
variable (hd : q.done = true) {instant : SiteTime} {ps : List Pending}
include hd

section
variable {packet : List Byte} {info : SlotInfo} (hp : s.spe.pendingSlots = ⟨q.slot, instant, .stored packet info⟩ :: ps)
include hp

theorem emitSlot_programme : (s.emitSlot q).spe = ((s.contentTaken ps).completeProgramme q.instant packet info).1.spe := by
  rw [emitSlot_spe, slotPacket_completed hd hp]
  rfl

theorem slotPacket_programme : (s.slotPacket q).2 = ((s.contentTaken ps).checkReturning packet).2 := by
  rw [slotPacket_completed hd hp]
  exact completeProgramme_packet

/-- The check of a packet whose stream is marked (R162). -/
theorem emitSlot_returning {c : Continuity} (hc : continuityOf? s.spe.continuity (streamId packet) = some c) (hr : c.returning = true) :
    (continuityCount packet = expectedCount c.count packet →
        (s.emitSlot q).spe.counters = s.spe.counters ∧ (s.slotPacket q).2 = packet)
      ∧ (continuityCount packet ≠ expectedCount c.count packet → hasMarkRoom packet = true →
        (s.emitSlot q).spe.counters = { s.spe.counters with discontinuityMarksSet := bump s.spe.counters.discontinuityMarksSet }
        ∧ (s.slotPacket q).2 = setDiscontinuity packet)
      ∧ (continuityCount packet ≠ expectedCount c.count packet → hasMarkRoom packet = false →
        (s.emitSlot q).spe.counters = { s.spe.counters with continuityBreaks := bump s.spe.counters.continuityBreaks }
        ∧ (s.slotPacket q).2 = packet) := by
  have held : continuityOf? (s.contentTaken ps).spe.continuity (streamId packet) = some c := hc
  rw [emitSlot_programme hd hp, completeProgramme_counters, slotPacket_programme hd hp]
  refine ⟨fun he => ?_, fun he hm => ?_, fun he hm => ?_⟩
  · rw [checkReturning_expected held hr he]
    exact ⟨rfl, rfl⟩
  · rw [checkReturning_marked held hr he hm]
    exact ⟨rfl, rfl⟩
  · rw [checkReturning_broken held hr he hm]
    exact ⟨rfl, rfl⟩

end

section
variable {c : ClipContent} (hp : s.spe.pendingSlots = ⟨q.slot, instant, .clip c⟩ :: ps)
include hp

theorem emitSlot_clip : (s.emitSlot q).spe = ((s.contentTaken ps).completeContent q.instant (.clip c)).1.spe
    ∧ (s.slotPacket q).2 = ((s.contentTaken ps).completeContent q.instant (.clip c)).2 := by
  rw [emitSlot_spe, slotPacket_completed hd hp]
  exact ⟨rfl, rfl⟩

/-- A clip packet whose read has not completed (R158). -/
theorem emitSlot_clipWaiting (hr : c.read = .waiting) :
    (s.emitSlot q).spe.services = s.spe.services.set c.service ((s.spe.services.get c.service).begun c q.instant)
      ∧ (s.emitSlot q).spe.continuity = s.spe.continuity
      ∧ (s.emitSlot q).spe.counters.clipReadsLate = bump s.spe.counters.clipReadsLate ∧ (s.slotPacket q).2 = nullPacket := by
  obtain ⟨spe, packet⟩ := emitSlot_clip hd hp
  rw [spe, packet, completeContent_waiting hr, countSpe_spe, passBegun_spe]
  exact ⟨rfl, rfl, rfl, rfl⟩

/-- A clip packet whose read was faulty (R158). -/
theorem emitSlot_clipFaulty (hr : c.read = .done .faulty) :
    (s.emitSlot q).spe.services = s.spe.services.set c.service ((s.spe.services.get c.service).begun c q.instant)
      ∧ (s.emitSlot q).spe.continuity = s.spe.continuity
      ∧ (s.emitSlot q).spe.counters.clipReadsLate = s.spe.counters.clipReadsLate ∧ (s.slotPacket q).2 = nullPacket := by
  obtain ⟨spe, packet⟩ := emitSlot_clip hd hp
  rw [spe, packet, completeContent_faulty hr, passBegun_spe]
  exact ⟨rfl, rfl, rfl, rfl⟩

/-- A clip packet that was read well (R161, R163 to R167). -/
theorem emitSlot_clipGood {packet : List Byte} {info : SlotInfo} (hr : c.read = .done (.good packet info)) {y : ServiceState}
    (hy : y = (s.spe.services.get c.service).begun c q.instant) {out : List Byte}
    (ho : out = emittedClip s.spe.continuity (if c.slate then y.slateOffset else y.breakOffset) packet) :
    (s.slotPacket q).2 = out
      ∧ (s.emitSlot q).spe.continuity
        = updateContinuity s.sst.live.map s.spe.continuity (streamId packet) (continuityCount out) true
      ∧ (s.emitSlot q).spe.counters.scrambledUnitStamps = (if unitStart packet = true ∧ scrambling packet ≠ 0
          then bump s.spe.counters.scrambledUnitStamps else s.spe.counters.scrambledUnitStamps)
      ∧ ((info.clockBearing = true ∧ carriesStamp packet = true) →
        (s.emitSlot q).spe.services = s.spe.services.set c.service { y with
          resumeStamp := (if c.slate = true then y.resumeStamp else some (stampValue packet)),
          tracker := some ⟨stampValue out, q.instant⟩ })
      ∧ (¬ (info.clockBearing = true ∧ carriesStamp packet = true) →
        (s.emitSlot q).spe.services = s.spe.services.set c.service y) := by
  obtain ⟨spe, driven⟩ := emitSlot_clip hd hp
  rw [completeContent_good hr] at spe driven
  have begun := passBegun_spe (s.contentTaken ps) c q.instant
  have offset : ((s.contentTaken ps).fixOffset c q.instant |>.clearResume c).offsetOf c
      = if c.slate then y.slateOffset else y.breakOffset := by
    rw [passBegun_offsetOf, hy]
    rfl
  have sst : (((s.contentTaken ps).fixOffset c q.instant).clearResume c).sst = (s.contentTaken ps).sst :=
    ((fixOffset_frame _ c q.instant).seq (clearResume_frame _ c) (c := [.spe])) .sst (by decide)
  obtain ⟨noted, goes⟩ := completeClip_noted (((s.contentTaken ps).fixOffset c q.instant).clearResume c) q.instant c packet info
  rw [offset, begun] at goes
  rw [offset, begun, sst] at noted
  subst ho
  refine ⟨driven.trans goes, ?_, ?_, fun stamped => ?_, fun unstamped => ?_⟩
  · rw [spe, noted]
    rfl
  · rw [spe, noted]
    rfl
  · rw [spe, completeClip_stamped stamped, offset, begun, PerService.get_set, PerService.set_set, hy]
    rfl
  · rw [spe, completeClip_unstamped unstamped, begun, hy]
    rfl

end
end

end

/-- Settles O29: the fill that comes first (`exec_slotEmission_fillFirst`), and else the slot that goes out: CARINH and the port
(`emitSlot_asserted`, `emitSlot_driven`), the fill behind it (`le_fillCount_iff`, `emitSlot_fillPlaced`), and by content what the
Splice Engine keeps of it. -/
theorem slotIsEmitted : Obligations.SlotIsEmitted := by
  refine ⟨fun s q rest f fs hr hq hf before => ?_, fun s q rest hr hq hf due => ?_⟩
  · refine exec_slotEmission_fillFirst hr (nextEmission_fill hf fun q' qs h => ?_)
    cases hq.symm.trans h
    exact before
  · have hexec := exec_slotEmission_due hr (emissionDue_of_reached (nextEmission_slot hq hf) due)
    have hrest : s.esc.requested.drop 1 = rest := by
      rw [hq]
      rfl
    obtain ⟨requested, counters, mute, next, anchors⟩ := emitSlot_fields s q
    refine ⟨_, hexec, requested.trans hrest, fun ha => ?_, fun hn => ?_, emitSlot_raised,
      fun hreleased => emitSlot_mgp (by rw [hreleased]; decide), fun hd => ?_, fun instant ps hd hp => ?_,
      fun instant packet info ps hd hp unmarked => ?_, fun ⟨hnone, hn⟩ => emitSlot_noFill (hrest.trans hnone) hn,
      fun T P units upcoming hP hu => ?_, fun instant packet info ps hd hp => ?_,
      fun instant c ps x y out hd hp hx hy => ?_, mute, next, anchors, exec_frame hexec, emitSlot_onlyNotifies⟩
    · obtain ⟨carinh, port, last⟩ := emitSlot_asserted (q := q) ha
      exact ⟨carinh, port, emitSlot_mgp (by rw [ha]; decide), last⟩
    · obtain ⟨carinh, last, port⟩ := emitSlot_driven (q := q) hn
      exact ⟨carinh, last, _, port⟩
    · obtain ⟨spe, packet⟩ := slotPacket_late (s := s) hd
      refine ⟨(emitSlot_spe s q).trans spe, ?_, emitSlot_port packet⟩
      rw [counters, hd]
      rfl
    · have completed := slotPacket_completed hd hp
      refine ⟨?_, emitSlot_counters hd, emitSlot_port ?_⟩
      · rw [emitSlot_spe, completed]
        rfl
      · rw [completed]
        rfl
    · have unchecked : (s.contentTaken ps).checkReturning packet = (s.contentTaken ps, packet) :=
        checkReturning_unmarked fun c hc => unmarked c (continuityOf_mem hc) (continuityOf_stream hc)
      refine ⟨?_, emitSlot_counters hd, emitSlot_port ?_⟩
      · rw [emitSlot_programme hd hp, completeProgramme_pendingSlots]
        rfl
      · rw [slotPacket_programme hd hp, unchecked]
    · subst hu
      rw [← hrest] at upcoming
      refine ⟨fun hle => emitSlot_fillZero upcoming (fillCount_of_le hle), fun hlt => ⟨fillCount q.instant T P,
        fun k => and_congr_right fun _ => le_fillCount_iff hP hlt k, emitSlot_fillZero upcoming, fun hpos => ?_⟩⟩
      obtain ⟨fills, last⟩ := emitSlot_fillPlaced upcoming hpos
      obtain ⟨-, -, -, same⟩ := slotDriven_schedule s q
      refine ⟨fills, fun h => ?_, fun l h => ?_⟩
      · rw [last, latest_of_none (same.trans h)]
      · rw [last, latest_of_some (same.trans h)]
    · refine ⟨fun hb hc v hv => ?_, fun h => ?_, fun c hc hret => ?_, fun hs room k => ?_,
        fun gone hg bounded hs hfull absent hgone least k => ?_, fun hs absent => ?_⟩
      · rw [emitSlot_programme hd hp, completeProgramme_tracked hb hc hv]
        rfl
      · rw [emitSlot_programme hd hp, completeProgramme_untracked h]
        rfl
      · obtain ⟨expected, marked, broken⟩ := emitSlot_returning hd hp hc hret
        exact ⟨fun he => (expected he).imp_right emitSlot_port, fun he hm => (marked he hm).imp_right emitSlot_port,
          fun he hm => (broken he hm).imp_right emitSlot_port⟩
      · rw [emitSlot_programme hd hp]
        exact completeProgramme_counted (s := s.contentTaken ps) hs room k
      · obtain ⟨-, rising⟩ := ((queuesBounded_iff s).1 bounded).continuity
        rw [emitSlot_programme hd hp]
        exact completeProgramme_evicted (s := s.contentTaken ps) hg rising hs hfull absent hgone least k
      · rw [emitSlot_programme hd hp]
        exact completeProgramme_foreign (s := s.contentTaken ps) hs absent
    · obtain rfl : y = (s.spe.services.get c.service).begun c q.instant := hx ▸ hy
      obtain ⟨spe, -⟩ := emitSlot_clip hd hp
      obtain ⟨pending, unrebased⟩ := completeContent_begun (s := s.contentTaken ps) (c := c) (instant := q.instant)
      rw [hx]
      refine ⟨(congrArg Spe.pendingSlots spe).trans pending, ?_, fun hread => ?_, fun hread => ?_, fun packet info hread ho => ?_⟩
      · exact (congrArg (·.counters.unrebasedPasses) spe).trans unrebased
      · obtain ⟨services, continuity, late, packet⟩ := emitSlot_clipWaiting hd hp hread
        exact ⟨services, continuity, late, emitSlot_port packet⟩
      · obtain ⟨services, continuity, late, packet⟩ := emitSlot_clipFaulty hd hp hread
        exact ⟨services, continuity, late, emitSlot_port packet⟩
      · obtain ⟨goes, rest⟩ := emitSlot_clipGood hd hp hread rfl ho
        exact ⟨emitSlot_port goes, rest⟩

end Machine
end Sys2Proof
end

section
/-! PROOFS. Control packets as a whole (R66 to R68), and the directives that no block takes (R69). -/

namespace Sys2Proof
namespace Machine

/-! ## The whole-packet checks (R67) -/

section
variable {p : List Byte}

theorem checkPacket_errored (h : errorMark p = true) : checkPacket p = .errored := if_pos h

variable (hm : errorMark p = false)
include hm

theorem checkPacket_format (h : scrambling p ≠ 0 ∨ adaptation p ≠ 1) : checkPacket p = .badFormat := by
  unfold checkPacket
  rw [if_neg (by simp [hm]), if_pos h]

variable (hs : scrambling p = 0) (ha : adaptation p = 1)
include hs ha

theorem checkPacket_crc (h : (crc32 (payloadBytes p 1 180)).toNat ≠ ofBytes (payloadBytes p 181 4)) :
    checkPacket p = .badCrc := by
  unfold checkPacket
  rw [if_neg (by simp [hm]), if_neg (by simp [hs, ha]), if_pos h]

variable (hc : (crc32 (payloadBytes p 1 180)).toNat = ofBytes (payloadBytes p 181 4))
include hc

theorem checkPacket_version (h : payloadByte p 1 ≠ 0x01#8) : checkPacket p = .badFormat := by
  unfold checkPacket
  rw [if_neg (by simp [hm]), if_neg (by simp [hs, ha]), if_neg (not_not.2 hc), if_pos h]

theorem checkPacket_good (h : payloadByte p 1 = 0x01#8) : checkPacket p = .good := by
  unfold checkPacket
  rw [if_neg (by simp [hm]), if_neg (by simp [hs, ha]), if_neg (not_not.2 hc), if_neg (not_not.2 h)]

end

/-! ## What a control packet leaves (R67, R68) -/

section
variable (d : Ddc) {c : ControlPacket}

theorem takePacket_errored (h : checkPacket c.packet = .errored) :
    d.takePacket c = { d with counters := { d.counters with errored := bump d.counters.errored } } := by
  unfold Ddc.takePacket
  rw [h]

theorem takePacket_format (h : checkPacket c.packet = .badFormat) :
    d.takePacket c = { d with counters := { d.counters with formatRefused := bump d.counters.formatRefused } } := by
  unfold Ddc.takePacket
  rw [h]

theorem takePacket_crc (h : checkPacket c.packet = .badCrc) :
    d.takePacket c = { d with counters := { d.counters with checkFailures := bump d.counters.checkFailures } } := by
  unfold Ddc.takePacket
  rw [h]

theorem takePacket_good (h : checkPacket c.packet = .good) : d.takePacket c = d.acceptPacket c := by
  unfold Ddc.takePacket
  rw [h]

theorem acceptPacket_repeated (h : d.lastSeq = some (packetSequence c.packet)) : d.acceptPacket c = d := if_pos h

theorem acceptPacket_fresh (h : d.lastSeq ≠ some (packetSequence c.packet)) : d.acceptPacket c =
    { inHand := if (payloadByte c.packet 4).toNat = 0 then none
        else some { packet := c.packet, slot := c.slot, pos := 5, left := (payloadByte c.packet 4).toNat }
      lastSeq := some (packetSequence c.packet)
      counters := d.counters.acceptPacket d.lastSeq (packetSequence c.packet) } := if_neg h

end

/-- A sequence count that does not follow the last one counts as missed (R68). -/
theorem acceptPacket_missed (c : DdcCounters) {l seq : Word16} (h : seq ≠ l + 1) :
    (c.acceptPacket (some l) seq).missed = bump c.missed := if_neg h

theorem exec_takeControlPacket {s : State} {c : ControlPacket} {rest : List ControlPacket} (hr : s.Running)
    (hh : s.ddc.inHand = none) (hq : s.fiu.handoff = c :: rest) : exec .takeControlPacket s =
      .next ((s.setFiu { s.fiu with handoff := rest }).setDdc (s.ddc.takePacket c)) := by
  change execTakeControlPacket s = _
  unfold execTakeControlPacket
  rw [ifRunning_of_running hr, hh, hq]

/-! ## Directives that fit no block (R69) -/

theorem knownKind_eq_false {k : Byte} (h : k ≠ 0x01#8 ∧ k ≠ 0x10#8 ∧ k ≠ 0x11#8 ∧ k ≠ 0x12#8 ∧ k ≠ 0x20#8) :
    knownKind k = false := by
  obtain ⟨mark, notice, cancel, back, mute⟩ := h
  simp [knownKind, mark, notice, cancel, back, mute]

theorem directive_overrun {h : InHand}
    (ho : 180 < h.pos + 1 ∨ 180 < h.pos + 1 + (payloadByte h.packet (h.pos + 1)).toNat) : h.directive? = none :=
  if_neg fun ⟨start, fits⟩ => ho.elim (not_lt.2 start) (not_lt.2 fits)

theorem exec_directiveOverrun {s : State} {h : InHand} (hr : s.Running) (hh : s.ddc.inHand = some h)
    (hd : h.directive? = none) : exec .directiveOverrun s =
      .next ((s.setDdc { s.ddc with inHand := none }).countDdc (fun c => { c with overruns := bump c.overruns })) := by
  change execDirectiveOverrun s = _
  unfold execDirectiveOverrun
  rw [ifRunning_of_running hr, hh]
  dsimp only
  rw [hd]

/-- Settles O20: the packet by the check that it fails (`checkPacket`), then by its sequence count (`Ddc.acceptPacket`). -/
theorem controlPacketIsParsed : Obligations.ControlPacketIsParsed := by
  refine ⟨fun s c rest hr hn hq => ?_, fun s h hr hh => ⟨fun d hd hk => ?_, fun ho => ?_⟩⟩
  · have hexec := exec_takeControlPacket hr hn hq
    refine ⟨_, hexec, rfl, fun hm => ?_, fun hm hf => ?_, fun hm hs ha hc => ?_, fun hm hs ha hc =>
      ⟨fun hv => ?_, fun hv seen => ?_, fun hv fresh => ?_⟩, exec_frame hexec⟩
    · exact takePacket_errored s.ddc (checkPacket_errored hm)
    · exact takePacket_format s.ddc (checkPacket_format hm hf)
    · exact takePacket_crc s.ddc (checkPacket_crc hm hs ha hc)
    · exact takePacket_format s.ddc (checkPacket_version hm hs ha hc hv)
    · exact (takePacket_good s.ddc (checkPacket_good hm hs ha hc hv)).trans (acceptPacket_repeated s.ddc seen)
    · rw [State.setDdc_ddc, takePacket_good s.ddc (checkPacket_good hm hs ha hc hv), acceptPacket_fresh s.ddc fresh]
      refine ⟨rfl, rfl, fun l hl gap => ?_, fun h0 => ?_, fun h0 => ?_⟩
      · rw [hl]
        exact acceptPacket_missed s.ddc.counters gap
      · exact if_pos (congrArg BitVec.toNat h0)
      · exact if_neg fun hz => h0 (BitVec.eq_of_toNat_eq hz)
  · exact onDirective_handled hr hh hd (by simp [knownKind_eq_false hk]) State.reachUnknown
  · exact exec_directiveOverrun hr hh (directive_overrun ho)

end Machine
end Sys2Proof
end

section
/-! PROOFS. Break cancels and early returns (R70, R71, R76, R77, R91, R92). -/

namespace Sys2Proof
namespace Machine

/-! ## The area filter (R71) -/

theorem forThisArea_iff (x : Settings) (area : Byte) : forThisArea x area = true ↔ area = 0#8 ∨ x.areaCode = some area.toNat := by
  simp [forThisArea]

theorem filterArea_here {s : State} {area : Byte} (h : area = 0#8 ∨ s.sst.live.areaCode = some area.toNat) (f : State → State) :
    s.filterArea area f = f s := if_pos ((forThisArea_iff _ _).2 h)

theorem filterArea_elsewhere {s : State} {area : Byte} (h0 : area ≠ 0#8) (ha : s.sst.live.areaCode ≠ some area.toNat)
    (f : State → State) : s.filterArea area f = s.countDdc (fun c => { c with otherAreas := bump c.otherAreas }) :=
  if_neg fun h => ((forThisArea_iff _ _).1 h).elim h0 ha

/-! ## An entry is changed or finishes (R91, R105) -/

theorem updateBreak_self {s : State} {n : Word16} {e : BreakEntry} {f : BreakEntry → BreakEntry} (h : s.findBreak? n = some e)
    (hf : ∀ x, (f x).number = x.number) : (s.updateBreak n f).findBreak? n = some (f e) := by
  rw [State.findBreak_updateBreak s n n f hf, h, Option.map_some, if_pos rfl]

theorem updateBreak_other (s : State) {n m : Word16} {f : BreakEntry → BreakEntry} (hm : m ≠ n)
    (hf : ∀ x, (f x).number = x.number) : (s.updateBreak n f).findBreak? m = s.findBreak? m := by
  rw [State.findBreak_updateBreak s n m f hf]
  simp [hm]

theorem BreakState.finished_iff (x : BreakState) : x.finished = true ↔ x = .ended ∨ x = .cancelled := by
  cases x <;> simp [BreakState.finished]

theorem BreakState.unfinished {x : BreakState} (he : x ≠ .ended) (hc : x ≠ .cancelled) : x.finished = false :=
  Bool.eq_false_iff.2 fun h => ((BreakState.finished_iff x).1 h).elim he hc

section
variable (s : State) (e : BreakEntry) (x : BreakState) (o : BreakOutcome)

theorem finishBreak_findBreak (m : Word16) : (s.finishBreak e x o).findBreak? m = (s.findBreak? m).map (fun y =>
    if m = e.number then { y with state := x, outcome := some o, closure := none, windowOpen := false } else y) := by
  refine (State.findBreak_congr ?_ m).trans (State.findBreak_updateBreak s e.number m _ fun _ => rfl)
  exact State.dropPins_bpu (s.updateBreak e.number _) e.pinned

theorem finishBreak_csc : (s.finishBreak e x o).csc = (s.dropPins e.pinned).csc :=
  State.dropPins_csc_congr e.pinned (s := s) (t := s.updateBreak e.number _) rfl

theorem finishBreak_raised :
    RaisedBoth s (s.finishBreak e x o) [noticeAt s .breakEnded (.breakNumber e.number) (.ended o)] :=
  settleBreak_raised (f := fun y => { y with state := x, outcome := some o, closure := none, windowOpen := false })

theorem finishBreak_onlyNotifies : OnlyNotifies s (s.finishBreak e x o) :=
  settleBreak_onlyNotifies s e (fun y => { y with state := x, outcome := some o, closure := none, windowOpen := false }) _ _ _

end

/-! ## BREAK_CANCEL (R91) -/

section
variable {s : State} {n : Word16} {e : BreakEntry}

theorem takeCancel_unknown (h : s.findBreak? n = none) :
    s.takeCancel n = s.countBpu (fun c => { c with unknownCancels := bump c.unknownCancels }) := by
  unfold State.takeCancel
  rw [h]

variable (h : s.findBreak? n = some e)
include h

theorem takeCancel_finished (hf : e.state = .ended ∨ e.state = .cancelled) : s.takeCancel n = s := by
  unfold State.takeCancel
  rw [h]
  exact if_pos ((BreakState.finished_iff _).2 hf)

theorem takeCancel_onAir (ho : e.state = .active ∨ (e.state = .fallback ∧ e.windowOpen = true)) :
    s.takeCancel n = s.updateBreak n (fun x => { x with closure := some .cancelled }) := by
  have unfinished : e.state.finished = false := by
    rcases ho with ho | ⟨ho, -⟩ <;> simp [BreakState.finished, ho]
  unfold State.takeCancel
  rw [h]
  dsimp only
  rw [if_neg (by simp [unfinished]), if_pos ho]

theorem takeCancel_ahead (ho : e.state = .announced ∨ e.state = .booked ∨ e.state = .armed
    ∨ (e.state = .fallback ∧ e.windowOpen = false)) : s.takeCancel n = s.finishBreak e .cancelled .cancelled := by
  have unfinished : e.state.finished = false ∧ ¬ (e.state = .active ∨ (e.state = .fallback ∧ e.windowOpen = true)) := by
    rcases ho with ho | ho | ho | ⟨ho, hw⟩ <;> simp [BreakState.finished, *]
  unfold State.takeCancel
  rw [h]
  dsimp only
  rw [if_neg (by simp [unfinished.1]), if_neg unfinished.2]

end

/-- A cancel leaves every other entry as it finds it. -/
theorem takeCancel_other (s : State) {n m : Word16} (hm : m ≠ n) : (s.takeCancel n).findBreak? m = s.findBreak? m := by
  unfold State.takeCancel
  split
  · rfl
  · next e he =>
    split
    · rfl
    · split
      · exact updateBreak_other s hm fun _ => rfl
      · rw [finishBreak_findBreak, State.findBreak_number he]
        simp [hm]

theorem takeCancel_onlyNotifies (s : State) (n : Word16) : OnlyNotifies s (s.takeCancel n) := by
  unfold State.takeCancel
  split
  · exact .of_mgp rfl
  · split
    · exact .refl s
    · split
      · exact .of_mgp rfl
      · exact finishBreak_onlyNotifies s _ _ _

section
variable {s : State} {h : InHand} {d : Directive}

theorem reachCancel_here (hl : d.body.length = 3) (ha : byteAt d.body 3 = 0#8 ∨ s.sst.live.areaCode = some (byteAt d.body 3).toNat) :
    s.reachCancel h d = s.takeCancel (BitVec.ofNat 16 (bodyNum d.body 1 2)) :=
  (if_pos hl).trans (filterArea_here ha _)

theorem reachCancel_elsewhere (hl : d.body.length = 3) (h0 : byteAt d.body 3 ≠ 0#8)
    (ha : s.sst.live.areaCode ≠ some (byteAt d.body 3).toNat) :
    s.reachCancel h d = s.countDdc (fun c => { c with otherAreas := bump c.otherAreas }) :=
  (if_pos hl).trans (filterArea_elsewhere h0 ha _)

theorem reachCancel_malformed (hl : d.body.length ≠ 3) : s.reachCancel h d = s.malformed := if_neg hl

/-! ## RETURN_NOW (R92) -/

theorem reachReturn_here {v : Service} (hl : d.body.length = 2) (hv : Service.ofNat? (byteAt d.body 1).toNat = some v)
    (ha : byteAt d.body 2 = 0#8 ∨ s.sst.live.areaCode = some (byteAt d.body 2).toNat) :
    s.reachReturn h d = s.takeReturn v := by
  unfold State.reachReturn
  rw [if_pos hl, hv]
  exact filterArea_here ha _

theorem reachReturn_elsewhere {v : Service} (hl : d.body.length = 2) (hv : Service.ofNat? (byteAt d.body 1).toNat = some v)
    (h0 : byteAt d.body 2 ≠ 0#8) (ha : s.sst.live.areaCode ≠ some (byteAt d.body 2).toNat) :
    s.reachReturn h d = s.countDdc (fun c => { c with otherAreas := bump c.otherAreas }) := by
  unfold State.reachReturn
  rw [if_pos hl, hv]
  exact filterArea_elsewhere h0 ha _

theorem reachReturn_malformed (hm : d.body.length ≠ 2 ∨ Service.ofNat? (byteAt d.body 1).toNat = none) :
    s.reachReturn h d = s.malformed := by
  unfold State.reachReturn
  split
  · next hl =>
    rw [hm.resolve_left (not_not.2 hl)]
  · rfl

end

theorem Service.ofNat?_eq_none_iff (n : Nat) : Service.ofNat? n = none ↔ n < 1 ∨ 4 < n := by
  rcases n with _ | _ | _ | _ | _ | n <;> simp [Service.ofNat?]

theorem shorten_eq (e : BreakEntry) : e.shorten = { e with closure := some (e.closure.getD .shortened) } := by
  unfold BreakEntry.shorten
  cases hc : e.closure with
  | none => rfl
  | some c =>
    cases e
    subst hc
    rfl

theorem openEntry_none {table : List BreakEntry} {v : Service}
    (h : ∀ e ∈ table, e.service = v → e.state ≠ .active ∧ ¬ (e.state = .fallback ∧ e.windowOpen = true)) :
    openEntry? table v = none := by
  have active : table.find? (fun e => decide (e.service = v) && decide (e.state = .active)) = none :=
    List.find?_eq_none.2 fun e he => by simpa using fun hv => (h e he hv).1
  have blank : table.find? (fun e => decide (e.service = v) && decide (e.state = .fallback) && e.windowOpen) = none :=
    List.find?_eq_none.2 fun e he => by simpa using fun hv hs => by simpa [hs] using (h e he hv).2
  unfold openEntry?
  rw [active, blank]

theorem takeReturn_open {s : State} {v : Service} {e : BreakEntry} (h : openEntry? s.bpu.table v = some e) :
    (s.takeReturn v).bpu = { s.bpu with table := s.bpu.table.map (fun x =>
      if x.number = e.number then { x with closure := some (x.closure.getD .shortened) } else x) } := by
  unfold State.takeReturn
  rw [h]
  simp only [State.updateBreak, State.setBpu_bpu, shorten_eq]

theorem takeReturn_ignored {s : State} {v : Service} (h : openEntry? s.bpu.table v = none) :
    s.takeReturn v = s.countBpu (fun c => { c with returnsIgnored := bump c.returnsIgnored }) := by
  unfold State.takeReturn
  rw [h]

/-- A directive that leaves the Directive Decoder alone moves the parse position and no more of it. -/
theorem nextDirective_ddc {s u : State} (hu : u.ddc = s.ddc) (h : InHand) (d : Directive) :
    (u.nextDirective h d).ddc = { s.ddc with inHand := h.advance d.body.length } := by
  unfold State.nextDirective
  rw [State.setDdc_ddc, hu]

/-- Settles O23: the order by its form and area (`reachCancel`, `reachReturn`), then by the entry that it finds (`takeCancel`,
`takeReturn`). -/
theorem cancelAndReturnNow : Obligations.CancelAndReturnNow := by
  intro s h d hr hh hd
  have cancel : d.kind = 0x11#8 → exec .breakCancel s = .next ((s.reachCancel h d).nextDirective h d) := fun hk =>
    onDirective_handled hr hh hd (by simp [hk]) State.reachCancel
  have back : d.kind = 0x12#8 → exec .returnNow s = .next ((s.reachReturn h d).nextDirective h d) := fun hk =>
    onDirective_handled hr hh hd (by simp [hk]) State.reachReturn
  refine ⟨fun n hk hl hn ha => ?_, fun v hk hl hv ha => ?_, fun hk hl => ?_, fun hk hl h0 ha => ?_, fun hk hm => ?_,
    fun hk hl low high h0 ha => ?_⟩
  · subst hn
    have hexec := cancel hk
    have frame := exec_frame hexec
    rw [reachCancel_here hl ha] at hexec frame
    refine ⟨_, hexec, nextDirective_ddc (takeCancel_frame s _ .ddc (by decide)) h d, fun hn => ?_,
      fun e he => ⟨fun hf => ?_, fun ho => ?_, fun ho => ?_⟩, fun m hm => takeCancel_other s hm, frame,
      takeCancel_onlyNotifies s _⟩
    · rw [takeCancel_unknown hn]
      rfl
    · rw [takeCancel_finished he hf]
      rfl
    · rw [takeCancel_onAir he ho]
      exact ⟨updateBreak_self he fun _ => rfl, rfl, rfl⟩
    · rw [takeCancel_ahead he ho]
      have raised := finishBreak_raised s e .cancelled .cancelled
      rw [State.findBreak_number he] at raised
      refine ⟨?_, finishBreak_csc s e _ _, raised⟩
      refine (finishBreak_findBreak s e _ _ _).trans ?_
      rw [he, Option.map_some, if_pos (State.findBreak_number he).symm]
  · have hexec := back hk
    have frame := exec_frame hexec
    rw [reachReturn_here hl hv ha] at hexec frame
    refine ⟨_, hexec, nextDirective_ddc (takeReturn_frame s v .ddc (by decide)) h d, fun e he => takeReturn_open he,
      fun none => ?_, frame⟩
    rw [takeReturn_ignored (openEntry_none none)]
    rfl
  · rw [cancel hk, reachCancel_malformed hl]
    rfl
  · rw [cancel hk, reachCancel_elsewhere hl h0 ha]
    rfl
  · rw [back hk, reachReturn_malformed (hm.imp_right (Service.ofNat?_eq_none_iff _).2)]
    rfl
  · have named : Service.ofNat? (byteAt d.body 1).toNat ≠ none := fun hv => by
      have := (Service.ofNat?_eq_none_iff _).1 hv
      omega
    obtain ⟨v, hv⟩ := Option.ne_none_iff_exists'.1 named
    rw [back hk, reachReturn_elsewhere hl hv h0 ha]
    rfl

end Machine
end Sys2Proof
end

section
/-! PROOFS. Which notices are malformed (R70), which finished entry makes room (R87), and what the events of the break table
raise (R86 to R90, R104, R105). -/

namespace Sys2Proof
namespace Machine

/-! ## Well-formed notices (R70) -/

theorem policyOfCode_le {n : Nat} (h : (Policy.ofCode? n).isSome = true) : n ≤ 1 := by
  unfold Policy.ofCode? at h
  split at h
  · exact Nat.zero_le 1
  · exact Nat.le_refl 1
  · cases h

theorem goodTime_some {t : SiteTime} (h : goodTime (some t) = true) : t.tick < 27000000 := of_decide_eq_true h

/-- What a body that parses has: its length as its mask says, a service, ticks in range, start before end, a known policy. -/
theorem parseNotice_sound {body : List Byte} {f : NoticeFields} (h : parseNotice? body = some f) :
    5 ≤ body.length ∧ (byteAt body 5).toNat < 16 ∧ body.length = 5 + maskOffset (byteAt body 5) 4
      ∧ Service.ofNat? (byteAt body 3).toNat ≠ none
      ∧ ((byteAt body 5).getLsbD 0 = true → (bodyTime body 6).tick < 27000000)
      ∧ ((byteAt body 5).getLsbD 1 = true → (bodyTime body (6 + maskOffset (byteAt body 5) 1)).tick < 27000000)
      ∧ ((byteAt body 5).getLsbD 0 = true → (byteAt body 5).getLsbD 1 = true →
          (bodyTime body 6).before (bodyTime body (6 + maskOffset (byteAt body 5) 1)) = true)
      ∧ ((byteAt body 5).getLsbD 3 = true → (byteAt body (6 + maskOffset (byteAt body 5) 3)).toNat ≤ 1) := by
  unfold parseNotice? at h
  dsimp only at h
  split at h
  · cases h
  · next shape =>
    obtain ⟨long, mask, length⟩ := not_or.1 shape |>.imp_right not_or.1
    split at h
    · cases h
    · next v hv =>
      obtain ⟨good, -⟩ := Option.ite_none_right_eq_some.1 h
      simp only [Bool.and_eq_true, Bool.or_eq_true, Bool.not_eq_true'] at good
      obtain ⟨⟨⟨start, finish⟩, window⟩, policy⟩ := good
      refine ⟨not_lt.1 long, not_le.1 mask, not_not.1 length, by simp [hv], fun h0 => ?_, fun h1 => ?_, fun h0 h1 => ?_,
        fun h3 => ?_⟩
      · rw [if_pos h0] at start
        exact goodTime_some start
      · rw [if_pos h1] at finish
        exact goodTime_some finish
      · rw [if_pos h0, if_pos h1] at window
        exact window
      · rw [if_pos h3] at policy
        exact policyOfCode_le (policy.resolve_left (by simp [h3]))

/-! ## The order of ends (R82, R87) -/

theorem SiteTime.before_irrefl (t : SiteTime) : t.before t = false := by simp [SiteTime.before]

theorem SiteTime.before_asymm {a b : SiteTime} (h : a.before b = true) : b.before a = false := by
  unfold SiteTime.before at *
  by_cases hs : a.sec = b.sec
  · rw [if_pos hs, decide_eq_true_iff] at h
    rw [if_pos hs.symm, decide_eq_false_iff_not]
    omega
  · rw [if_neg hs, decide_eq_true_iff] at h
    rw [if_neg (Ne.symm hs), decide_eq_false_iff_not]
    have mod := (sdiff_modEq a.sec b.sec).add (sdiff_modEq b.sec a.sec)
    obtain ⟨wraps, h0⟩ := mod.symm.dvd
    have there := BitVec.toInt_lt (x := a.sec - b.sec)
    have back := BitVec.toInt_lt (x := b.sec - a.sec)
    unfold sdiff at *
    omega

/-- A finished entry goes before another: its end is earlier, or its number is lower where the ends are equal (R87). -/
def BreakEntry.GoesBefore (v x : BreakEntry) : Prop :=
  v.finish.before x.finish = true ∨ (v.finish = x.finish ∧ v.number.toNat < x.number.toNat)

theorem earlierEnd_left {v x : BreakEntry} (h : v.GoesBefore x) : earlierEnd v x = v := by
  unfold earlierEnd
  rcases h with h | ⟨h, hn⟩
  · have apart : x.finish ≠ v.finish := fun e => by simp [e, SiteTime.before_irrefl] at h
    rw [if_neg (by simp [SiteTime.before_asymm h]), if_neg (by simp [apart])]
  · rw [if_neg (by simp [h, SiteTime.before_irrefl]), if_neg (by omega)]

theorem earlierEnd_right {v x : BreakEntry} (h : v.GoesBefore x) : earlierEnd x v = v := by
  unfold earlierEnd
  rcases h with h | ⟨h, hn⟩
  · rw [if_pos h]
  · rw [if_neg (by simp [h, SiteTime.before_irrefl]), if_pos ⟨h, hn⟩]

theorem earlierEnd_self (v : BreakEntry) : earlierEnd v v = v := by
  unfold earlierEnd
  rw [if_neg (by simp [SiteTime.before_irrefl]), if_neg (by simp)]

/-- An entry that goes before every other is the one that a search through them ends with. -/
theorem foldl_earlierEnd {v : BreakEntry} : ∀ (l : List BreakEntry) (acc : Option BreakEntry),
    (∀ x ∈ l, x ≠ v → v.GoesBefore x) → (∀ a, acc = some a → a ≠ v → v.GoesBefore a) → (v ∈ l ∨ acc = some v) →
    l.foldl (fun acc e => some (match acc with | some a => earlierEnd a e | none => e)) acc = some v
  | [], acc, _, _, found => found.resolve_left (List.not_mem_nil)
  | e :: l, acc, first, best, found => by
    have tail : ∀ x ∈ l, x ≠ v → v.GoesBefore x := fun x hx => first x (List.mem_cons_of_mem _ hx)
    have head : e ≠ v → v.GoesBefore e := first e List.mem_cons_self
    refine foldl_earlierEnd l _ tail (fun a ha hne => ?_) ?_
    · obtain rfl := Option.some.inj ha
      cases acc with
      | none => exact head hne
      | some b =>
        dsimp only at hne ⊢
        have chosen : earlierEnd b e = e ∨ earlierEnd b e = b := by
          unfold earlierEnd
          split
          · exact .inl rfl
          · exact ite_eq_or_eq _ e b
        rcases chosen with c | c <;> rw [c] at hne ⊢
        · exact head hne
        · exact best b rfl hne
    · by_cases hev : e = v
      · subst hev
        right
        cases acc with
        | none => rfl
        | some b =>
          by_cases hb : b = e
          · exact congrArg some (hb ▸ earlierEnd_self b)
          · exact congrArg some (earlierEnd_right (best b rfl hb))
      · rcases found with mem | rfl
        · exact .inl ((List.mem_cons.1 mem).resolve_left (Ne.symm hev))
        · exact .inr (congrArg some (earlierEnd_left (head hev)))

theorem victim_eq {table : List BreakEntry} {v : BreakEntry} (mem : v ∈ table) (fin : v.state = .ended ∨ v.state = .cancelled)
    (first : ∀ x ∈ table, (x.state = .ended ∨ x.state = .cancelled) → x ≠ v → v.GoesBefore x) : victim? table = some v :=
  foldl_earlierEnd _ none
    (fun x hx => first x (List.mem_filter.1 hx).1 ((BreakState.finished_iff _).1 (List.mem_filter.1 hx).2))
    (fun _ ha => nomatch ha) (.inl (List.mem_filter.2 ⟨mem, (BreakState.finished_iff _).2 fin⟩))

theorem victim_none {table : List BreakEntry} (h : ∀ x ∈ table, x.state ≠ .ended ∧ x.state ≠ .cancelled) :
    victim? table = none := by
  have unfinished : table.filter (·.state.finished) = [] := List.filter_eq_nil_iff.2 fun x hx hf =>
    ((BreakState.finished_iff _).1 hf).elim (h x hx).1 (h x hx).2
  unfold victim?
  rw [unfinished]
  rfl

/-! ## Arm times and ends raise notices and no more (R104, R105) -/

theorem fallBack_onlyNotifies (s : State) (e : BreakEntry) (w : FallbackReason) : OnlyNotifies s (s.fallBack e w) :=
  settleBreak_onlyNotifies s e (fun x => { x with state := .fallback, reason := some w }) _ _ _

theorem evaluate_onlyNotifies (s : State) (n : Word16) : OnlyNotifies s (s.evaluate n) := by
  unfold State.evaluate
  split
  · next e _ =>
    split
    · exact fallBack_onlyNotifies s e _
    · exact (OnlyNotifies.of_mgp rfl).trans (raiseBoth_onlyNotifies (s.updateBreak e.number _) _ _ _)
  · exact .refl s

theorem reachArm_onlyNotifies (s : State) (n : Word16) : OnlyNotifies s (s.reachArm n) := by
  unfold State.reachArm
  split
  · split
    · exact evaluate_onlyNotifies s n
    · exact .refl s
  · exact .refl s

theorem endBreak_onlyNotifies (s : State) (e : BreakEntry) : OnlyNotifies s (s.endBreak e) := by
  unfold State.endBreak
  split
  · exact (OnlyNotifies.of_mgp rfl).trans (finishBreak_onlyNotifies (s.countBpu _) e _ _)
  · exact finishBreak_onlyNotifies s e _ _

theorem reachEnd_onlyNotifies (s : State) (n : Word16) : OnlyNotifies s (s.reachEnd n) := by
  unfold State.reachEnd
  split
  · split
    · exact endBreak_onlyNotifies s _
    · exact .refl s
  · exact .refl s

theorem exec_armTimeReached {s : State} (hr : s.Running) (n : Word16) : exec (.armTimeReached n) s = .next (s.reachArm n) :=
  ifRunning_of_running hr (·.reachArm n)

theorem exec_endReached {s : State} (hr : s.Running) (n : Word16) : exec (.endReached n) s = .next (s.reachEnd n) :=
  ifRunning_of_running hr (·.reachEnd n)

/-! ## A notice refused (R75, R86, R88) -/

section
variable (s : State) (n : Word16) (w : NoticeRefusal)

theorem refuseNotice_raised :
    Raised s (s.refuseNotice n w) .site [noticeAt s .noticeRefused (.breakNumber n) (.refusal w)] :=
  raiseSite_raised (s.countBpu _) _ _ _

theorem refuseNotice_insertion : Raised s (s.refuseNotice n w) .insertion [] :=
  .nil (congrArg RolePort.notices (raiseSite_insertion (s.countBpu _) _ _ _))

theorem refuseNotice_onlyNotifies : OnlyNotifies s (s.refuseNotice n w) :=
  (OnlyNotifies.of_mgp rfl).trans (raiseSite_onlyNotifies (s.countBpu _) _ _ _)

end

end Machine
end Sys2Proof
end

section
/-! PROOFS. BREAK_NOTICE for a number that the table does not hold (R74, R75, R83, R86, R87), and notices that are not delivered
(R70, R71). -/

namespace Sys2Proof
namespace Machine

/-! ## A new entry joins the table (R86) -/

/-- The notices of a new entry, to both roles (R86). -/
def newNotices (s : State) (e : BreakEntry) : List Notice :=
  noticeAt s .breakAnnounced (.breakNumber e.number) .none ::
    (if e.state = .fallback then [noticeAt s .breakFallback (.breakNumber e.number) (.reason .late)] else [])

section
variable (s : State) (e : BreakEntry)

theorem placeNew_bpu : (s.placeNew e).bpu = { s.bpu with table := insertBreak e s.bpu.table } := by
  unfold State.placeNew
  dsimp only
  split <;> rfl

theorem placeNew_csc : (s.placeNew e).csc = s.csc := placeNew_frame s e .csc (by decide)

theorem placeNew_findBreak (absent : ∀ x ∈ s.bpu.table, x.number ≠ e.number) (m : Word16) :
    (s.placeNew e).findBreak? m = if m = e.number then some e else s.findBreak? m := by
  unfold State.findBreak?
  rw [placeNew_bpu]
  exact find_insertBreak e m s.bpu.table absent

theorem placeNew_raised : RaisedBoth s (s.placeNew e) (newNotices s e) := by
  have announced := raiseBoth_raised (s.setBpu { s.bpu with table := insertBreak e s.bpu.table }) .breakAnnounced
    (.breakNumber e.number) .none
  unfold State.placeNew newNotices
  dsimp only
  split
  · exact fun r => (announced r).append (raiseBoth_raised _ _ _ _ r)
  · exact announced

theorem placeNew_onlyNotifies : OnlyNotifies s (s.placeNew e) := by
  have announced : OnlyNotifies s ((s.setBpu { s.bpu with table := insertBreak e s.bpu.table }).raiseBoth .breakAnnounced
      (.breakNumber e.number) .none) := (OnlyNotifies.of_mgp rfl).trans (raiseBoth_onlyNotifies (s.setBpu _) _ _ _)
  unfold State.placeNew
  dsimp only
  split
  · exact announced.trans (raiseBoth_onlyNotifies _ _ _ _)
  · exact announced

end

/-- A reservation held on a removed entry names it no more (R87). -/
def Reservation.orphanedBy (x : Reservation) (n : Word16) : Reservation :=
  match x with
  | .held m rev => if m = n then .orphaned n else .held m rev
  | .orphaned m => .orphaned m
  | .none => .none

theorem orphan_eq (st : Staging) (n : Word16) : st.orphan n = { st with reservation := st.reservation.orphanedBy n } := by
  obtain ⟨reservation, reference, length, positions⟩ := st
  cases reservation with
  | none => rfl
  | orphaned m => rfl
  | held m rev =>
    unfold Staging.orphan Reservation.orphanedBy
    dsimp only
    split <;> rfl

theorem reuseEntry_staging (s : State) (n : Word16) (r : Role) : ((s.reuseEntry n).bpu.staging.get r) =
    { s.bpu.staging.get r with reservation := (s.bpu.staging.get r).reservation.orphanedBy n } := by
  cases r <;> exact orphan_eq _ n

/-! ## A first notice judged (R86) -/

section
variable {s : State} {f : NoticeFields} {start finish : SiteTime} {p : Policy}

theorem newBreak_late (h : s.tbu.time.before start = false) : s.newBreak f start finish p = s.refuseNotice f.number .late := by
  unfold State.newBreak
  rw [if_pos (by simp [SiteTime.reached, h])]

variable (ahead : s.tbu.time.before start = true)
include ahead

theorem newBreak_overlap (h : overlapsOther s.bpu.table f.number f.service start finish = true) :
    s.newBreak f start finish p = s.refuseNotice f.number .overlap := by
  unfold State.newBreak
  rw [if_neg (by simp [SiteTime.reached, ahead]), if_pos h]

variable (clear : overlapsOther s.bpu.table f.number f.service start finish = false)
include clear

theorem newBreak_room (h : s.bpu.table.length < 16) : s.newBreak f start finish p = s.placeNew (newEntry s f start finish p) := by
  unfold State.newBreak
  rw [if_neg (by simp [SiteTime.reached, ahead]), if_neg (by simp [clear]), if_pos (show _ < Config.breakPlaces from h)]

variable (full : 16 ≤ s.bpu.table.length)
include full

theorem newBreak_planFull (h : victim? s.bpu.table = none) :
    s.newBreak f start finish p = s.refuseNotice f.number .planFull := by
  unfold State.newBreak
  rw [if_neg (by simp [SiteTime.reached, ahead]), if_neg (by simp [clear]),
    if_neg (show ¬ _ < Config.breakPlaces from not_lt.2 full), h]

theorem newBreak_reused {v : BreakEntry} (h : victim? s.bpu.table = some v) :
    s.newBreak f start finish p = (s.reuseEntry v.number).placeNew (newEntry s f start finish p) := by
  unfold State.newBreak
  rw [if_neg (by simp [SiteTime.reached, ahead]), if_neg (by simp [clear]),
    if_neg (show ¬ _ < Config.breakPlaces from not_lt.2 full), h]

end

theorem newBreak_onlyNotifies (s : State) (f : NoticeFields) (a b : SiteTime) (p : Policy) :
    OnlyNotifies s (s.newBreak f a b p) := by
  unfold State.newBreak
  split
  · exact refuseNotice_onlyNotifies s _ _
  · split
    · exact refuseNotice_onlyNotifies s _ _
    · split
      · exact placeNew_onlyNotifies s _
      · split
        · exact (OnlyNotifies.of_mgp rfl).trans (placeNew_onlyNotifies (s.reuseEntry _) _)
        · exact refuseNotice_onlyNotifies s _ _

/-! ## A notice reaches its delivery (R70 to R75) -/

theorem incomplete_iff (f : NoticeFields) : f.incomplete = true ↔ f.start = none ∨ f.finish = none ∨ f.policy = none := by
  simp [NoticeFields.incomplete, or_assoc]

section
variable {s : State} {h : InHand} {d : Directive} {f : NoticeFields}

theorem reachNotice_malformed (hm : parseNotice? d.body = none) : s.reachNotice h d = s.malformed := by
  unfold State.reachNotice
  rw [hm]

theorem reachNotice_elsewhere (hf : parseNotice? d.body = some f) (h0 : f.area ≠ 0#8)
    (ha : s.sst.live.areaCode ≠ some f.area.toNat) :
    s.reachNotice h d = s.countDdc (fun c => { c with otherAreas := bump c.otherAreas }) := by
  unfold State.reachNotice
  rw [hf]
  exact filterArea_elsewhere h0 ha _

theorem reachNotice_here (hf : parseNotice? d.body = some f) (ha : f.area = 0#8 ∨ s.sst.live.areaCode = some f.area.toNat) :
    s.reachNotice h d = s.deliverNotice f := by
  unfold State.reachNotice
  rw [hf]
  exact filterArea_here ha _

theorem deliverNotice_known {e : BreakEntry} (he : s.findBreak? f.number = some e) :
    s.deliverNotice f = s.revise e (f.toSite s.sst.live) := by
  have hn : s.findBreak? (f.toSite s.sst.live).number = some e := he
  unfold State.deliverNotice State.takeNotice
  rw [if_neg (by simp [he]), hn]

variable (new : s.findBreak? f.number = none)
include new

theorem deliverNotice_incomplete (hi : f.start = none ∨ f.finish = none ∨ f.policy = none) : s.deliverNotice f =
    (s.countDdc (fun c => { c with incompleteNotices := bump c.incompleteNotices })).raiseSite .noticeRefused
      (.breakNumber f.number) (.refusal .incomplete) := by
  unfold State.deliverNotice
  rw [if_pos (by simp [new, (incomplete_iff f).2 hi])]

theorem deliverNotice_first {a b : SiteTime} {p : Policy} (ha : f.start = some a) (hb : f.finish = some b)
    (hp : f.policy = some p) : s.deliverNotice f = s.newBreak (f.toSite s.sst.live) (a.add (s.sst.live.siteOffset.getD 0))
      (b.add (s.sst.live.siteOffset.getD 0)) p := by
  have hn : s.findBreak? (f.toSite s.sst.live).number = none := new
  have complete : f.incomplete = false := by simp [NoticeFields.incomplete, ha, hb, hp]
  have hs : (f.toSite s.sst.live).start = some (a.add (s.sst.live.siteOffset.getD 0)) := congrArg (Option.map _) ha
  have he : (f.toSite s.sst.live).finish = some (b.add (s.sst.live.siteOffset.getD 0)) := congrArg (Option.map _) hb
  have hq : (f.toSite s.sst.live).policy = some p := hp
  unfold State.deliverNotice State.takeNotice
  rw [if_neg (by simp [complete]), hn]
  dsimp only
  rw [hs, he, hq]

end

end Machine
end Sys2Proof
end

section
/-! PROOFS. BREAK_NOTICE for a number of the table: what a revision makes of the entry (R89, R90), and the checks of R88 in
order. -/

namespace Sys2Proof
namespace Machine

/-! ## What a revision makes of an entry (R84, R89, R90) -/

section
variable {e : BreakEntry} {g : NoticeFields} {start finish : SiteTime} {plan : Option Word32} {policy : Policy}

theorem overlay_eq (hs : start = g.start.getD e.start) (hf : finish = g.finish.getD e.finish)
    (hp : plan = (g.plan.map some).getD e.plan) (hq : policy = g.policy.getD e.policy) (x : Settings) {rearmed : Bool}
    (hr : rearmed = decide (e.state = .armed ∧ (start ≠ e.start ∨ plan ≠ e.plan))) : e.overlay x g = { e with
      start := start, finish := finish, area := g.area, plan := plan, policy := policy
      arm := if start ≠ e.start ∨ rearmed = true then start.add (-((x.armLead * 27000 : Nat) : Int)) else e.arm
      state := if rearmed then .booked else e.state } := by
  subst hs hf hp hq hr
  unfold BreakEntry.overlay armTimeOf Config.ticksPerMs
  cases g.plan with
  | none => simp
  | some p => simp

/-- An entry outside ACTIVE changes its state at a revision exactly where it returns to BOOKED (R89). -/
theorem overlay_state_ne_iff (hs : start = g.start.getD e.start) (hp : plan = (g.plan.map some).getD e.plan) (x : Settings)
    {rearmed : Bool} (hr : rearmed = decide (e.state = .armed ∧ (start ≠ e.start ∨ plan ≠ e.plan))) :
    (e.overlay x g).state ≠ e.state ↔ rearmed = true := by
  rw [overlay_eq hs rfl hp rfl x hr]
  cases rearmed with
  | false => simp
  | true =>
    have armed : e.state = .armed := (of_decide_eq_true hr.symm).1
    simp [armed]

/-- An entry counts as changed exactly where one of the fields that R84 names differs. -/
theorem contentDiffers_iff (a b : BreakEntry) : contentDiffers a b = true ↔
    ¬ (a.start = b.start ∧ a.finish = b.finish ∧ a.plan = b.plan ∧ a.policy = b.policy ∧ a.area = b.area) := by
  simp only [contentDiffers, Bool.or_eq_true, decide_eq_true_iff]
  tauto

theorem contentDiffers_overlay (hs : start = g.start.getD e.start) (hf : finish = g.finish.getD e.finish)
    (hp : plan = (g.plan.map some).getD e.plan) (hq : policy = g.policy.getD e.policy) (x : Settings) :
    contentDiffers (e.overlay x g) e = true ↔
      ¬ (start = e.start ∧ finish = e.finish ∧ plan = e.plan ∧ policy = e.policy ∧ g.area = e.area) := by
  rw [contentDiffers_iff, overlay_eq hs hf hp hq x rfl]

theorem contentDiffers_overlayActive (hf : finish = g.finish.getD e.finish) :
    contentDiffers (e.overlayActive g) e = decide (finish ≠ e.finish ∨ g.area ≠ e.area) := by
  subst hf
  rw [Bool.eq_iff_iff, contentDiffers_iff, decide_eq_true_iff]
  simp only [BreakEntry.overlayActive]
  tauto

theorem lateFields_iff (hs : start = g.start.getD e.start) (hp : plan = (g.plan.map some).getD e.plan)
    (hq : policy = g.policy.getD e.policy) :
    e.lateFields g = true ↔ start ≠ e.start ∨ policy ≠ e.policy ∨ plan ≠ e.plan := by
  subst hs hp hq
  unfold BreakEntry.lateFields
  cases g.plan <;> simp [or_assoc]

end

/-! ## The changed entry takes its place (R88) -/

section
variable {s : State} {old new : BreakEntry}

theorem installRevision_findBreak (h : s.findBreak? old.number = some old) (hn : new.number = old.number) :
    (s.installRevision old new).findBreak? old.number = some { new with revision := old.revision + 1 } := by
  change List.find? (fun x : BreakEntry => x.number == old.number) (if new.start = old.start then _ else _) = _
  split
  · have keeps : ∀ x : BreakEntry,
        (if x.number = new.number then { new with revision := old.revision + 1 } else x).number = x.number := fun x => by
      split
      · next hx => exact hx.symm
      · rfl
    rw [find_map_number _ _ _ keeps]
    unfold State.findBreak? at h
    rw [h, Option.map_some, if_pos hn.symm]
  · rw [find_insertBreak _ _ _ removeBreak_none, if_pos hn.symm]

theorem installRevision_raised (s : State) (old new : BreakEntry) : RaisedBoth s (s.installRevision old new)
    [noticeAt s .breakRevised (.breakNumber new.number) (.revision (old.revision + 1))] :=
  raiseBoth_raised (s.setBpu _) _ _ _

theorem installRevision_onlyNotifies (s : State) (old new : BreakEntry) : OnlyNotifies s (s.installRevision old new) :=
  (OnlyNotifies.of_mgp rfl).trans (raiseBoth_onlyNotifies (s.setBpu _) _ _ _)

/-! ## What follows (R85, R89, R90) -/

/-- An entry whose window is open: what follows a revision then is the fetch instant's, not site time's (R90). -/
def BreakEntry.OnAir (e : BreakEntry) : Prop := e.state = .active ∨ (e.state = .fallback ∧ e.windowOpen = true)

section
variable (air : ¬ old.OnAir)
include air

theorem afterRevision_moved (h : new.arm ≠ old.arm ∨ new.state ≠ old.state) :
    s.afterRevision old new = (s.reachArm new.number).reachEnd new.number := by
  have moved : (decide (new.arm ≠ old.arm) || decide (new.state ≠ old.state)) = true := by simpa using h
  refine (if_neg air).trans ?_
  dsimp only
  rw [moved]
  rfl

theorem afterRevision_unmoved (arm : new.arm = old.arm) (state : new.state = old.state) :
    s.afterRevision old new = if new.finish ≠ old.finish then s.reachEnd new.number else s := by
  refine (if_neg air).trans ?_
  simp [arm, state]

end

/-- A revision of an entry whose window is open: the changed entry, shortened where the fetch instant has reached its new end. -/
theorem revised_onAir (air : old.OnAir) (h : s.findBreak? old.number = some old) (hn : new.number = old.number) {t : State}
    (ht : t = (s.installRevision old new).afterRevision old new) :
    t.findBreak? old.number = some { new with
        revision := old.revision + 1
        closure := if new.finish ≠ old.finish ∧ s.fetchReached new.finish = true then some (new.closure.getD .shortened)
          else new.closure }
      ∧ t.bpu.counters = s.bpu.counters ∧ t.csc = s.csc
      ∧ RaisedBoth s t [noticeAt s .breakRevised (.breakNumber old.number) (.revision (old.revision + 1))] := by
  have found := installRevision_findBreak h hn
  have raised := installRevision_raised s old new
  have after : t = if new.finish ≠ old.finish ∧ s.fetchReached new.finish = true
      then (s.installRevision old new).updateBreak new.number BreakEntry.shorten else s.installRevision old new :=
    ht.trans (if_pos air)
  rw [hn] at raised after
  subst after
  split
  · exact ⟨(updateBreak_self found shorten_number).trans (congrArg some (shorten_eq _)), rfl, rfl, raised⟩
  · exact ⟨found, rfl, rfl, raised⟩

end

theorem OnlyNotifies.ite {s t u : State} {c : Prop} [Decidable c] (h : OnlyNotifies s t) (k : OnlyNotifies s u) :
    OnlyNotifies s (if c then t else u) := by
  split
  · exact h
  · exact k

theorem afterRevision_onlyNotifies (s : State) (old new : BreakEntry) : OnlyNotifies s (s.afterRevision old new) := by
  unfold State.afterRevision
  refine .ite (.ite (.of_mgp rfl) (.refl s)) ?_
  have armed : OnlyNotifies s (if decide (new.arm ≠ old.arm) || decide (new.state ≠ old.state) then s.reachArm new.number else s) :=
    .ite (reachArm_onlyNotifies s _) (.refl s)
  exact .ite (armed.trans (reachEnd_onlyNotifies _ _)) armed

/-! ## The checks of a revision in order (R88) -/

/-- The entry as a notice leaves it: of an ACTIVE one only end and area change (R89, R90). -/
def BreakEntry.revisedBy (e : BreakEntry) (x : Settings) (g : NoticeFields) : BreakEntry :=
  if e.state = .active then e.overlayActive g else e.overlay x g

/-- A notice with changed fields that an ACTIVE entry no longer takes is counted (R90). -/
def State.countLate (s : State) (e : BreakEntry) (g : NoticeFields) : State :=
  if decide (e.state = .active) && e.lateFields g then s.countBpu (fun c => { c with lateRevisions := bump c.lateRevisions }) else s

theorem revisedBy_inactive {e : BreakEntry} (h : e.state ≠ .active) (x : Settings) (g : NoticeFields) :
    e.revisedBy x g = e.overlay x g := if_neg h

theorem countLate_inactive {e : BreakEntry} (h : e.state ≠ .active) (s : State) (g : NoticeFields) : s.countLate e g = s :=
  if_neg (by simp [h])

/-- A new start at or before site time, for an entry that has not begun (R88). -/
def StartsLate (s : State) (e : BreakEntry) (start : SiteTime) : Prop :=
  (e.state = .announced ∨ e.state = .booked ∨ e.state = .armed) ∧ start ≠ e.start ∧ s.tbu.time.before start = false

theorem startsLate_iff (s : State) (e : BreakEntry) (start : SiteTime) : StartsLate s e start ↔
    ((decide (e.state = .announced) || decide (e.state = .booked) || decide (e.state = .armed)) && decide (start ≠ e.start)
      && s.tbu.time.reached start) = true := by
  simp [StartsLate, SiteTime.reached, and_assoc, or_assoc]

/-- Why a revision is refused: the first check of R88 that it fails. -/
def RevisionRefused (s : State) (e : BreakEntry) (g : NoticeFields) (start finish : SiteTime) (why : NoticeRefusal) : Prop :=
  (g.service ≠ e.service ∧ why = .invalid)
    ∨ (g.service = e.service ∧ start.before finish = false ∧ why = .invalid)
    ∨ (g.service = e.service ∧ start.before finish = true ∧ (e.state = .announced ∨ e.state = .booked ∨ e.state = .armed)
        ∧ start ≠ e.start ∧ s.tbu.time.before start = false ∧ why = .late)
    ∨ (g.service = e.service ∧ start.before finish = true ∧ ¬ StartsLate s e start
        ∧ overlapsOther s.bpu.table e.number e.service (if e.state = .active then e.start else start) finish = true
        ∧ why = .overlap)

section
variable {s : State} {e : BreakEntry} {g : NoticeFields} {start finish : SiteTime}

theorem revise_finished (h : e.state = .ended ∨ e.state = .cancelled) : s.revise e g = s :=
  if_pos ((BreakState.finished_iff _).2 h)

variable (going : e.state.finished = false)
include going

theorem revise_otherService (h : g.service ≠ e.service) : s.revise e g = s.refuseNotice g.number .invalid := by
  unfold State.revise
  rw [if_neg (by simp [going]), if_pos h]

variable (hs : start = g.start.getD e.start) (hf : finish = g.finish.getD e.finish) (service : g.service = e.service)
include hs hf service

theorem revise_emptyWindow (h : start.before finish = false) : s.revise e g = s.refuseNotice g.number .invalid := by
  unfold State.revise
  rw [if_neg (by simp [going]), if_neg (not_not.2 service)]
  dsimp only
  rw [← hs, ← hf, if_pos h]

variable (window : start.before finish = true)
include window

theorem revise_late (h : StartsLate s e start) : s.revise e g = s.refuseNotice g.number .late := by
  unfold State.revise
  rw [if_neg (by simp [going]), if_neg (not_not.2 service)]
  dsimp only
  rw [← hs, ← hf, if_neg (by simp [window]), if_pos ((startsLate_iff s e start).1 h)]

variable (early : ¬ StartsLate s e start)
include early

theorem revise_overlap
    (h : overlapsOther s.bpu.table e.number e.service (if e.state = .active then e.start else start) finish = true) :
    s.revise e g = s.refuseNotice g.number .overlap := by
  unfold State.revise
  rw [if_neg (by simp [going]), if_neg (not_not.2 service)]
  dsimp only
  rw [← hs, ← hf, if_neg (by simp [window]), if_neg (mt (startsLate_iff s e start).2 early), if_pos h]

/-- A revision that passes every check is applied. -/
theorem revise_applied
    (clear : overlapsOther s.bpu.table e.number e.service (if e.state = .active then e.start else start) finish = false) :
    s.revise e g = if contentDiffers (e.revisedBy s.sst.live g) e
      then ((s.countLate e g).installRevision e (e.revisedBy s.sst.live g)).afterRevision e (e.revisedBy s.sst.live g)
      else s.countLate e g := by
  unfold State.revise
  rw [if_neg (by simp [going]), if_neg (not_not.2 service)]
  dsimp only
  rw [← hs, ← hf, if_neg (by simp [window]), if_neg (mt (startsLate_iff s e start).2 early), if_neg (by simp [clear])]
  rfl

end

theorem revise_refused {s : State} {e : BreakEntry} {g : NoticeFields} {start finish : SiteTime}
    (going : e.state.finished = false) (hs : start = g.start.getD e.start) (hf : finish = g.finish.getD e.finish)
    {why : NoticeRefusal} (h : RevisionRefused s e g start finish why) : s.revise e g = s.refuseNotice g.number why := by
  rcases h with ⟨other, rfl⟩ | ⟨service, empty, rfl⟩ | ⟨service, window, begun, moved, late, rfl⟩
    | ⟨service, window, early, overlap, rfl⟩
  · exact revise_otherService going other
  · exact revise_emptyWindow going hs hf service empty
  · exact revise_late going hs hf service window ⟨begun, moved, late⟩
  · exact revise_overlap going hs hf service window early overlap

theorem revise_onlyNotifies (s : State) (e : BreakEntry) (g : NoticeFields) : OnlyNotifies s (s.revise e g) := by
  have refused := refuseNotice_onlyNotifies s g.number
  have revised : ∀ {u : State} {new : BreakEntry}, OnlyNotifies s u →
      OnlyNotifies s (if contentDiffers new e then (u.installRevision e new).afterRevision e new else u) := fun hu =>
    .ite ((hu.trans (installRevision_onlyNotifies _ _ _)).trans (afterRevision_onlyNotifies _ _ _)) hu
  unfold State.revise
  refine .ite (.refl s) (.ite (refused _) (.ite (refused _) (.ite (refused _) (.ite (refused _) (revised ?_)))))
  exact .ite (.of_mgp rfl) (.refl s)

theorem reachNotice_onlyNotifies (s : State) (h : InHand) (d : Directive) : OnlyNotifies s (s.reachNotice h d) := by
  unfold State.reachNotice
  split
  · exact .of_mgp rfl
  · next f _ =>
    refine .ite (.ite ((OnlyNotifies.of_mgp rfl).trans (raiseSite_onlyNotifies (s.countDdc _) _ _ _)) ?_) (.of_mgp rfl)
    unfold State.takeNotice
    split
    · exact revise_onlyNotifies s _ _
    · split
      · exact newBreak_onlyNotifies s _ _ _ _
      all_goals exact .refl s

end Machine
end Sys2Proof
end

section
/-! PROOFS. The statement of BREAK_NOTICE as a whole (R70 to R75, R83, R85 to R90). -/

namespace Sys2Proof
namespace Machine

/-! ## The entry of a first notice (R83, R86, R87) -/

section
variable {s : State} {f : NoticeFields} {start finish : SiteTime} {p : Policy}

theorem newNotices_newEntry : newNotices s (newEntry s f start finish p) =
    noticeAt s .breakAnnounced (.breakNumber f.number) .none ::
      (if s.tbu.time.reached (armTimeOf s.sst.live start)
        then [noticeAt s .breakFallback (.breakNumber f.number) (.reason .late)] else []) := by
  unfold newNotices newEntry
  dsimp only
  split <;> simp

/-- A new entry in a table with room: every other entry is found as before, and its arm time decides its state. -/
theorem placeNew_room (new : s.findBreak? f.number = none) {arm : SiteTime}
    (harm : arm = start.add (-((s.sst.live.armLead * 27000 : Nat) : Int))) {t : State}
    (ht : t = s.placeNew (newEntry s f start finish p)) :
    (∀ n, n ≠ f.number → t.findBreak? n = s.findBreak? n)
      ∧ t.bpu.staging = s.bpu.staging ∧ t.bpu.counters = s.bpu.counters
      ∧ (s.tbu.time.before arm = true →
          t.findBreak? f.number = some
            { number := f.number, service := f.service, area := f.area, start := start, finish := finish, arm := arm,
              plan := f.plan, policy := p, state := .announced }
          ∧ RaisedBoth s t [noticeAt s .breakAnnounced (.breakNumber f.number) .none])
      ∧ (s.tbu.time.before arm = false →
          t.findBreak? f.number = some
            { number := f.number, service := f.service, area := f.area, start := start, finish := finish, arm := arm,
              plan := f.plan, policy := p, state := .fallback, reason := some .late }
          ∧ RaisedBoth s t [noticeAt s .breakAnnounced (.breakNumber f.number) .none,
              noticeAt s .breakFallback (.breakNumber f.number) (.reason .late)]) := by
  have found := placeNew_findBreak s (newEntry s f start finish p) (State.findBreak_none new)
  have bpu := placeNew_bpu s (newEntry s f start finish p)
  have raised := placeNew_raised s (newEntry s f start finish p)
  rw [← ht] at found bpu raised
  rw [newNotices_newEntry] at raised
  have self := (found f.number).trans (if_pos rfl)
  have late : s.tbu.time.reached (armTimeOf s.sst.live start) = !s.tbu.time.before arm := harm ▸ rfl
  unfold newEntry at self
  dsimp only at self
  rw [late] at self raised
  rw [show armTimeOf s.sst.live start = arm from harm.symm] at self
  refine ⟨fun n hn => (found n).trans (if_neg hn), by rw [bpu], by rw [bpu],
    fun h => ?_, fun h => ?_⟩
  · rw [h] at self raised
    exact ⟨self, raised⟩
  · rw [h] at self raised
    exact ⟨self, raised⟩

/-- A new entry in the place of a finished one, which is found no more; a reservation that named it is orphaned (R87). -/
theorem placeNew_reused {v e : BreakEntry} (new : s.findBreak? e.number = none) (hv : v ∈ s.bpu.table) {t : State}
    (ht : t = (s.reuseEntry v.number).placeNew e) :
    (t.findBreak? e.number = some e
        ∧ t.bpu.table = insertBreak e (s.bpu.table.filter (fun x => x.number ≠ v.number))
        ∧ RaisedBoth s t (newNotices s e))
      ∧ t.findBreak? v.number = none
      ∧ t.bpu.counters = s.bpu.counters
      ∧ (∀ r, t.bpu.staging.get r =
          { s.bpu.staging.get r with reservation := (s.bpu.staging.get r).reservation.orphanedBy v.number })
      ∧ t.csc = s.csc := by
  have absent := State.findBreak_none new
  have found := placeNew_findBreak (s.reuseEntry v.number) e fun x hx => absent x (List.mem_filter.1 hx).1
  have bpu := placeNew_bpu (s.reuseEntry v.number) e
  have gone : (s.reuseEntry v.number).findBreak? v.number = none :=
    List.find?_eq_none.2 fun x hx => by simpa using removeBreak_none x hx
  have raised := placeNew_raised (s.reuseEntry v.number) e
  have csc := placeNew_csc (s.reuseEntry v.number) e
  rw [← ht] at found bpu raised csc
  refine ⟨⟨(found e.number).trans (if_pos rfl), congrArg Bpu.table bpu, raised⟩,
    ((found v.number).trans (if_neg (absent v hv))).trans gone, by rw [bpu]; rfl, fun r => ?_, csc⟩
  rw [bpu]
  exact reuseEntry_staging s v.number r

end

/-! ## A revision that is applied (R88 to R90) -/

section
variable {s : State} {e : BreakEntry} {g : NoticeFields} {start finish : SiteTime} {plan : Option Word32} {policy : Policy}
variable (hs : start = g.start.getD e.start) (hf : finish = g.finish.getD e.finish)
  (hp : plan = (g.plan.map some).getD e.plan) (hq : policy = g.policy.getD e.policy)

theorem countLate_frame (s : State) (e : BreakEntry) (g : NoticeFields) : OnlyChanges [.bpu] s (s.countLate e g) :=
  .ite (countBpu_frame s _) (.refl _ s)

theorem countLate_findBreak (s : State) (e : BreakEntry) (g : NoticeFields) (n : Word16) :
    (s.countLate e g).findBreak? n = s.findBreak? n := by
  unfold State.countLate
  split <;> rfl

include hs hp hq in
theorem countLate_counters (active : e.state = .active) : (s.countLate e g).bpu.counters =
    (if start ≠ e.start ∨ policy ≠ e.policy ∨ plan ≠ e.plan
      then { s.bpu.counters with lateRevisions := bump s.bpu.counters.lateRevisions } else s.bpu.counters) := by
  unfold State.countLate
  by_cases late : start ≠ e.start ∨ policy ≠ e.policy ∨ plan ≠ e.plan
  · rw [if_pos (by simp [active, (lateFields_iff hs hp hq).2 late]), if_pos late]
    rfl
  · rw [if_neg (by simp [active, mt (lateFields_iff hs hp hq).1 late]), if_neg late]

include hs hf hp hq in
/-- A revision of an ACTIVE entry applies its end and area, and counts other changed fields as late (R90). -/
theorem revised_active (found : s.findBreak? e.number = some e) (active : e.state = .active) {changed : Bool}
    (hc : changed = decide (finish ≠ e.finish ∨ g.area ≠ e.area)) {t : State}
    (ht : t = if contentDiffers (e.revisedBy s.sst.live g) e
      then ((s.countLate e g).installRevision e (e.revisedBy s.sst.live g)).afterRevision e (e.revisedBy s.sst.live g)
      else s.countLate e g) :
    t.findBreak? e.number = some { e with
        finish := finish, area := g.area, revision := if changed then e.revision + 1 else e.revision
        closure := if finish ≠ e.finish ∧ s.fetchReached finish = true then some (e.closure.getD .shortened) else e.closure }
      ∧ t.bpu.counters = (if start ≠ e.start ∨ policy ≠ e.policy ∨ plan ≠ e.plan
          then { s.bpu.counters with lateRevisions := bump s.bpu.counters.lateRevisions } else s.bpu.counters)
      ∧ t.csc = s.csc
      ∧ RaisedBoth s t (if changed
          then [noticeAt s .breakRevised (.breakNumber e.number) (.revision (e.revision + 1))] else []) := by
  have revised : e.revisedBy s.sst.live g = { e with finish := finish, area := g.area } := by
    rw [hf]
    exact if_pos active
  have differs : contentDiffers (e.revisedBy s.sst.live g) e = changed := by
    rw [hc, ← contentDiffers_overlayActive hf]
    exact congrArg (contentDiffers · e) (if_pos active)
  have counted := countLate_counters (s := s) hs hp hq active
  have frame := countLate_frame s e g
  have mgp := frame .mgp (by decide)
  have csc := frame .csc (by decide)
  have still := (countLate_findBreak s e g e.number).trans found
  rw [differs, revised] at ht
  cases changed with
  | false =>
    obtain ⟨rfl, harea⟩ : finish = e.finish ∧ g.area = e.area := by simpa using hc
    obtain rfl : t = s.countLate e g := ht.trans (if_neg Bool.false_ne_true)
    refine ⟨?_, counted, csc, fun r => .nil (congrArg (fun m => (m.ports.get r).notices) mgp)⟩
    simp [still, harea]
  | true =>
    obtain ⟨after, counters, csc', raised⟩ := revised_onAir (.inl active) still
      (new := { e with finish := finish, area := g.area }) rfl ht
    rw [noticeAt_congr (frame .tbu (by decide))] at raised
    have reached : (s.countLate e g).fetchReached finish = s.fetchReached finish := by
      unfold State.fetchReached
      rw [frame .spe (by decide)]
    rw [reached] at after
    exact ⟨after, counters.trans counted, csc'.trans csc, fun r => (raised r).of_mgp mgp⟩

/-- A revision of an entry that is not ACTIVE and whose window is not open: the changed entry takes its place, and then its
arm time or its end act as the new values call for (R85, R89). -/
theorem revised_ahead (hr : s.Running) {new : BreakEntry} {rearmed : Bool} {n : Word16} (number : n = e.number)
    (air : ¬ e.OnAir) (hn : new.number = e.number) (hstate : new.state ≠ e.state ↔ rearmed = true) {t : State}
    (ht : t = (s.installRevision e new).afterRevision e new) : ∃ u w,
      u.bpu = { s.bpu with table := (if new.start = e.start
        then s.bpu.table.map (fun y => if y.number = n then { new with revision := e.revision + 1 } else y)
        else insertBreak { new with revision := e.revision + 1 } (s.bpu.table.filter (fun y => y.number ≠ n))) }
      ∧ RaisedBoth s u [noticeAt s .breakRevised (.breakNumber n) (.revision (e.revision + 1))]
      ∧ OnlyChanges [.bpu, .mgp] s u ∧ OnlyNotifies s u
      ∧ ((new.arm ≠ e.arm ∨ rearmed = true) → exec (.armTimeReached n) u = .next w ∧ exec (.endReached n) w = .next t)
      ∧ (new.arm = e.arm → rearmed = false → new.finish ≠ e.finish → exec (.endReached n) u = .next t)
      ∧ (new.arm = e.arm → rearmed = false → new.finish = e.finish → t = u) := by
  obtain rfl : n = new.number := number.trans hn.symm
  have frame := installRevision_frame s e new
  have runs : (s.installRevision e new).Running := (frame .inReset (by decide)).trans hr
  have runs' : ((s.installRevision e new).reachArm new.number).Running :=
    (reachArm_frame _ _ .inReset (by decide)).trans runs
  have same : rearmed = false → new.state = e.state := fun h => not_not.1 (mt hstate.1 (by simp [h]))
  refine ⟨s.installRevision e new, _, rfl, installRevision_raised s e new, frame, installRevision_onlyNotifies s e new,
    fun moved => ⟨exec_armTimeReached runs _, ?_⟩, fun arm still hfinish => ?_, fun arm still hfinish => ?_⟩
  · rw [exec_endReached runs', ht, afterRevision_moved air (moved.imp_right hstate.2)]
  · rw [exec_endReached runs, ht, afterRevision_unmoved air arm (same still), if_pos hfinish]
  · rw [ht, afterRevision_unmoved air arm (same still), if_neg (not_not.2 hfinish)]

end

/-! ## The statement -/

/-- The places of a body's fields by its mask. -/
theorem maskOffset_eq (m : Byte) (k : Nat) : maskOffset m k =
    (if m.getLsbD 0 ∧ 0 < k then 8 else 0) + (if m.getLsbD 1 ∧ 1 < k then 8 else 0) + (if m.getLsbD 2 ∧ 2 < k then 4 else 0)
      + (if m.getLsbD 3 ∧ 3 < k then 1 else 0) := by
  simp [maskOffset]

/-- A body is malformed by its length, its mask, its service, a tick out of range, an empty window or an unknown policy (R70). -/
theorem parseNotice_malformed {body : List Byte} {m : Byte} (hm : m = byteAt body 5)
    (bad : body.length < 5 ∨ body.length ≠ 5 + maskOffset m 4 ∨ 16 ≤ m.toNat ∨ (byteAt body 3).toNat < 1
      ∨ 4 < (byteAt body 3).toNat ∨ (m.getLsbD 0 = true ∧ 27000000 ≤ bodyNum body 10 4)
      ∨ (m.getLsbD 1 = true ∧ 27000000 ≤ bodyNum body (10 + maskOffset m 1) 4)
      ∨ (m.getLsbD 0 = true ∧ m.getLsbD 1 = true ∧ (bodyTime body 6).before (bodyTime body 14) = false)
      ∨ (m.getLsbD 3 = true ∧ 1 < (byteAt body (6 + maskOffset m 3)).toNat)) : parseNotice? body = none := by
  subst hm
  refine Option.eq_none_iff_forall_ne_some.2 fun f hf => ?_
  obtain ⟨long, mask, length, service, start, finish, window, policy⟩ := parseNotice_sound hf
  rw [Ne, Service.ofNat?_eq_none_iff] at service
  rcases bad with h | h | h | h | h | ⟨h0, h⟩ | ⟨h1, h⟩ | ⟨h0, h1, h⟩ | ⟨h3, h⟩
  · exact absurd long (not_le.2 h)
  · exact h length
  · exact absurd mask (not_lt.2 h)
  · exact service (.inl h)
  · exact service (.inr h)
  · exact absurd (start h0) (not_lt.2 h)
  · rw [show 10 + maskOffset (byteAt body 5) 1 = 6 + maskOffset (byteAt body 5) 1 + 4 by omega] at h
    exact absurd (finish h1) (not_lt.2 h)
  · have place : maskOffset (byteAt body 5) 1 = 8 := by simp [maskOffset, h0]
    have ordered := window h0 h1
    rw [place] at ordered
    exact Bool.false_ne_true (h.symm.trans ordered)
  · exact absurd (policy h3) (not_le.2 h)

/-- The notice in hand is handled, and parsing goes on. -/
theorem exec_breakNotice {s : State} {h : InHand} {d : Directive} (hr : s.Running) (hh : s.ddc.inHand = some h)
    (hd : h.directive? = some d) (hk : d.kind = 0x10#8) :
    exec .breakNotice s = .next ((s.reachNotice h d).nextDirective h d) :=
  onDirective_handled hr hh hd (by simp [hk]) State.reachNotice

/-- Settles O22: a first notice by the checks of R86 (`newBreak_late` and on, `placeNew_room`, `placeNew_reused`), a revision by
those of R88 (`revise_applied` and before), and a malformed notice by what a body that parses has (`parseNotice_sound`). -/
theorem firstNoticeMakesAnEntry : Obligations.FirstNoticeMakesAnEntry := by
  refine ⟨fun s h d f hr hh hd hk hf ha new => ?_, fun s h d f e start finish plan policy hr hh hd hk hf ha he hs hfi hp hq => ?_,
    fun s h d m o hr hh hd hk hm ho => ⟨fun bad => ?_, fun f hf h0 ha => ?_⟩⟩
  · have hexec := exec_breakNotice hr hh hd hk
    have frame := exec_frame hexec
    have only := reachNotice_onlyNotifies s h d
    rw [reachNotice_here hf ha] at hexec frame only
    refine ⟨_, hexec, rfl, fun hi => ?_, fun a b p start finish hsa hfb hpp hs hfi => ?_, frame, only⟩
    · rw [deliverNotice_incomplete new hi]
      exact ⟨rfl, rfl, raiseSite_raised (s.countDdc _) _ _ _⟩
    · rw [deliverNotice_first new hsa hfb hpp, ← hs, ← hfi]
      refine ⟨fun late => ?_, fun ahead overlap => ?_, fun ahead clear room => ?_, fun ahead clear full =>
        ⟨fun unfinished => ?_, fun v hv fin first => ?_⟩⟩
      · rw [newBreak_late late]
        exact ⟨rfl, refuseNotice_raised s _ _⟩
      · rw [newBreak_overlap (f := f.toSite s.sst.live) ahead overlap]
        exact ⟨rfl, refuseNotice_raised s _ _⟩
      · rw [newBreak_room (f := f.toSite s.sst.live) ahead clear room]
        have placed := placeNew_room (f := f.toSite s.sst.live) (start := start) (finish := finish) (p := p) new rfl rfl
        exact placed
      · rw [newBreak_planFull (f := f.toSite s.sst.live) ahead clear full (victim_none unfinished)]
        exact ⟨rfl, refuseNotice_raised s _ _⟩
      · rw [newBreak_reused (f := f.toSite s.sst.live) ahead clear full (victim_eq hv fin first)]
        obtain ⟨placed, gone, counters, staging, csc⟩ :=
          placeNew_reused (e := newEntry s (f.toSite s.sst.live) start finish p) new hv rfl
        rw [newNotices_newEntry] at placed
        refine ⟨?_, gone, counters, staging, csc⟩
        rintro arm late e rfl rfl rfl
        exact placed
  · have hexec := exec_breakNotice hr hh hd hk
    have frame := exec_frame hexec
    have only := reachNotice_onlyNotifies s h d
    have number : e.number = f.number := State.findBreak_number he
    rw [reachNotice_here hf ha, deliverNotice_known he] at hexec frame only
    refine ⟨_, hexec, nextDirective_ddc (revise_frame s e _ .ddc (by decide)) h d, fun fin => ?_, fun hne hnc =>
      ⟨?_, fun service window early clear => ?_⟩, frame, only⟩
    · rw [revise_finished fin]
      exact ⟨rfl, rfl, rfl⟩
    · intro why hwhy
      rw [revise_refused (g := f.toSite s.sst.live) (BreakState.unfinished hne hnc) hs hfi hwhy]
      exact ⟨rfl, rfl, refuseNotice_insertion s _ _, refuseNotice_raised s _ _⟩
    · have going := BreakState.unfinished hne hnc
      rw [revise_applied (g := f.toSite s.sst.live) going hs hfi service window early clear]
      rw [← number] at he ⊢
      refine ⟨fun inactive h1 h2 h3 h4 h5 => ?_, fun changed active hc => ?_, fun new rearmed inactive differs hre hnew => ?_⟩
      · have same := fun differs =>
          (contentDiffers_overlay (g := f.toSite s.sst.live) hs hfi hp hq s.sst.live).1 differs ⟨h1, h2, h3, h4, h5⟩
        rw [revisedBy_inactive inactive, countLate_inactive inactive, if_neg same]
        exact ⟨rfl, rfl, rfl⟩
      · have revised := revised_active (g := f.toSite s.sst.live) hs hfi hp hq he active hc rfl
        exact revised
      · have overlaid := overlay_eq (g := f.toSite s.sst.live) hs hfi hp hq s.sst.live hre
        have restated := overlay_state_ne_iff (g := f.toSite s.sst.live) hs hp s.sst.live hre
        rw [revisedBy_inactive inactive, countLate_inactive inactive,
          if_pos ((contentDiffers_overlay (g := f.toSite s.sst.live) hs hfi hp hq s.sst.live).2 differs)]
        obtain rfl : new = { e.overlay s.sst.live (f.toSite s.sst.live) with revision := e.revision + 1 } :=
          hnew.trans (by rw [overlaid]; rfl)
        subst hs hfi
        refine ⟨fun fallback wide => ?_, fun narrow => ?_⟩
        · obtain ⟨found, -, csc, raised⟩ := revised_onAir (.inr ⟨fallback, wide⟩) he
            (new := e.overlay s.sst.live (f.toSite s.sst.live)) rfl rfl
          refine ⟨found.trans ?_, csc, raised⟩
          change _ = some (if (e.overlay s.sst.live (f.toSite s.sst.live)).finish ≠ e.finish
            ∧ s.fetchReached (e.overlay s.sst.live (f.toSite s.sst.live)).finish = true then _ else _)
          split <;> rfl
        · obtain ⟨u, w, bpu, raised, frame, only, moved, ended, still⟩ := revised_ahead hr rfl (not_or.2 ⟨inactive, narrow⟩)
            (new := e.overlay s.sst.live (f.toSite s.sst.live)) rfl restated rfl
          exact ⟨u, w, _, bpu, raised, frame, only, moved, ended, still, rfl, rfl, rfl⟩
  · obtain rfl : o = maskOffset m := ho.trans (funext fun k => (maskOffset_eq m k).symm)
    rw [exec_breakNotice hr hh hd hk, reachNotice_malformed (parseNotice_malformed hm bad)]
    rfl
  · rw [exec_breakNotice hr hh hd hk, reachNotice_elsewhere hf h0 ha]
    rfl

end Machine
end Sys2Proof
end

section
/-! PROOFS. RESERVE, DISCARD and FIND_BREAK (R96, R100, R101). -/

namespace Sys2Proof
namespace Machine

/-! ## A command answered by its owner (R182, R183) -/

/-- The part once the answer of a command's owner is recorded (R183). -/
def Taken.recorded (x : Taken) (r : Role) (k : CommandKind) : State := x.state.record r k.code x.code x.value

theorem Taken.recorded_bpu (x : Taken) (r : Role) (k : CommandKind) : (x.recorded r k).bpu = x.state.bpu := rfl
theorem Taken.recorded_csc (x : Taken) (r : Role) (k : CommandKind) : (x.recorded r k).csc = x.state.csc := rfl
theorem Taken.recorded_findBreak (x : Taken) (r : Role) (k : CommandKind) (n : Word16) :
    (x.recorded r k).findBreak? n = x.state.findBreak? n := rfl

section
variable {s : State} {r : Role} {k : CommandKind} {args : List Byte}

theorem ifRunning_takeCommand {owner : State → Taken} (h : s.Listens r) (right : k.siteOnly = false ∨ r = .site) :
    ifRunning s (·.takeCommand r k args owner) = .next ((owner (s.commanded r k args)).recorded r k) := by
  obtain ⟨running, free⟩ := h
  exact (ifRunning_of_running running _).trans (congrArg _ (takeCommand_taken s r k args owner free right))

/-- An owner that leaves the Management Port to the command: nothing but the command and its outcome is new there. -/
theorem commanded_onlyAnswers {u : State} {code : ResultCode} {value : List Byte} (h : u.mgp = (s.commanded r k args).mgp) :
    OnlyAnswers s (u.record r k.code code value) r := by
  obtain ⟨other, hold, notices, counters, bus⟩ := record_onlyAnswers (r := r) (e := k.code) (c := code) (v := value) h
  rw [commanded_port_of_ne (show otherRole r ≠ r by cases r <;> decide)] at other
  rw [commanded_port] at hold notices counters
  exact ⟨other, hold, notices, counters, bus⟩

end

theorem BreakState.awaitsArming_iff (x : BreakState) : x.awaitsArming = true ↔ x = .announced ∨ x = .booked := by
  cases x <;> simp [BreakState.awaitsArming]

theorem BreakState.awaitsArming_of_ne {x : BreakState} (ha : x ≠ .announced) (hb : x ≠ .booked) : x.awaitsArming = false :=
  Bool.eq_false_iff.2 fun h => ((BreakState.awaitsArming_iff x).1 h).elim ha hb

/-! ## A role's staging record (R94) -/

section
variable (s : State) (r : Role) (f : Staging → Staging)

@[simp] theorem updateStaging_get : (s.updateStaging r f).bpu.staging.get r = f (s.bpu.staging.get r) := PerRole.get_set _ _ _

@[simp] theorem updateStaging_other : (s.updateStaging r f).bpu.staging.get (otherRole r) = s.bpu.staging.get (otherRole r) :=
  PerRole.get_set_other _ _ _

@[simp] theorem updateStaging_of_other : (s.updateStaging (otherRole r) f).bpu.staging.get r = s.bpu.staging.get r :=
  PerRole.get_set_of_ne _ (by cases r <;> decide) _

end

/-! ## RESERVE (R96) -/

section
variable {s : State} {r : Role} {n : Word16}

theorem ownReserve_mgp : (ownReserve r n s).state.mgp = s.mgp := by
  unfold ownReserve
  split
  · rfl
  · split <;> rfl

theorem ownReserve_notFound (h : s.findBreak? n = none) : ownReserve r n s = { state := s, code := .notFound } := by
  unfold ownReserve
  rw [h]

variable {e : BreakEntry} (h : s.findBreak? n = some e)
include h

theorem ownReserve_refused (ha : e.state ≠ .announced) (hb : e.state ≠ .booked) :
    ownReserve r n s = { state := s, code := .state } := by
  unfold ownReserve
  rw [h]
  dsimp only
  rw [BreakState.awaitsArming_of_ne ha hb]
  rfl

theorem ownReserve_held (hs : e.state = .announced ∨ e.state = .booked) : ownReserve r n s =
    { state := s.updateStaging r (fun st => { st with reservation := .held n e.revision })
      code := .done
      value := toBytes 2 e.revision.toNat } := by
  unfold ownReserve
  rw [h]
  exact if_pos ((BreakState.awaitsArming_iff _).2 hs)

end

/-- Settles O33: the outcome by the entry and its state (`ownReserve_notFound`, `ownReserve_refused`, `ownReserve_held`). -/
theorem reserveHoldsTheRevision : Obligations.ReserveHoldsTheRevision := by
  intro s r n hl
  have hexec : exec (.reserve r n) s =
      .next ((ownReserve r n (s.commanded r .reserve (toBytes 2 n.toNat))).recorded r .reserve) :=
    ifRunning_takeCommand hl (.inl rfl)
  have answered : Answered s ((ownReserve r n (s.commanded r .reserve (toBytes 2 n.toNat))).recorded r .reserve) r .reserve
      (toBytes 2 n.toNat) _ _ := OnlyNotifies.answered (.of_mgp ownReserve_mgp)
  have frame : OnlyChanges [.mgp, .bpu] s _ := exec_frame hexec
  refine ⟨_, hexec, fun hn => ?_, fun e he => ⟨fun ha hb => ?_, fun hs => ?_⟩, frame.widen,
    commanded_onlyAnswers ownReserve_mgp⟩
  · rw [ownReserve_notFound (s := s.commanded _ _ _) hn] at answered ⊢
    exact ⟨rfl, answered⟩
  · rw [ownReserve_refused (s := s.commanded _ _ _) he ha hb] at answered ⊢
    exact ⟨rfl, answered⟩
  · rw [ownReserve_held (s := s.commanded _ _ _) he hs] at answered ⊢
    exact ⟨PerRole.get_set _ _ _, PerRole.get_set_other _ _ _, rfl, rfl, answered⟩

/-! ## DISCARD (R100) -/

/-- Settles O35: the owner puts the empty staging record in the place of the role's. -/
theorem discardClearsTheStaging : Obligations.DiscardClearsTheStaging := by
  intro s r hl
  have hexec : exec (.discard r) s = .next ((ownDiscard r (s.commanded r .discard [])).recorded r .discard) :=
    ifRunning_takeCommand hl (.inl rfl)
  have frame : OnlyChanges [.mgp, .bpu] s _ := exec_frame hexec
  exact ⟨_, hexec, PerRole.get_set _ _ _, PerRole.get_set_other _ _ _, rfl, rfl, OnlyNotifies.answered (.of_mgp rfl),
    frame.widen, commanded_onlyAnswers rfl⟩

/-! ## FIND_BREAK (R101) -/

section
variable {s : State} {n : Word16}

theorem ownFindBreak_state : (ownFindBreak n s).state = s := by
  unfold ownFindBreak
  split <;> rfl

theorem ownFindBreak_notFound (h : s.findBreak? n = none) : ownFindBreak n s = { state := s, code := .notFound } := by
  unfold ownFindBreak
  rw [h]

variable {before after : List BreakEntry} {e : BreakEntry} (hs : s.bpu.table = before ++ e :: after) (he : e.number = n)
  (hb : ∀ x ∈ before, x.number ≠ n)
include hs he hb

theorem findBreak_split : s.findBreak? n = some e := by
  have skipped : before.find? (fun x => x.number == n) = none := List.find?_eq_none.2 fun x hx => by simpa using hb x hx
  rw [State.findBreak?, hs, List.find?_append, skipped, Option.none_or, List.find?_cons_of_pos (by simpa using he)]

theorem breakPosition_split : breakPosition s.bpu.table n = before.length + 1 := by
  have first : (e :: after).findIdx (fun x => x.number == n) = 0 := by simp [List.findIdx_cons, he]
  have skipped : before.findIdx (fun x => x.number == n) = before.length :=
    List.findIdx_eq_length_of_false fun x hx => by simpa using hb x hx
  rw [breakPosition, hs, List.findIdx_append, first, skipped, if_neg (Nat.lt_irrefl _), Nat.zero_add]

theorem ownFindBreak_found : ownFindBreak n s =
    { state := s
      code := .done
      value := toBytes 1 (before.length + 1) ++ toBytes 1 e.state.code ++ toBytes 2 e.revision.toNat
        ++ toBytes 1 (bookedByCode e.booking) } := by
  unfold ownFindBreak
  rw [findBreak_split hs he hb, breakPosition_split hs he hb]

end

/-- The codes of R201 as the statement of FIND_BREAK lists them. -/
theorem bookedByCode_eq (b : Option Booking) : bookedByCode b = match b.map (fun x => x.by_) with
    | (none : Option Role) => 0 | some Role.insertion => 1 | some Role.site => 2 := by
  rcases b with _ | ⟨_, _, _ | _, _⟩ <;> rfl

/-- Settles O36: the outcome by whether the number is found (`ownFindBreak_notFound`, `ownFindBreak_found`). -/
theorem findBreakReadsTheEntry : Obligations.FindBreakReadsTheEntry := by
  intro s r n hl
  have hexec : exec (.findBreak r n) s =
      .next ((ownFindBreak n (s.commanded r .findBreak (toBytes 2 n.toNat))).recorded r .findBreak) :=
    ifRunning_takeCommand hl (.inl rfl)
  have same : (ownFindBreak n (s.commanded r .findBreak (toBytes 2 n.toNat))).state.mgp =
      (s.commanded r .findBreak (toBytes 2 n.toNat)).mgp := congrArg State.mgp ownFindBreak_state
  have answered : Answered s ((ownFindBreak n (s.commanded r .findBreak (toBytes 2 n.toNat))).recorded r .findBreak) r .findBreak
      (toBytes 2 n.toNat) _ _ := OnlyNotifies.answered (.of_mgp same)
  refine ⟨_, hexec, fun hn => ?_, fun before e after hs he hb => ?_, exec_frame hexec, commanded_onlyAnswers same⟩
  · rw [ownFindBreak_notFound (s := s.commanded _ _ _) hn] at answered ⊢
    exact answered
  · have code : e.state.code = match e.state with
        | .announced => 1 | .booked => 2 | .armed => 3 | .fallback => 4 | .active => 5 | .ended => 6 | .cancelled => 7 := by
      cases e.state <;> rfl
    rw [ownFindBreak_found (s := s.commanded _ _ _) hs he hb, bookedByCode_eq, code] at answered
    rw [ownFindBreak_found (s := s.commanded _ _ _) hs he hb, bookedByCode_eq, code]
    exact answered

end Machine
end Sys2Proof
end

section
/-! PROOFS. CLEAR_BOOKING (R102), and arm times and ends (R104, R105, R138, R139, R145). -/

namespace Sys2Proof
namespace Machine

/-! ## A break entry settled: changed, its pins dropped, a notice raised -/

section
variable {s : State} {n : Word16} {e : BreakEntry} {f : BreakEntry → BreakEntry} {ids : List Word32} {k : NoticeKind} {d : Detail}

theorem settleBreak_bpu_eq : (s.settleBreak e f ids k d).bpu = (s.updateBreak e.number f).bpu := State.dropPins_bpu _ ids

theorem settleBreak_csc_eq : (s.settleBreak e f ids k d).csc = (s.dropPins ids).csc := State.dropPins_csc_congr ids rfl

theorem settleBreak_findBreak (m : Word16) : (s.settleBreak e f ids k d).findBreak? m = (s.updateBreak e.number f).findBreak? m :=
  State.findBreak_congr settleBreak_bpu_eq m

/-- The entry is changed, its pins are dropped and both roles have the notice. -/
theorem settleBreak_found (he : s.findBreak? n = some e) (hf : ∀ x, (f x).number = x.number) :
    (s.settleBreak e f ids k d).findBreak? n = some (f e)
      ∧ (s.settleBreak e f ids k d).csc = (s.dropPins ids).csc
      ∧ RaisedBoth s (s.settleBreak e f ids k d) [noticeAt s k (.breakNumber n) d] := by
  obtain rfl := State.findBreak_number he
  exact ⟨(settleBreak_findBreak _).trans (updateBreak_self he hf), settleBreak_csc_eq, settleBreak_raised⟩

theorem settleBreak_other {m : Word16} (he : s.findBreak? n = some e) (hm : m ≠ n) (hf : ∀ x, (f x).number = x.number) :
    (s.settleBreak e f ids k d).findBreak? m = s.findBreak? m := by
  obtain rfl := State.findBreak_number he
  exact (settleBreak_findBreak m).trans (updateBreak_other s hm hf)

end

/-! ## CLEAR_BOOKING (R102) -/

theorem takeCommand_siteOnly {s : State} (h : s.Listens .insertion) {k : CommandKind} (site : k.siteOnly = true)
    (args : List Byte) (owner : State → Taken) :
    ifRunning s (·.takeCommand .insertion k args owner) = .next (s.refuseRights .insertion k.code) := by
  obtain ⟨running, free⟩ := h
  refine (ifRunning_of_running running _).trans (congrArg _ ?_)
  unfold State.takeCommand
  rw [if_neg (by simp [free]), if_pos ⟨site, rfl⟩]

theorem refuseRights_recorded (s : State) (r : Role) (echo : Nat) : Recorded s (s.refuseRights r echo) r echo .rights [] := by
  unfold State.refuseRights Recorded
  rw [record_recorded, State.countPort, updatePort_port]

/-- The entry without its booking, in the state and with the reason that the clearing gives it (R102). -/
def BreakEntry.cleared (x : BreakEntry) (state : BreakState) (reason : Option FallbackReason) : BreakEntry :=
  { x with booking := none, state := state, reason := reason, revision := x.revision + 1 }

theorem removeBooking_eq (s : State) (e : BreakEntry) (state : BreakState) (reason : Option FallbackReason) :
    s.removeBooking e state reason = s.settleBreak e (·.cleared state reason) e.pinned .bookingCleared .none := rfl

theorem pinned_clips {e : BreakEntry} (h : e.state = .booked ∨ e.state = .armed ∨ e.state = .active) : e.pinned = e.clips := by
  unfold BreakEntry.pinned
  rcases h with h | h | h <;> rw [h]

section
variable {s : State} {n : Word16} {e : BreakEntry} (h : s.findBreak? n = some e)
include h

/-- A booking removed from an entry that holds pins. -/
theorem removeBooking_found (hs : e.state = .booked ∨ e.state = .armed ∨ e.state = .active) (state : BreakState)
    (reason : Option FallbackReason) :
    (s.removeBooking e state reason).findBreak? n = some (e.cleared state reason)
      ∧ (s.removeBooking e state reason).csc = (s.dropPins e.clips).csc
      ∧ RaisedBoth s (s.removeBooking e state reason) [noticeAt s .bookingCleared (.breakNumber n) .none] := by
  rw [removeBooking_eq, ← pinned_clips hs]
  exact settleBreak_found h fun _ => rfl

/-- An ARMED entry that loses its booking fails with it (R102, R145). -/
theorem removeBooking_fallback (hs : e.state = .armed) (reason : Option FallbackReason) (w : FallbackReason) {t : State}
    (ht : t = (s.removeBooking e .fallback reason).raiseBoth .breakFallback (.breakNumber n) (.reason w)) :
    t.findBreak? n = some (e.cleared .fallback reason)
      ∧ t.csc = (s.dropPins e.clips).csc
      ∧ RaisedBoth s t [noticeAt s .bookingCleared (.breakNumber n) .none,
          noticeAt s .breakFallback (.breakNumber n) (.reason w)] := by
  subst ht
  obtain ⟨found, csc, cleared⟩ := removeBooking_found h (.inr (.inl hs)) .fallback reason
  have fell := raiseBoth_raised (s.removeBooking e .fallback reason) .breakFallback (.breakNumber n) (.reason w)
  rw [noticeAt_congr (removeBooking_frame s e .fallback reason .tbu (by decide))] at fell
  exact ⟨(State.findBreak_congr (State.raiseBoth_bpu _ _ _ _) n).trans found, (State.raiseBoth_csc _ _ _ _).trans csc,
    fun q => (cleared q).append (fell q)⟩

end

theorem noticeAt_commanded (s : State) (r : Role) (k : CommandKind) (args : List Byte) :
    noticeAt (s.commanded r k args) = noticeAt s := rfl

section
variable {s : State} {n : Word16}

theorem ownClearBooking_notFound (h : s.findBreak? n = none) : ownClearBooking n s = { state := s, code := .notFound } := by
  unfold ownClearBooking
  rw [h]

section
variable {e : BreakEntry} (h : s.findBreak? n = some e)
include h

theorem ownClearBooking_booked (hs : e.state = .booked) :
    ownClearBooking n s = { state := s.removeBooking e .announced e.reason, code := .done } := by
  unfold ownClearBooking
  rw [h]
  exact if_pos hs

theorem ownClearBooking_armed (hs : e.state = .armed) : ownClearBooking n s =
    { state := (s.removeBooking e .fallback (some .noBooking)).raiseBoth .breakFallback (.breakNumber n) (.reason .noBooking)
      code := .done } := by
  unfold ownClearBooking
  rw [h]
  exact (if_neg (by simp [hs])).trans (if_pos hs)

theorem ownClearBooking_refused (hb : e.state ≠ .booked) (ha : e.state ≠ .armed) :
    ownClearBooking n s = { state := s, code := .state } := by
  unfold ownClearBooking
  rw [h]
  exact (if_neg hb).trans (if_neg ha)

end

/-- What a clearing leaves alone: the other entries, the staging records, the counters, and of the ports all but notices. -/
structure ClearKept (s t : State) (n : Word16) : Prop where
  others : ∀ m, m ≠ n → t.findBreak? m = s.findBreak? m
  staging : t.bpu.staging = s.bpu.staging
  counters : t.bpu.counters = s.bpu.counters
  notifies : OnlyNotifies s t

theorem removeBooking_kept {e : BreakEntry} (h : s.findBreak? n = some e) (state : BreakState) (reason : Option FallbackReason) :
    ClearKept s (s.removeBooking e state reason) n := by
  have bpu : (s.removeBooking e state reason).bpu = (s.updateBreak e.number (·.cleared state reason)).bpu := settleBreak_bpu_eq
  exact ⟨fun m hm => settleBreak_other h hm fun _ => rfl, (congrArg Bpu.staging bpu).trans rfl,
    (congrArg Bpu.counters bpu).trans rfl, settleBreak_onlyNotifies s e _ _ _ _⟩

theorem ownClearBooking_kept : ClearKept s (ownClearBooking n s).state n := by
  unfold ownClearBooking
  split
  · exact ⟨fun _ _ => rfl, rfl, rfl, .refl s⟩
  · next e h =>
    split
    · exact removeBooking_kept h _ _
    · split
      · obtain ⟨others, staging, counters, notifies⟩ := removeBooking_kept h .fallback (some .noBooking)
        exact ⟨others, staging, counters, notifies.trans (raiseBoth_onlyNotifies _ _ _ _)⟩
      · exact ⟨fun _ _ => rfl, rfl, rfl, .refl s⟩

end

/-- Settles O37: the right first (`takeCommand_siteOnly`), then the outcome by the entry's state. -/
theorem clearBookingByState : Obligations.ClearBookingByState := by
  intro s n
  refine ⟨fun hl => ?_, fun hl => ?_⟩
  · have hexec : exec (.clearBooking .insertion n) s = .next (s.refuseRights .insertion 8) :=
      takeCommand_siteOnly hl rfl _ _
    exact ⟨_, hexec, refuseRights_recorded s _ _, refuseRights_frame s _ _⟩
  · have hexec : exec (.clearBooking .site n) s =
        .next ((ownClearBooking n (s.commanded .site .clearBooking (toBytes 2 n.toNat))).recorded .site .clearBooking) :=
      ifRunning_takeCommand hl (.inr rfl)
    have frame : OnlyChanges [.mgp, .bpu, .csc] s _ := exec_frame hexec
    obtain ⟨others, staging, counters, notifies⟩ :=
      ownClearBooking_kept (s := s.commanded .site .clearBooking (toBytes 2 n.toNat)) (n := n)
    have answered : Answered s ((ownClearBooking n (s.commanded .site .clearBooking (toBytes 2 n.toNat))).recorded .site
      .clearBooking) .site .clearBooking (toBytes 2 n.toNat) _ _ := notifies.answered
    refine ⟨_, hexec, fun hn => ?_, fun e he => ⟨fun hs => ?_, fun hs => ?_, fun hb ha => ?_⟩, others, staging, counters,
      frame.widen, notifies.commanded_answersAndNotifies⟩
    · rw [ownClearBooking_notFound (s := s.commanded _ _ _) hn] at answered ⊢
      exact ⟨rfl, answered⟩
    · rw [ownClearBooking_booked (s := s.commanded _ _ _) he hs] at answered ⊢
      obtain ⟨found, csc, raised⟩ := removeBooking_found (s := s.commanded _ _ _) he (.inl hs) .announced e.reason
      rw [Taken.recorded_findBreak, Taken.recorded_csc]
      exact ⟨found, csc.trans (State.dropPins_csc_congr _ rfl), answered, fun q => (raised q).commanded⟩
    · rw [ownClearBooking_armed (s := s.commanded _ _ _) he hs] at answered ⊢
      obtain ⟨found, csc, raised⟩ :=
        removeBooking_fallback (s := s.commanded .site .clearBooking (toBytes 2 n.toNat)) he hs (some .noBooking) .noBooking rfl
      rw [noticeAt_commanded] at raised
      rw [Taken.recorded_findBreak, Taken.recorded_csc]
      exact ⟨found, csc.trans (State.dropPins_csc_congr _ rfl), answered, fun q => (raised q).commanded⟩
    · rw [ownClearBooking_refused (s := s.commanded _ _ _) he hb ha] at answered ⊢
      exact ⟨rfl, rfl, answered⟩

/-! ## ARM_TIME_REACHED (R104, R138, R139, R145) -/

section
variable {s : State} {n : Word16} {e : BreakEntry} (h : s.findBreak? n = some e)
include h

theorem reachArm_due (hs : e.state = .announced ∨ e.state = .booked) (ht : s.tbu.time.before e.arm = false) :
    s.reachArm n = s.evaluate n := by
  have due : s.armDue e = true := by
    unfold State.armDue SiteTime.reached
    rw [ht, (BreakState.awaitsArming_iff _).2 hs]
    rfl
  unfold State.reachArm
  rw [h]
  exact if_pos due

theorem evaluate_failed {why : FallbackReason} (hw : fallbackReason? s e = some why) : s.evaluate n =
    s.settleBreak e (fun x => { x with state := .fallback, reason := some why }) e.pinned .breakFallback (.reason why) := by
  unfold State.evaluate
  rw [h]
  dsimp only
  rw [hw]
  rfl

theorem evaluate_passed (hw : fallbackReason? s e = none) :
    s.evaluate n = s.settleBreak e (fun x => { x with state := .armed }) [] .breakArmed .none := by
  unfold State.evaluate
  rw [h]
  dsimp only
  rw [hw]
  rfl

theorem evaluate_other {m : Word16} (hm : m ≠ n) : (s.evaluate n).findBreak? m = s.findBreak? m := by
  cases hw : fallbackReason? s e with
  | some why =>
    rw [evaluate_failed h hw]
    exact settleBreak_other h hm fun _ => rfl
  | none =>
    rw [evaluate_passed h hw]
    exact settleBreak_other h hm fun _ => rfl

end

/-! ## END_REACHED (R105) -/

section
variable {s : State} {n : Word16} {e : BreakEntry}

theorem endActs_iff (e : BreakEntry) : e.endActs = true ↔ e.state = .armed ∨ (e.state = .fallback ∧ e.windowOpen = false) := by
  simp [BreakEntry.endActs]

variable (h : s.findBreak? n = some e)
include h

theorem reachEnd_due (ht : s.tbu.time.before e.finish = false)
    (hs : e.state = .armed ∨ (e.state = .fallback ∧ e.windowOpen = false)) : s.reachEnd n = s.endBreak e := by
  have due : s.endDue e = true := by
    unfold State.endDue SiteTime.reached
    rw [ht, (endActs_iff e).2 hs]
    rfl
  unfold State.reachEnd
  rw [h]
  exact if_pos due

theorem reachEnd_idle (hs : ¬ (e.state = .armed ∨ (e.state = .fallback ∧ e.windowOpen = false))) : s.reachEnd n = s := by
  have idle : ¬ s.endDue e = true := fun due => by
    unfold State.endDue at due
    exact hs ((endActs_iff e).1 (Bool.and_eq_true_iff.1 due).1)
  unfold State.reachEnd
  rw [h]
  exact if_neg idle

end

/-- The entry finished with an outcome (R91, R105, R107). -/
def BreakEntry.finishedAs (y : BreakEntry) (x : BreakState) (o : BreakOutcome) : BreakEntry :=
  { y with state := x, outcome := some o, closure := none, windowOpen := false }

theorem finishBreak_bpu (s : State) (e : BreakEntry) (x : BreakState) (o : BreakOutcome) :
    (s.finishBreak e x o).bpu = (s.updateBreak e.number (·.finishedAs x o)).bpu := settleBreak_bpu_eq (f := (·.finishedAs x o))

section
variable {s : State} {n : Word16} {e : BreakEntry} (h : s.findBreak? n = some e)
include h

/-- An entry finished in the table: its fields, its pins and its notice. -/
theorem finishBreak_found (x : BreakState) (o : BreakOutcome) :
    (s.finishBreak e x o).findBreak? n = some (e.finishedAs x o)
      ∧ (s.finishBreak e x o).csc = (s.dropPins e.pinned).csc
      ∧ RaisedBoth s (s.finishBreak e x o) [noticeAt s .breakEnded (.breakNumber n) (.ended o)] :=
  settleBreak_found (f := (·.finishedAs x o)) h fun _ => rfl

theorem finishBreak_other {m : Word16} (hm : m ≠ n) (x : BreakState) (o : BreakOutcome) :
    (s.finishBreak e x o).findBreak? m = s.findBreak? m := settleBreak_other (f := (·.finishedAs x o)) h hm fun _ => rfl

end

theorem endBreak_other {s : State} {n m : Word16} {e : BreakEntry} (h : s.findBreak? n = some e) (hm : m ≠ n) :
    (s.endBreak e).findBreak? m = s.findBreak? m := by
  unfold State.endBreak
  split
  · exact finishBreak_other (s := s.countBpu _) h hm _ _
  · exact finishBreak_other h hm _ _

theorem reachEnd_other (s : State) {n m : Word16} (hm : m ≠ n) : (s.reachEnd n).findBreak? m = s.findBreak? m := by
  unfold State.reachEnd
  split
  · next e h =>
    split
    · exact endBreak_other h hm
    · rfl
  · rfl

/-- Settles O32: an entry at its arm time fails or passes (`evaluate_failed`, `evaluate_passed`), and one at its end finishes or
is left alone (`reachEnd_due`, `reachEnd_idle`). -/
theorem armTimeAndEnd : Obligations.ArmTimeAndEnd := by
  intro s n e hr he
  refine ⟨fun hs ht => ?_, fun ht => ?_⟩
  · have hexec := exec_armTimeReached hr n
    rw [reachArm_due he hs ht] at hexec
    refine ⟨_, hexec, fun why hw => ?_, fun hb hc hp hm hk hrun hf => ?_, fun m hm => evaluate_other he hm, exec_frame hexec,
      evaluate_onlyNotifies s n⟩
    · have first : fallbackReason? s e = some why := congrArg (Option.map Prod.fst) hw
      rw [evaluate_failed he first]
      exact settleBreak_found he fun _ => rfl
    · have none : fallbackReason? s e = none := by
        simp [fallbackReason?, fallbackTests, hc, hp, hm, hrun, hf, Option.isSome_iff_ne_none.1 hb,
          Option.isSome_iff_ne_none.1 hk]
      rw [evaluate_passed he none]
      exact settleBreak_found he fun _ => rfl
  · have hexec := exec_endReached hr n
    refine ⟨_, hexec, fun hs => ?_, fun hs hw => ?_, fun hn => ?_, fun m hm => reachEnd_other s hm, exec_frame hexec,
      reachEnd_onlyNotifies s n⟩
    · have ended : s.endBreak e =
          (s.countBpu fun c => { c with missedBreaks := bump c.missedBreaks }).finishBreak e .ended .missed := if_pos hs
      rw [reachEnd_due he ht (.inl hs), ended]
      obtain ⟨found, csc, raised⟩ :=
        finishBreak_found (s := s.countBpu fun c => { c with missedBreaks := bump c.missedBreaks }) he .ended .missed
      rw [pinned_clips (.inr (.inl hs))] at csc
      exact ⟨found, (congrArg Bpu.counters (finishBreak_bpu _ e _ _)).trans rfl,
        csc.trans (State.dropPins_csc_congr _ rfl), raised⟩
    · have ended : s.endBreak e = s.finishBreak e .ended e.policy.outcome := if_neg (by simp [hs])
      have unpinned : e.pinned = [] := by simp [BreakEntry.pinned, hs]
      have outcome : e.policy.outcome = match e.policy with | .carry => .fallbackCarry | .blank => .fallbackBlank := by
        cases e.policy <;> rfl
      rw [reachEnd_due he ht (.inr ⟨hs, hw⟩), ended]
      obtain ⟨found, csc, -⟩ := finishBreak_found he .ended e.policy.outcome
      rw [unpinned] at csc
      rw [outcome] at found
      exact ⟨found, (congrArg Bpu.counters (finishBreak_bpu s e _ _)).trans rfl, csc⟩
    · exact reachEnd_idle he (not_or.2 hn)

end Machine
end Sys2Proof
end

section
/-! PROOFS. CONFIRM (R97 to R99, R103). -/

namespace Sys2Proof
namespace Machine

/-! ## The checks in order (R97) -/

section
variable {s : State} {r : Role}

theorem ownConfirm_unheld (h : (s.bpu.staging.get r).reservation = .none) : ownConfirm r s = refuseConfirm s .none [] := by
  unfold ownConfirm
  rw [h]

theorem ownConfirm_orphaned {n : Word16} (h : (s.bpu.staging.get r).reservation = .orphaned n) :
    ownConfirm r s = refuseConfirm s .notFound [] := by
  unfold ownConfirm
  rw [h]

section
variable {n rev : Word16} (h : (s.bpu.staging.get r).reservation = .held n rev)
include h

theorem ownConfirm_notFound (he : s.findBreak? n = none) : ownConfirm r s = refuseConfirm s .notFound [] := by
  unfold ownConfirm
  rw [h]
  dsimp only
  rw [he]

theorem ownConfirm_stale {e : BreakEntry} (he : s.findBreak? n = some e) (hr : e.revision ≠ rev) :
    ownConfirm r s = refuseConfirm s .stale [] := by
  unfold ownConfirm
  rw [h]
  dsimp only
  rw [he]
  exact if_pos hr

end

section
variable {n : Word16} {e : BreakEntry} (h : (s.bpu.staging.get r).reservation = .held n e.revision) (he : s.findBreak? n = some e)
include h he

theorem ownConfirm_closed (ha : e.state ≠ .announced) (hb : e.state ≠ .booked) :
    ownConfirm r s = refuseConfirm s .closed [] := by
  unfold ownConfirm
  rw [h]
  dsimp only
  rw [he]
  exact (if_neg (not_not.2 rfl)).trans (if_pos (BreakState.awaitsArming_of_ne ha hb))

variable (hs : e.state = .announced ∨ e.state = .booked)
include hs

theorem ownConfirm_invalid {p c : Nat}
    (hm : mergeFault? s.csc.directory e.service (s.bpu.staging.get r) e.booking = some (p, c)) :
    ownConfirm r s = refuseConfirm s .invalid [BitVec.ofNat 8 p, BitVec.ofNat 8 c] := by
  unfold ownConfirm
  rw [h]
  dsimp only
  rw [he]
  refine (if_neg (not_not.2 rfl)).trans ((if_neg (by simp [(BreakState.awaitsArming_iff _).2 hs])).trans ?_)
  rw [hm]

theorem ownConfirm_booked (hm : mergeFault? s.csc.directory e.service (s.bpu.staging.get r) e.booking = none) :
    ownConfirm r s = { state := s.installBooking r e, code := .done, value := toBytes 2 (e.revision + 1).toNat } := by
  unfold ownConfirm
  rw [h]
  dsimp only
  rw [he]
  refine (if_neg (not_not.2 rfl)).trans ((if_neg (by simp [(BreakState.awaitsArming_iff _).2 hs])).trans ?_)
  rw [hm]

end
end

/-! ## The five steps of a confirm (R98, R99, R103) -/

/-- The booking that a role's staging record makes of an entry's (R98, R136). -/
def State.mergedBooking (s : State) (r : Role) (e : BreakEntry) : Booking :=
  { clips := mergedClips (s.bpu.staging.get r) e.booking
    reference := mergedReference (s.bpu.staging.get r) e.booking
    by_ := r
    combined := combinedFingerprint s.csc.directory (mergedClips (s.bpu.staging.get r) e.booking) }

/-- The entry with a booking and its new revision (R99). -/
def BreakEntry.bookedAs (x : BreakEntry) (b : Booking) (revision : Word16) : BreakEntry :=
  { x with booking := some b, revision := revision, state := .booked }

/-- The other role's reservation is held on the entry (R99). -/
def State.breaksOther (s : State) (r : Role) (e : BreakEntry) : Bool :=
  (s.bpu.staging.get (otherRole r)).reservation.holds e.number

/-- The entry with its new booking and the confirmer's staging record cleared, before the other role's reservation is looked at
(R99). -/
def State.bookingPlaced (s : State) (r : Role) (e : BreakEntry) : State :=
  ((((s.addPins (s.mergedBooking r e).clips).dropPins e.pinned).updateBreak e.number
    (·.bookedAs (s.mergedBooking r e) (e.revision + 1))).updateStaging r fun _ => {})

/-- The break plan and the pins as a confirm leaves them (R99). -/
def State.bookingInstalled (s : State) (r : Role) (e : BreakEntry) : State :=
  (if s.breaksOther r e then
      (s.bookingPlaced r e).updateStaging (otherRole r) (fun t => { t with reservation := .none })
    else s.bookingPlaced r e).countBpu (fun c => { c with bookingsConfirmed := bump c.bookingsConfirmed })

section
variable (s : State) (r : Role) (e : BreakEntry)

/-- A confirm is its changes and then its notices. -/
theorem installBooking_eq : s.installBooking r e =
    if s.breaksOther r e then
      ((s.bookingInstalled r e).raiseBoth .bookingConfirmed (.breakNumber e.number)
        (.booking (s.mergedBooking r e).reference (e.revision + 1))).raiseTo (otherRole r) .reservationBroken
          (.breakNumber e.number) .none
    else (s.bookingInstalled r e).raiseBoth .bookingConfirmed (.breakNumber e.number)
      (.booking (s.mergedBooking r e).reference (e.revision + 1)) := rfl

theorem bookingPlaced_frame : OnlyChanges [.bpu, .csc] s (s.bookingPlaced r e) :=
  (((addPins_frame s _).seq (dropPins_frame _ _) (c := [.csc])).seq (updateBreak_frame _ _ _) (c := [.bpu, .csc])).seq
    (updateStaging_frame _ r _)

theorem bookingInstalled_frame : OnlyChanges [.bpu, .csc] s (s.bookingInstalled r e) := by
  refine OnlyChanges.seq (a := [.bpu, .csc]) (.ite ?_ (bookingPlaced_frame s r e)) (countBpu_frame _ _)
  exact (bookingPlaced_frame s r e).seq (updateStaging_frame _ _ _)

theorem bookingInstalled_csc :
    (s.bookingInstalled r e).csc = ((s.addPins (s.mergedBooking r e).clips).dropPins e.pinned).csc := by
  unfold State.bookingInstalled
  split <;> rfl

theorem bookingPlaced_bpu : (s.bookingPlaced r e).bpu = { s.bpu with
    table := s.bpu.table.map fun x => if x.number = e.number
      then x.bookedAs (s.mergedBooking r e) (e.revision + 1) else x
    staging := s.bpu.staging.set r {} } := by
  have pins : ((s.addPins (s.mergedBooking r e).clips).dropPins e.pinned).bpu = s.bpu :=
    (State.dropPins_bpu _ _).trans (State.addPins_bpu _ _)
  unfold State.bookingPlaced State.updateStaging State.updateBreak
  simp only [State.setBpu_bpu, pins]

/-- The other role's reservation on the entry is broken (R99). -/
theorem bookingInstalled_bpu : (s.bookingInstalled r e).bpu = { (s.bookingPlaced r e).bpu with
    staging := if s.breaksOther r e
      then (s.bpu.staging.set r {}).set (otherRole r) { s.bpu.staging.get (otherRole r) with reservation := .none }
      else s.bpu.staging.set r {}
    counters := { s.bpu.counters with bookingsConfirmed := bump s.bpu.counters.bookingsConfirmed } } := by
  have staging : (s.bookingPlaced r e).bpu.staging = s.bpu.staging.set r {} := congrArg Bpu.staging (bookingPlaced_bpu s r e)
  have counters : (s.bookingPlaced r e).bpu.counters = s.bpu.counters :=
    (congrArg Bpu.counters (bookingPlaced_bpu s r e)).trans rfl
  unfold State.bookingInstalled State.countBpu
  split
  · simp only [State.setBpu_bpu, State.updateStaging, staging, counters, PerRole.get_set_other]
  · simp only [State.setBpu_bpu, staging, counters]

theorem bookingInstalled_own : (s.bookingInstalled r e).bpu.staging.get r = {} := by
  rw [bookingInstalled_bpu]
  dsimp only
  split
  · rw [PerRole.get_set_of_ne _ (show r ≠ otherRole r by cases r <;> decide), PerRole.get_set]
  · exact PerRole.get_set _ _ _

theorem bookingInstalled_other : (s.bookingInstalled r e).bpu.staging.get (otherRole r) =
    if s.breaksOther r e then { s.bpu.staging.get (otherRole r) with reservation := .none }
    else s.bpu.staging.get (otherRole r) := by
  rw [bookingInstalled_bpu]
  dsimp only
  split
  · exact PerRole.get_set _ _ _
  · exact PerRole.get_set_other _ _ _

theorem bookingInstalled_findBreak (m : Word16) : (s.bookingInstalled r e).findBreak? m = (s.findBreak? m).map fun x =>
    if m = e.number then x.bookedAs (s.mergedBooking r e) (e.revision + 1) else x := by
  have found := State.findBreak_updateBreak s e.number m
    (·.bookedAs (s.mergedBooking r e) (e.revision + 1)) fun _ => rfl
  rw [← found]
  unfold State.findBreak?
  rw [bookingInstalled_bpu, bookingPlaced_bpu]
  rfl

/-! ## The notices of a confirm (R99) -/

theorem installBooking_bpu : (s.installBooking r e).bpu = (s.bookingInstalled r e).bpu := by
  rw [installBooking_eq]
  split <;> rfl

theorem installBooking_csc : (s.installBooking r e).csc = (s.bookingInstalled r e).csc := by
  rw [installBooking_eq]
  split <;> rfl

/-- What a confirm makes of the entry, of the staging records and of the pins (R99, R103). -/
theorem installBooking_effect (he : s.findBreak? e.number = some e) :
    (s.installBooking r e).findBreak? e.number =
        some (e.bookedAs (s.mergedBooking r e) (e.revision + 1))
      ∧ (∀ m, m ≠ e.number → (s.installBooking r e).findBreak? m = s.findBreak? m)
      ∧ (s.installBooking r e).bpu.staging.get r = {}
      ∧ (s.breaksOther r e = true → (s.installBooking r e).bpu.staging.get (otherRole r) =
          { s.bpu.staging.get (otherRole r) with reservation := .none })
      ∧ (s.breaksOther r e = false → (s.installBooking r e).bpu.staging.get (otherRole r) = s.bpu.staging.get (otherRole r))
      ∧ (s.installBooking r e).bpu.counters =
          { s.bpu.counters with bookingsConfirmed := bump s.bpu.counters.bookingsConfirmed }
      ∧ (s.installBooking r e).csc = ((s.addPins (s.mergedBooking r e).clips).dropPins e.pinned).csc := by
  have bpu := installBooking_bpu s r e
  have found (m : Word16) := (State.findBreak_congr bpu m).trans (bookingInstalled_findBreak s r e m)
  rw [bpu, bookingInstalled_own, bookingInstalled_other]
  refine ⟨?_, fun m hm => ?_, rfl, fun h => if_pos h, fun h => if_neg (by simp [h]), ?_,
    (installBooking_csc s r e).trans (bookingInstalled_csc s r e)⟩
  · rw [found, he, Option.map_some, if_pos rfl]
  · rw [found]
    simp [hm]
  · rw [bookingInstalled_bpu]

theorem installBooking_onlyNotifies : OnlyNotifies s (s.installBooking r e) := by
  have same : OnlyNotifies s (s.bookingInstalled r e) := .of_mgp (bookingInstalled_frame s r e .mgp (by decide))
  rw [installBooking_eq]
  split
  · exact (same.trans (raiseBoth_onlyNotifies _ _ _ _)).trans (raiseTo_onlyNotifies _ _ _ _ _)
  · exact same.trans (raiseBoth_onlyNotifies _ _ _ _)

theorem bookingInstalled_raised :
    RaisedBoth s ((s.bookingInstalled r e).raiseBoth .bookingConfirmed (.breakNumber e.number)
        (.booking (s.mergedBooking r e).reference (e.revision + 1)))
      [noticeAt s .bookingConfirmed (.breakNumber e.number) (.booking (s.mergedBooking r e).reference (e.revision + 1))] := by
  intro q
  have raised := raiseBoth_raised (s.bookingInstalled r e) .bookingConfirmed (.breakNumber e.number)
    (.booking (s.mergedBooking r e).reference (e.revision + 1)) q
  rw [noticeAt_congr (bookingInstalled_frame s r e .tbu (by decide))] at raised
  exact raised.of_mgp (bookingInstalled_frame s r e .mgp (by decide))

theorem installBooking_raised_own : Raised s (s.installBooking r e) r
    [noticeAt s .bookingConfirmed (.breakNumber e.number) (.booking (s.mergedBooking r e).reference (e.revision + 1))] := by
  have raised := bookingInstalled_raised s r e r
  rw [installBooking_eq]
  split
  · unfold Raised at raised ⊢
    rw [raiseTo_port_ne _ (show r ≠ otherRole r by cases r <;> decide), raised]
  · exact raised

theorem installBooking_raised_other : Raised s (s.installBooking r e) (otherRole r)
    (noticeAt s .bookingConfirmed (.breakNumber e.number) (.booking (s.mergedBooking r e).reference (e.revision + 1)) ::
      if s.breaksOther r e then [noticeAt s .reservationBroken (.breakNumber e.number) .none] else []) := by
  have raised := bookingInstalled_raised s r e (otherRole r)
  rw [installBooking_eq]
  split
  · have broken := raiseTo_raised ((s.bookingInstalled r e).raiseBoth .bookingConfirmed (.breakNumber e.number)
      (.booking (s.mergedBooking r e).reference (e.revision + 1))) (otherRole r) .reservationBroken (.breakNumber e.number) .none
    rw [noticeAt_congr ((State.raiseBoth_tbu _ _ _ _).trans (bookingInstalled_frame s r e .tbu (by decide)))] at broken
    exact raised.append broken
  · exact raised

end

/-! ## The command -/

theorem ownConfirm_onlyNotifies (r : Role) (s : State) : OnlyNotifies s (ownConfirm r s).state := by
  have refused (code : ResultCode) (value : List Byte) : OnlyNotifies s (refuseConfirm s code value).state := .of_mgp rfl
  unfold ownConfirm
  split
  · exact refused _ _
  · exact refused _ _
  · split
    · exact refused _ _
    · split
      · exact refused _ _
      · split
        · exact refused _ _
        · split
          · exact refused _ _
          · exact installBooking_onlyNotifies s r _

/-- Settles O34: the refusals by the first check that fails, in the order of R97; a confirm that passes them all is
`State.installBooking`, taken apart into its changes and its notices. -/
theorem confirmBooksTheEntry : Obligations.ConfirmBooksTheEntry := by
  rintro s r st hl rfl
  have hexec : exec (.confirm r) s = .next ((ownConfirm r (s.commanded r .confirm [])).recorded r .confirm) :=
    ifRunning_takeCommand hl (.inl rfl)
  have frame : OnlyChanges [.mgp, .bpu, .csc] s _ := exec_frame hexec
  have notifies := ownConfirm_onlyNotifies r (s.commanded r .confirm [])
  have answered : Answered s ((ownConfirm r (s.commanded r .confirm [])).recorded r .confirm) r .confirm [] _ _ :=
    notifies.answered
  refine ⟨_, hexec, fun code value refusal => ?_, fun n e clips held he hs hm hclips => ?_, frame.widen,
    notifies.commanded_answersAndNotifies⟩
  · have refused : ownConfirm r (s.commanded r .confirm []) = refuseConfirm (s.commanded r .confirm []) code value := by
      rcases refusal with ⟨h, rfl, rfl⟩ | ⟨⟨n, h⟩, rfl, rfl⟩ | ⟨n, rev, h, he, rfl, rfl⟩ | ⟨n, rev, e, h, he, hr, rfl, rfl⟩
        | ⟨n, e, h, he, ha, hb, rfl, rfl⟩ | ⟨n, e, p, c, h, he, hs, hm, rfl, rfl⟩
      · exact ownConfirm_unheld (s := s.commanded _ _ _) h
      · exact ownConfirm_orphaned h
      · exact ownConfirm_notFound h he
      · exact ownConfirm_stale h he hr
      · exact ownConfirm_closed h he ha hb
      · exact ownConfirm_invalid (s := s.commanded _ _ _) h he hs hm
    rw [refused] at answered ⊢
    exact ⟨rfl, rfl, answered⟩
  · subst hclips
    obtain rfl := State.findBreak_number he
    rw [ownConfirm_booked (s := s.commanded _ _ _) held he hs hm] at answered ⊢
    obtain ⟨found, others, own, broken, kept, counters, csc⟩ := installBooking_effect (s.commanded r .confirm []) r e he
    have raised := installBooking_raised_own (s.commanded r .confirm []) r e
    have raisedOther := installBooking_raised_other (s.commanded r .confirm []) r e
    rw [noticeAt_commanded] at raised raisedOther
    rw [Taken.recorded_bpu, Taken.recorded_csc, Taken.recorded_findBreak]
    exact ⟨found, others, own, broken, kept, counters,
      csc.trans (State.dropPins_csc_congr _ (State.addPins_csc_congr _ rfl)), answered, raised.commanded, raisedOther.commanded⟩

end Machine
end Sys2Proof
end

section
/-! PROOFS. STAGING_WRITE (R95, R205). -/

namespace Sys2Proof
namespace Machine

/-! ## Where a field's bytes stand (R205) -/

theorem stagingOffset_self (c : Nat) : stagingOffset c c = 0 := by
  unfold stagingOffset
  split_ifs <;> omega

/-- The bytes of a field stand behind those of the fields before it. -/
theorem stagingOffset_step {c k : Nat} (h : c < k) : stagingOffset c k = stagingWidth c + stagingOffset (c + 1) k := by
  unfold stagingOffset stagingWidth
  rcases c with _ | _ | c
  · obtain rfl | two : k = 1 ∨ 1 < k := by omega
    · rfl
    · simp [h, two]
      omega
  · simp [h]
  · simp
    omega

/-! ## The fields that a write takes (R95) -/

theorem put_positions_length (st : Staging) (c : Nat) (b : List Byte) :
    (st.put c b).positions.length = st.positions.length := by
  unfold Staging.put
  split
  · rfl
  · split
    · rfl
    · exact List.length_set

theorem put_reservation (st : Staging) (c : Nat) (b : List Byte) : (st.put c b).reservation = st.reservation := by
  unfold Staging.put
  split
  · rfl
  · split <;> rfl

theorem takeFields_reservation (codes : List Nat) : ∀ (st : Staging) (bytes : List Byte),
    (st.takeFields codes bytes).reservation = st.reservation := by
  induction codes with
  | nil => exact fun _ _ => rfl
  | cons c codes ih =>
    intro st bytes
    rw [Staging.takeFields]
    split
    · exact (ih _ _).trans (put_reservation st c _)
    · rfl

/-- A part `g` of the staging record that field `k` alone decides, with the value `val` of the field's bytes, takes that value
where the write holds them all, and stays otherwise. -/
theorem takeFields_part {α : Type} {g : Staging → α} {k : Nat} {val : List Byte → α}
    (others : ∀ (st : Staging) c b, c ≠ k → g (st.put c b) = g st)
    (own : ∀ (st : Staging) b, st.positions.length = 8 → g (st.put k b) = val b) (m : Nat) :
    ∀ (c : Nat) (st : Staging) (bytes : List Byte), st.positions.length = 8 → g (st.takeFields (List.range' c m) bytes) =
      if c ≤ k ∧ k < c + m ∧ stagingOffset c k + stagingWidth k ≤ bytes.length
        then val ((bytes.drop (stagingOffset c k)).take (stagingWidth k)) else g st := by
  induction m with
  | zero => intro c st bytes _; exact (if_neg fun h => by omega).symm
  | succ m ih =>
    intro c st bytes eight
    rw [List.range'_succ, Staging.takeFields]
    by_cases whole : stagingWidth c ≤ bytes.length
    · rw [if_pos whole, ih (c + 1) _ _ ((put_positions_length st c _).trans eight)]
      by_cases hk : c = k
      · subst hk
        rw [if_neg (by omega), own st _ eight, stagingOffset_self, if_pos (by omega)]
        rfl
      · rw [others st c _ hk, List.drop_drop, List.length_drop]
        by_cases before : c < k
        · rw [stagingOffset_step before]
          exact if_congr (by omega) rfl rfl
        · rw [if_neg (by omega), if_neg (by omega)]
    · rw [if_neg whole]
      refine (if_neg fun ⟨from_, _, fits⟩ => ?_).symm
      rcases Nat.eq_or_lt_of_le from_ with rfl | before
      · omega
      · rw [stagingOffset_step before] at fits
        omega

section
variable {st : Staging} {f : Nat} {data : List Byte} (eight : st.positions.length = 8) (hf : f ≤ 9)
include eight hf

theorem takeFields_of_part {α : Type} {g : Staging → α} {k : Nat} {val : List Byte → α} (hk : k ≤ 9)
    (others : ∀ (st : Staging) c b, c ≠ k → g (st.put c b) = g st)
    (own : ∀ (st : Staging) b, st.positions.length = 8 → g (st.put k b) = val b) :
    g (st.takeFields ((List.range 10).drop f) data) =
      if f ≤ k ∧ stagingOffset f k + stagingWidth k ≤ data.length
        then val ((data.drop (stagingOffset f k)).take (stagingWidth k)) else g st := by
  have codes : (List.range 10).drop f = List.range' f (10 - f) := by
    rw [List.range_eq_range', List.drop_range', Nat.zero_add, Nat.mul_one]
  rw [codes, takeFields_part others own (10 - f) f st data eight]
  exact if_congr (by omega) rfl rfl

theorem takeFields_reference : (st.takeFields ((List.range 10).drop f) data).reference =
    if f = 0 ∧ 4 ≤ data.length then ⟨BitVec.ofNat 32 (ofBytes (data.take 4)), true⟩ else st.reference := by
  rw [takeFields_of_part (g := Staging.reference) (k := 0) (val := fun b => ⟨BitVec.ofNat 32 (ofBytes b), true⟩) eight hf
    (by omega) (fun st c b hc => ?_) fun _ _ _ => rfl]
  · by_cases h : f = 0
    · subst h
      exact if_congr (by simp [stagingOffset, stagingWidth]) rfl rfl
    · rw [if_neg (by omega), if_neg (by omega)]
  · unfold Staging.put
    rw [if_neg hc]
    split <;> rfl

theorem takeFields_length : (st.takeFields ((List.range 10).drop f) data).length =
    if f ≤ 1 ∧ stagingOffset f 1 + 1 ≤ data.length
      then ⟨BitVec.ofNat 8 (ofBytes ((data.drop (stagingOffset f 1)).take 1)), true⟩ else st.length := by
  refine takeFields_of_part (g := Staging.length) (k := 1) (val := fun b => ⟨BitVec.ofNat 8 (ofBytes b), true⟩) eight hf
    (by omega) (fun st c b hc => ?_) fun _ _ _ => rfl
  unfold Staging.put
  rw [if_neg hc]
  split <;> rfl

theorem takeFields_position {i : Nat} (hi : i < 8) : (st.takeFields ((List.range 10).drop f) data).positions[i]? =
    if f ≤ i + 2 ∧ stagingOffset f (i + 2) + 4 ≤ data.length
      then some ⟨BitVec.ofNat 32 (ofBytes ((data.drop (stagingOffset f (i + 2))).take 4)), true⟩ else st.positions[i]? := by
  have width : stagingWidth (i + 2) = 4 := if_neg (by omega)
  have part := takeFields_of_part (data := data) (g := fun st => st.positions[i]?) (k := i + 2)
    (val := fun b => some ⟨BitVec.ofNat 32 (ofBytes b), true⟩) eight hf (by omega) (fun st c b hc => ?_) fun st b eight => ?_
  · rw [width] at part
    exact part
  · unfold Staging.put
    split
    · rfl
    · split
      · rfl
      · exact List.getElem?_set_ne (by omega)
  · unfold Staging.put
    rw [if_neg (by omega), if_neg (by omega)]
    exact List.getElem?_set_self (by omega)

end

/-! ## The write at the Management Port (R177, R205) -/

/-- The part with the bytes beyond the form of a staging write counted (R177). -/
def State.stagingCounted (s : State) (r : Role) (first : Byte) (data : List Byte) : State :=
  if s.held r = false ∧ stagingForm first.toNat < data.length then
    s.countPort r (fun c => { c with overlongWrites := bump c.overlongWrites })
  else s

section
variable {s : State} {r : Role} {first : Byte} {data : List Byte}

theorem stagingCounted_bpu : (s.stagingCounted r first data).bpu = s.bpu := by
  unfold State.stagingCounted
  split <;> rfl

theorem stagingCounted_other :
    (s.stagingCounted r first data).mgp.ports.get (otherRole r) = s.mgp.ports.get (otherRole r) := by
  unfold State.stagingCounted
  split
  · exact updatePort_port_other s r _
  · rfl

/-- The count moves nothing but the counters of the role's port. -/
theorem stagingCounted_port :
    ∃ c, (s.stagingCounted r first data).mgp.ports.get r = { s.mgp.ports.get r with counters := c } := by
  unfold State.stagingCounted
  split
  · exact ⟨_, updatePort_port s r _⟩
  · exact ⟨_, rfl⟩

theorem exec_stagingWrite (h : s.Listens r) : exec (.stagingWrite r first data) s =
    .next ((ownStaging r first data (s.stagingCounted r first data)).state.record r 0x0010
      (ownStaging r first data (s.stagingCounted r first data)).code
      (ownStaging r first data (s.stagingCounted r first data)).value) := by
  obtain ⟨running, free⟩ := h
  obtain ⟨c, port⟩ := stagingCounted_port (s := s) (r := r) (first := first) (data := data)
  have hold : (s.stagingCounted r first data).held r = false := by
    unfold State.held
    rw [port]
    exact free
  exact (ifRunning_of_running running (·.stagingWrite r first data)).trans
    (congrArg _ (takeWrite_taken (s.stagingCounted r first data) r 0x0010 false _ hold (.inl rfl)))

end


section
variable (s : State) (r : Role) (data : List Byte)

theorem ownStaging_invalid {first : Byte} (h : 9 < first.toNat) :
    ownStaging r first data s = { state := s, code := .invalid } := if_pos h

theorem ownStaging_done {first : Byte} (h : first.toNat ≤ 9) : ownStaging r first data s =
    { state := s.updateStaging r (fun st => st.takeFields ((List.range 10).drop first.toNat) data), code := .done } :=
  if_neg (by omega)

theorem ownStaging_mgp (first : Byte) : (ownStaging r first data s).state.mgp = s.mgp := by
  unfold ownStaging
  split <;> rfl

/-- A staging write touches the staging record of its role alone. -/
theorem ownStaging_others (first : Byte) :
    (ownStaging r first data s).state.bpu.staging.get (otherRole r) = s.bpu.staging.get (otherRole r)
      ∧ (ownStaging r first data s).state.bpu.table = s.bpu.table
      ∧ (ownStaging r first data s).state.bpu.counters = s.bpu.counters := by
  unfold ownStaging
  split
  · exact ⟨rfl, rfl, rfl⟩
  · exact ⟨updateStaging_other s r _, rfl, rfl⟩

end

/-- An outcome recorded at a port whose counters alone were moved before. -/
theorem record_of_counted {s u : State} {r : Role} {e : Nat} {code : ResultCode} {value : List Byte} {c : MgpCounters}
    (port : u.mgp.ports.get r = { s.mgp.ports.get r with counters := c }) :
    Recorded s (u.record r e code value) r e code value
      ∧ ((u.record r e code value).mgp.ports.get r).command = (s.mgp.ports.get r).command
      ∧ ((u.record r e code value).mgp.ports.get r).notices = (s.mgp.ports.get r).notices := by
  unfold Recorded
  rw [State.record, updatePort_port, port]
  exact ⟨rfl, rfl, rfl⟩

/-- Settles O38: a first field that names none is refused (`ownStaging_invalid`); otherwise each part of the staging record is as
the write's bytes for its field have it (`takeFields_of_part`). -/
theorem stagingTakesWholeFields : Obligations.StagingTakesWholeFields := by
  rintro s r first data f hl rfl eight
  obtain ⟨c, counted⟩ := stagingCounted_port (s := s) (r := r) (first := first) (data := data)
  have bpu := stagingCounted_bpu (s := s) (r := r) (first := first) (data := data)
  have unnamed := stagingCounted_other (s := s) (r := r) (first := first) (data := data)
  have hexec := exec_stagingWrite (first := first) (data := data) hl
  have frame : OnlyChanges [.mgp, .bpu] s _ := exec_frame hexec
  generalize s.stagingCounted r first data = u at *
  have mgp := ownStaging_mgp u r data first
  have port : (ownStaging r first data u).state.mgp.ports.get r = { s.mgp.ports.get r with counters := c } := by
    rw [mgp, counted]
  obtain ⟨staging, table, counters⟩ := ownStaging_others u r data first
  obtain ⟨recorded, command, notices⟩ := record_of_counted (e := 0x0010) (code := (ownStaging r first data u).code)
    (value := (ownStaging r first data u).value) port
  rw [bpu] at staging table counters
  refine ⟨_, hexec, fun bad => ?_, fun named => ?_, staging, table, counters, ?_, command, notices, frame.widen⟩
  · rw [ownStaging_invalid u r data bad] at recorded ⊢
    exact ⟨bpu, recorded⟩
  · rw [ownStaging_done u r data named] at recorded ⊢
    have taken : ((u.updateStaging r (fun st => st.takeFields ((List.range 10).drop first.toNat) data)).record r 0x0010 .done
        []).bpu.staging.get r = (s.bpu.staging.get r).takeFields ((List.range 10).drop first.toNat) data := by
      rw [State.record_bpu, updateStaging_get, bpu]
    rw [taken]
    exact ⟨recorded, takeFields_reservation _ _ _, takeFields_reference eight named, takeFields_length eight named,
      fun i hi => takeFields_position eight named hi⟩
  · rw [State.record, updatePort_port_other, mgp, unnamed]

end Machine
end Sys2Proof
end

section
/-! PROOFS. The steps of a hand-off: windows that close, open or stay, and the content of the slot (R153 to R159, R169). -/

set_option Elab.async false

namespace Sys2Proof
namespace Machine

/-! ## Closing (R153, R156) -/

section
variable {s : State} {v : Service} {at_ : ExactTime}

theorem closeWindow_closed (h : (s.spe.services.get v).window = .none) : s.closeWindow at_ v = s := by
  unfold State.closeWindow
  rw [h]
  rfl

section
variable {n : Word16} {e : BreakEntry} (hn : (s.spe.services.get v).window.number? = some n) (he : s.findBreak? n = some e)
include hn he

theorem closeWindow_stays (hc : closesAt e at_ = false) : s.closeWindow at_ v = s := by
  unfold State.closeWindow
  rw [hn]
  dsimp only
  rw [he]
  exact if_neg (by simp [hc])

theorem closeWindow_closes (hc : closesAt e at_ = true) : s.closeWindow at_ v = s.spliceIn v e := by
  unfold State.closeWindow
  rw [hn]
  dsimp only
  rw [he]
  exact if_pos hc

end

theorem foldl_closeWindow_closed (l : List Service) (h : ∀ w ∈ l, (s.spe.services.get w).window = .none) :
    l.foldl (fun acc w => acc.closeWindow at_ w) s = s := by
  induction l with
  | nil => rfl
  | cons w l ih =>
    rw [List.foldl_cons, closeWindow_closed (h w (List.mem_cons_self ..))]
    exact ih fun x hx => h x (List.mem_cons_of_mem _ hx)

theorem closeWindows_closed (h : ∀ w, (s.spe.services.get w).window = .none) : s.closeWindows at_ = s :=
  foldl_closeWindow_closed Service.all fun w _ => h w

/-- A splice-in at the Splice Engine: the window closes and the service's streams are marked returning (R156, R162). -/
theorem spliceIn_spe (s : State) (v : Service) (e : BreakEntry) : (s.spliceIn v e).spe = { s.spe with
    services := s.spe.services.set v { s.spe.services.get v with window := .none }
    continuity := s.spe.continuity.map fun c =>
      if serviceOf? s.sst.live.map c.stream = some v then { c with returning := true } else c } := by
  have spe (u : State) (o : BreakOutcome) : (u.finishBreak e .ended o).spe = u.spe :=
    finishBreak_frame u e .ended o .spe (by decide)
  have sst (u : State) (o : BreakOutcome) : (u.finishBreak e .ended o).sst = u.sst :=
    finishBreak_frame u e .ended o .sst (by decide)
  unfold State.spliceIn State.markReturning State.updateService
  simp only [State.setSpe_spe, State.setSpe_sst, spe, sst]
  rfl

theorem closeWindow_services_of_ne {w : Service} (h : w ≠ v) :
    (s.closeWindow at_ v).spe.services.get w = s.spe.services.get w := by
  unfold State.closeWindow
  split
  · split
    · split
      · rw [spliceIn_spe]
        exact PerService.get_set_of_ne _ h _
      · rfl
    · rfl
  · rfl

/-- Where one service alone may have its window open, step 1 of a hand-off is that service's (R153). -/
theorem closeWindows_but (h : ∀ w, w ≠ v → (s.spe.services.get w).window = .none) :
    s.closeWindows at_ = s.closeWindow at_ v := by
  have mem : v ∈ Service.all := by cases v <;> decide
  obtain ⟨before, behind, all⟩ := List.append_of_mem mem
  have nodup : (before ++ v :: behind).Nodup := all ▸ (by decide : Service.all.Nodup)
  rw [List.nodup_middle, List.nodup_cons, List.mem_append, not_or] at nodup
  obtain ⟨⟨hbefore, hbehind⟩, -⟩ := nodup
  unfold State.closeWindows
  rw [all, List.foldl_append, List.foldl_cons,
    foldl_closeWindow_closed before fun w hw => h w fun hv => hbefore (hv ▸ hw)]
  refine foldl_closeWindow_closed behind fun w hw => ?_
  have other : w ≠ v := fun hv => hbehind (hv ▸ hw)
  rw [closeWindow_services_of_ne other]
  exact h w other

end

/-! ## A splice-in (R107, R108, R156, R162) -/

/-- The overrun that a splice-in counts (R156). -/
def State.overrunAt (s : State) (v : Service) (e : BreakEntry) : Nat :=
  if e.state = .active then overrunOf s.csc.directory e.clips (s.spe.services.get v) else 0

/-- A break entry after its splice-in. -/
def BreakEntry.splicedIn (e y : BreakEntry) (extra : Nat) : BreakEntry :=
  { y with state := .ended, outcome := some (spliceInOutcome e), closure := none, windowOpen := false,
           overrun := bumpBy y.overrun extra }

section
variable (s : State) (v : Service) (e : BreakEntry)

theorem spliceIn_bpu : (s.spliceIn v e).bpu = (s.updateBreak e.number fun y => e.splicedIn y (s.overrunAt v e)).bpu := by
  have bpu : (s.spliceIn v e).bpu = _ := finishBreak_bpu (s.updateBreak e.number fun y => { y with
    overrun := bumpBy y.overrun (s.overrunAt v e) }) e .ended (spliceInOutcome e)
  rw [bpu]
  simp only [State.updateBreak, State.setBpu_bpu, List.map_map]
  congr 1
  refine List.map_congr_left fun y _ => ?_
  by_cases h : y.number = e.number
  · simp [h, BreakEntry.splicedIn, BreakEntry.finishedAs]
  · simp [h]

theorem spliceIn_csc : (s.spliceIn v e).csc = (s.dropPins e.pinned).csc :=
  (finishBreak_csc (s.updateBreak e.number _) e .ended _).trans (State.dropPins_csc_congr _ rfl)

theorem spliceIn_raised :
    RaisedBoth s (s.spliceIn v e) [noticeAt s .breakEnded (.breakNumber e.number) (.ended (spliceInOutcome e))] :=
  finishBreak_raised (s.updateBreak e.number fun y => { y with overrun := bumpBy y.overrun (s.overrunAt v e) }) e .ended
    (spliceInOutcome e)

/-- The entry that a splice-in ends opens no window, and the others open none that they did not open before. -/
theorem spliceIn_opens {w : Service} {at_ : ExactTime} (h : opens? s.bpu.table w at_ = none) :
    opens? (s.spliceIn v e).bpu.table w at_ = none := by
  have before := List.find?_eq_none.1 h
  refine List.find?_eq_none.2 fun x hx => ?_
  rw [spliceIn_bpu] at hx
  obtain ⟨y, hy, rfl⟩ := List.mem_map.1 hx
  split
  · simp [BreakEntry.splicedIn]
  · exact before y hy

end

/-! ## Opening (R106, R154, R155) -/

section
variable {s : State} {v : Service} {at_ : ExactTime}

theorem openWindow_opened {n : Word16} (hn : (s.spe.services.get v).window.number? = some n) : s.openWindow at_ v = s := by
  unfold State.openWindow
  split
  · next h => rw [h] at hn; cases hn
  · rfl
  · rfl

section
variable (hw : (s.spe.services.get v).window = .none)
include hw

theorem openWindow_nothing (ho : opens? s.bpu.table v at_ = none) : s.openWindow at_ v = s := by
  unfold State.openWindow
  rw [hw]
  dsimp only
  rw [ho]

theorem openWindow_entry {e : BreakEntry} (ho : opens? s.bpu.table v at_ = some e) : s.openWindow at_ v =
    if noOtherOpen s.bpu.table v e.number = true then (if e.state = .armed then s.grantClip v e else s.grantBlank v e)
    else s.countSpe (fun c => { c with requestsRefused := bump c.requestsRefused }) := by
  unfold State.openWindow
  rw [hw]
  dsimp only
  rw [ho]

end
end

/-! ## Content (R153, R157, R159, R169) -/

/-- A slot's content is chosen: it joins the pending list, and the reads that it needs wait at the arbiter (R158, R160). -/
structure Chosen (s u : State) (bpu : Bpu) (services : PerService ServiceState) (p : Pending) (reads : List FetchRead) :
    Prop where
  bpu : u.bpu = bpu
  spe : u.spe = { s.spe with services := services, pendingSlots := s.spe.pendingSlots ++ [p] }
  csc : u.csc = { s.csc with reads := s.csc.reads ++ reads }
  frame : OnlyChanges [.bpu, .csc, .spe] s u

/-- The read that a clip packet needs, none where the packet is not stored (R130, R158). -/
def packetReads (slot : Word32) (position : Nat) (c : Clip) (k : Nat) : List FetchRead :=
  if k < c.stored then [.clip slot true position c.id k (64 * c.firstBlock + k)] else []

theorem askClip_eq (s : State) (slot : Word32) (position : Nat) (c : Clip) (k : Nat) : s.askClip slot position c k =
    s.setCsc { s.csc with reads := s.csc.reads ++ packetReads slot position c k } := by
  unfold State.askClip packetReads
  split
  · rfl
  · rw [List.append_nil]
    rfl

theorem advance_eq (x : ServiceState) (stored : Nat) : x.advance stored = { x with
    listPos := if x.packetPos + 1 < stored then x.listPos else x.listPos + 1
    packetPos := if x.packetPos + 1 < stored then x.packetPos + 1 else 0
    resumeDue := false } := by
  unfold ServiceState.advance
  split <;> rfl

theorem addPending_chosen (s : State) (slot : Word32) (instant : SiteTime) (content : Content) :
    Chosen s (s.addPending slot instant content) s.bpu s.spe.services ⟨slot, instant, content⟩ [] where
  bpu := rfl
  spe := rfl
  csc := by rw [List.append_nil]; rfl
  frame := (addPending_frame s _ _ _).widen

/-- An entry changed and the null packet chosen, as where the clips are exhausted (R159). -/
theorem updateBreak_chosen (s : State) (n : Word16) (f : BreakEntry → BreakEntry) (slot : Word32) (instant : SiteTime) :
    Chosen s ((s.updateBreak n f).addPending slot instant .null) (s.updateBreak n f).bpu s.spe.services
      ⟨slot, instant, .null⟩ [] :=
  have null := addPending_chosen (s.updateBreak n f) slot instant .null
  ⟨rfl, rfl, null.csc, (updateBreak_frame s n f).seq (addPending_frame _ _ _ _)⟩

/-- The entry with one clip more begun (R157). -/
def BreakEntry.clipBegun (y : BreakEntry) : BreakEntry := { y with started := bump y.started }

/-- The content of a break packet (R157, R165). -/
def breakContent (x : ServiceState) (v : Service) (id : Word32) (c : Clip) : Content := .clip
  { service := v, clip := id, packet := x.packetPos, slate := false,
    passStart := decide (x.packetPos = 0) || x.resumeDue, firstStamp := c.firstStamp, read := .waiting }

/-- The content of a slate packet (R165, R169). -/
def slateContent (k : Nat) (v : Service) (id : Word32) (c : Clip) : Content := .clip
  { service := v, clip := id, packet := k, slate := true, passStart := decide (k = 0), firstStamp := c.firstStamp,
    read := .waiting }

section
variable {s : State} {v : Service} {slot : Word32} {instant : SiteTime}

section
variable {n : Word16} {e : BreakEntry} {x : ServiceState} (he : s.findBreak? n = some e) (hx : s.spe.services.get v = x)
include he hx

theorem takeBreakPacket_clip {id : Word32} {p : Nat} {c : Clip} (hid : e.clips[x.listPos - 1]? = some id)
    (hc : findClip? s.csc.directory id = some (p, c)) : s.takeBreakPacket slot instant v n =
      (((if x.packetPos = 0 then s.updateBreak n BreakEntry.clipBegun else s).addPending slot instant
        (breakContent x v id c)).askClip slot p c x.packetPos).updateService v (·.advance c.stored) := by
  subst hx
  unfold State.takeBreakPacket
  dsimp only
  rw [he]
  dsimp only
  rw [hid]
  dsimp only
  rw [hc]
  rfl

/-- A clip that begins at the slot is counted in its entry (R157). -/
theorem takeBreakPacket_chosen {id : Word32} {p : Nat} {c : Clip} (hid : e.clips[x.listPos - 1]? = some id)
    (hc : findClip? s.csc.directory id = some (p, c)) :
    Chosen s (s.takeBreakPacket slot instant v n)
      (s.updateBreak n fun y => if x.packetPos = 0 then y.clipBegun else y).bpu
      (s.spe.services.set v (x.advance c.stored)) ⟨slot, instant, breakContent x v id c⟩ (packetReads slot p c x.packetPos) := by
  have frame := takeBreakPacket_frame s slot instant v n
  rw [takeBreakPacket_clip he hx hid hc, askClip_eq] at frame ⊢
  subst hx
  by_cases begins : (s.spe.services.get v).packetPos = 0
  · simp only [if_pos begins] at frame ⊢
    exact ⟨rfl, rfl, rfl, frame⟩
  · simp only [if_neg begins] at frame ⊢
    exact ⟨by simp [State.updateBreak, State.updateService, State.addPending], rfl, rfl, frame⟩

theorem takeBreakPacket_exhausted (hid : e.clips[x.listPos - 1]? = none) : s.takeBreakPacket slot instant v n =
    (s.updateBreak n fun y => { y with underrun := bump y.underrun }).addPending slot instant .null := by
  subst hx
  unfold State.takeBreakPacket
  dsimp only
  rw [he]
  dsimp only
  rw [hid]

end

section
variable {id : Word32} {p : Nat} {c : Clip} {k : Nat} (hk : (s.spe.services.get v).slatePos = k)
  (hc : findClip? s.csc.directory id = some (p, c))
include hk hc

theorem takeSlatePacket_clip : s.takeSlatePacket slot instant v id =
    ((s.addPending slot instant (slateContent k v id c)).askClip slot p c k).updateService v fun y =>
      { y with slatePos := if y.slatePos + 1 < c.stored then y.slatePos + 1 else 0 } := by
  subst hk
  unfold State.takeSlatePacket
  dsimp only
  rw [hc]
  rfl

theorem takeSlatePacket_chosen : Chosen s (s.takeSlatePacket slot instant v id) s.bpu
    (s.spe.services.set v { s.spe.services.get v with slatePos := if k + 1 < c.stored then k + 1 else 0 })
    ⟨slot, instant, slateContent k v id c⟩ (packetReads slot p c k) := by
  have frame : OnlyChanges [.bpu, .csc, .spe] s _ := (takeSlatePacket_frame s slot instant v id).widen
  rw [takeSlatePacket_clip hk hc, askClip_eq] at frame ⊢
  subst hk
  exact ⟨rfl, rfl, rfl, frame⟩

end

variable {packet : List Byte} {info : SlotInfo}

theorem chooseContent_slate {id : Word32} (h : (s.spe.services.get v).slate = some id) :
    s.chooseContent slot instant v packet info = s.takeSlatePacket slot instant v id := by
  unfold State.chooseContent
  dsimp only
  rw [h]

section
variable (h : (s.spe.services.get v).slate = none)
include h

theorem chooseContent_programme (hw : (s.spe.services.get v).window = .none) :
    s.chooseContent slot instant v packet info = s.addPending slot instant (.stored packet info) := by
  unfold State.chooseContent
  dsimp only
  rw [h]
  dsimp only
  rw [hw]

theorem chooseContent_clip {n : Word16} (hw : (s.spe.services.get v).window = .clip n) :
    s.chooseContent slot instant v packet info = s.takeBreakPacket slot instant v n := by
  unfold State.chooseContent
  dsimp only
  rw [h]
  dsimp only
  rw [hw]

theorem chooseContent_blank {n : Word16} (hw : (s.spe.services.get v).window = .blank n) :
    s.chooseContent slot instant v packet info = s.addPending slot instant .null := by
  unfold State.chooseContent
  dsimp only
  rw [h]
  dsimp only
  rw [hw]

end

theorem askClip_directory (s : State) (slot : Word32) (p : Nat) (c : Clip) (k : Nat) :
    (s.askClip slot p c k).csc.directory = s.csc.directory := by
  rw [askClip_eq]
  rfl

/-- No choice of content touches the clip directory. -/
theorem chooseContent_directory : (s.chooseContent slot instant v packet info).csc.directory = s.csc.directory := by
  unfold State.chooseContent
  dsimp only
  split
  · unfold State.takeSlatePacket
    dsimp only
    split
    · exact askClip_directory _ _ _ _ _
    · rfl
  · split
    · rfl
    · unfold State.takeBreakPacket
      dsimp only
      split
      · split
        · split
          · refine (askClip_directory _ _ _ _ _).trans ?_
            split <;> rfl
          · rfl
        · rfl
      · rfl
    · rfl

end

end Machine
end Sys2Proof
end

section
/-! PROOFS. The hand-off of a target-service slot as a whole (R52, R106 to R108, R153 to R159, R162, R169). -/

set_option Elab.async false

namespace Sys2Proof
namespace Machine

/-! ## The three steps of a hand-off (R153) -/

/-- The part as a hand-off begins: the read has left, and the exact time of the slot is noted (R52, R153). -/
def State.handing (s : State) (at_ : ExactTime) : State :=
  (s.setCsc { s.csc with taken := none }).setSpe { s.spe with fetchInstant := some at_ }

/-- The part once the windows are dealt with, before the content is chosen (R153 to R155). -/
def State.windowed (s : State) (at_ : ExactTime) (v : Service) : State := ((s.handing at_).closeWindows at_).openWindow at_ v

/-- The part after the hand-off of a target-service slot of `v` (R52, R153). -/
def State.handed (s : State) (slot : Word32) (bytes : List Byte) (q : Requested) (v : Service) : State :=
  ((s.windowed q.exact v).chooseContent slot q.instant v (bytes.take 188) (slotInfo bytes)).markDone slot

section
variable {s : State} {slot : Word32} {bytes : List Byte} {q : Requested} {v : Service}

theorem exec_targetRead (hr : s.Running) (h : TargetRead s slot bytes q v) :
    exec .ringReadComplete s = .next (s.handed slot bytes q v) := by
  obtain ⟨taken, found, tag, void, check, target⟩ := h
  obtain rfl : q.slot = slot := by simpa using List.find?_some found
  have good := judgeSlot_valid (mark := true) rfl tag void check
  have map : ((s.handing q.exact).closeWindows q.exact).sst = s.sst := closeWindows_frame _ _ .sst (by decide)
  rw [exec_ringReadComplete_delivered hr taken found]
  unfold State.deliverSlot State.handOff
  rw [good]
  change Host.Outcome.next (State.markDone (match serviceOf? ((s.handing q.exact).closeWindows q.exact).sst.live.map
    (streamId (bytes.take 188)) with | some v => _ | none => _) q.slot) = _
  rw [map, target]
  rfl

theorem handing_windowed_kept : HandOffKept (s.handing q.exact) (s.windowed q.exact v) :=
  (closeWindows_handOffKept _ _).trans (openWindow_handOffKept _ _ _)

theorem handed_onlyNotifies : OnlyNotifies s (s.handed slot bytes q v) :=
  (OnlyNotifies.of_mgp (t := s.handing q.exact) rfl).trans
    ((handing_windowed_kept.trans (chooseContent_handOffKept _ slot q.instant v (bytes.take 188) (slotInfo bytes))).mgp.trans
      (.of_mgp rfl))

theorem windowed_esc : (s.windowed q.exact v).esc = s.esc :=
  (openWindow_frame _ _ _ .esc (by decide)).trans (closeWindows_frame _ _ .esc (by decide))

theorem handed_mgp {w : State} (hw : s.windowed q.exact v = w) : (s.handed slot bytes q v).mgp = w.mgp :=
  hw ▸ chooseContent_frame _ _ _ _ _ _ .mgp (by decide)

theorem handed_directory {w : State} (hw : s.windowed q.exact v = w) :
    (s.handed slot bytes q v).csc.directory = w.csc.directory := hw ▸ chooseContent_directory

/-- The outcome of a hand-off whose windows left the part at `w`: the slot is answered with its content, on the break plan and the
services as they are given. -/
structure HandedAs (s w t : State) (slot : Word32) (q : Requested) (bpu : Bpu) (services : PerService ServiceState)
    (content : Content) (reads : List FetchRead) : Prop where
  off : HandedOff s t slot q reads
  bpu : t.bpu = bpu
  services : t.spe.services = services
  pending : t.spe.pendingSlots = s.spe.pendingSlots ++ [⟨slot, q.instant, content⟩]
  counters : t.spe.counters = w.spe.counters
  continuity : t.spe.continuity = w.spe.continuity
  csc : t.csc = { w.csc with reads := w.csc.reads ++ reads }

theorem handed_as {w : State} {dir : List (Nat × Clip)} {bpu : Bpu} {services : PerService ServiceState} {content : Content}
    {reads : List FetchRead} (hw : s.windowed q.exact v = w) (hc : w.csc = { s.csc with taken := none, directory := dir })
    (hp : w.spe.pendingSlots = s.spe.pendingSlots)
    (h : Chosen w (w.chooseContent slot q.instant v (bytes.take 188) (slotInfo bytes)) bpu services ⟨slot, q.instant, content⟩
      reads) : HandedAs s w (s.handed slot bytes q v) slot q bpu services content reads := by
  subst hw
  have esc := (h.frame .esc (by decide)).trans (windowed_esc (s := s) (q := q) (v := v))
  have csc : (s.handed slot bytes q v).csc = _ := h.csc
  have spe : (s.handed slot bytes q v).spe = _ := h.spe
  have instant : (s.windowed q.exact v).spe.fetchInstant = some q.exact := handing_windowed_kept.fetchInstant
  have off : HandedOff s (s.handed slot bytes q v) slot q reads := by
    refine ⟨?_, by rw [spe]; exact instant, ?_⟩
    · unfold State.handed State.markDone
      rw [State.setEsc_esc, esc]
    · rw [csc, hc]
      exact ⟨rfl, rfl, rfl, rfl, rfl⟩
  refine ⟨off, h.bpu, ?_, ?_, ?_, ?_, csc⟩
  · rw [spe]
  · rw [spe, hp]
  · rw [spe]
  · rw [spe]

/-! ## The windows of each clause (R106, R153 to R156) -/

theorem windowed_closed (closed : ∀ w, (s.spe.services.get w).window = .none) :
    s.windowed q.exact v = (s.handing q.exact).openWindow q.exact v :=
  congrArg (State.openWindow · q.exact v) (closeWindows_closed (s := s.handing q.exact) closed)

section
variable {e : BreakEntry} (closed : ∀ w, (s.spe.services.get w).window = .none)
include closed

theorem windowed_nothing (ho : opens? s.bpu.table v q.exact = none) : s.windowed q.exact v = s.handing q.exact :=
  (windowed_closed closed).trans (openWindow_nothing (s := s.handing q.exact) (closed v) ho)

variable (ho : opens? s.bpu.table v q.exact = some e)
include ho

theorem windowed_clip (armed : e.state = .armed) (alone : noOtherOpen s.bpu.table v e.number = true) :
    s.windowed q.exact v = (s.handing q.exact).grantClip v e :=
  (windowed_closed closed).trans
    ((openWindow_entry (s := s.handing q.exact) (closed v) ho).trans ((if_pos alone).trans (if_pos armed)))

theorem windowed_blank (fallback : e.state = .fallback) (alone : noOtherOpen s.bpu.table v e.number = true) :
    s.windowed q.exact v = (s.handing q.exact).grantBlank v e :=
  (windowed_closed closed).trans
    ((openWindow_entry (s := s.handing q.exact) (closed v) ho).trans ((if_pos alone).trans (if_neg (by simp [fallback]))))

theorem windowed_refused (other : noOtherOpen s.bpu.table v e.number = false) : s.windowed q.exact v =
    (s.handing q.exact).countSpe (fun c => { c with requestsRefused := bump c.requestsRefused }) :=
  (windowed_closed closed).trans ((openWindow_entry (s := s.handing q.exact) (closed v) ho).trans
    (if_neg (ne_true_of_eq_false other)))

end

section
variable {n : Word16} {e : BreakEntry} {u : Service} (closed : ∀ w, w ≠ u → (s.spe.services.get w).window = .none)
  (hn : (s.spe.services.get u).window.number? = some n) (he : s.findBreak? n = some e)
include closed hn he

theorem closeWindows_stays (stays : closesAt e q.exact = false) : (s.handing q.exact).closeWindows q.exact = s.handing q.exact :=
  (closeWindows_but (s := s.handing q.exact) closed).trans (closeWindow_stays (s := s.handing q.exact) hn he stays)

theorem closeWindows_closes (closes : closesAt e q.exact = true) :
    (s.handing q.exact).closeWindows q.exact = (s.handing q.exact).spliceIn u e :=
  (closeWindows_but (s := s.handing q.exact) closed).trans (closeWindow_closes (s := s.handing q.exact) hn he closes)

end

theorem windowed_stays {n : Word16} {e : BreakEntry} (closed : ∀ w, w ≠ v → (s.spe.services.get w).window = .none)
    (hn : (s.spe.services.get v).window.number? = some n) (he : s.findBreak? n = some e) (stays : closesAt e q.exact = false) :
    s.windowed q.exact v = s.handing q.exact :=
  (congrArg (State.openWindow · q.exact v) (closeWindows_stays closed hn he stays)).trans
    (openWindow_opened (s := s.handing q.exact) hn)

theorem spliceIn_windows {u w : Service} {e : BreakEntry} (closed : ∀ w, w ≠ u → (s.spe.services.get w).window = .none) :
    ((s.spliceIn u e).spe.services.get w).window = .none := by
  rw [spliceIn_spe]
  by_cases h : w = u
  · subst h
    rw [PerService.get_set]
  · exact (congrArg ServiceState.window (PerService.get_set_of_ne _ h _)).trans (closed w h)

theorem spliceIn_slate (s : State) (u w : Service) (e : BreakEntry) :
    ((s.spliceIn u e).spe.services.get w).slate = (s.spe.services.get w).slate := by
  rw [spliceIn_spe]
  by_cases h : w = u
  · subst h
    rw [PerService.get_set]
  · rw [PerService.get_set_of_ne _ h]

theorem windowed_splicedIn {n : Word16} {e : BreakEntry} {u : Service}
    (closed : ∀ w, w ≠ u → (s.spe.services.get w).window = .none) (hn : (s.spe.services.get u).window.number? = some n)
    (he : s.findBreak? n = some e) (closes : closesAt e q.exact = true) (ho : opens? s.bpu.table v q.exact = none) :
    s.windowed q.exact v = (s.handing q.exact).spliceIn u e :=
  (congrArg (State.openWindow · q.exact v) (closeWindows_closes closed hn he closes)).trans
    (openWindow_nothing (spliceIn_windows (s := s.handing q.exact) closed) (spliceIn_opens (s.handing q.exact) u e ho))

theorem closesAt_iff (e : BreakEntry) (at_ : ExactTime) :
    closesAt e at_ = true ↔ e.closure ≠ none ∨ at_.time.before e.finish = false := by
  simp [closesAt, ExactTime.reached, SiteTime.reached, Option.isSome_iff_ne_none]

/-! ## The grants (R106, R154, R155) -/

theorem grantClip_raised (s : State) (v : Service) (e : BreakEntry) :
    RaisedBoth s (s.grantClip v e) [noticeAt s .breakStarted (.breakNumber e.number) .startedClip] :=
  raiseBoth_raised (s.updateBreak e.number fun y => { y with state := .active }) _ _ _

theorem grantBlank_raised (s : State) (v : Service) (e : BreakEntry) :
    RaisedBoth s (s.grantBlank v e) [noticeAt s .breakStarted (.breakNumber e.number) .startedBlank] :=
  raiseBoth_raised (s.updateBreak e.number fun y => { y with windowOpen := true }) _ _ _

theorem grantClip_found {s : State} {e : BreakEntry} (he : s.findBreak? e.number = some e) (v : Service) :
    (s.grantClip v e).findBreak? e.number = some { e with state := .active } :=
  (State.findBreak_congr rfl _).trans (updateBreak_self (f := fun y => { y with state := .active }) he fun _ => rfl)

theorem grantClip_others (s : State) (v : Service) (e : BreakEntry) {m : Word16} (hm : m ≠ e.number) :
    (s.grantClip v e).findBreak? m = s.findBreak? m :=
  (State.findBreak_congr rfl m).trans (updateBreak_other s (f := fun y => { y with state := .active }) hm fun _ => rfl)

/-! ## What each clause hands off -/

/-- A window opens on its first clip, which begins at the slot (R106, R154, R157). -/
theorem handed_opening {e : BreakEntry} {id : Word32} {p : Nat} {c : Clip}
    (closed : ∀ w, (s.spe.services.get w).window = .none) (slate : (s.spe.services.get v).slate = none)
    (ho : opens? s.bpu.table v q.exact = some e) (armed : e.state = .armed)
    (alone : noOtherOpen s.bpu.table v e.number = true) (he : s.findBreak? e.number = some e) (hid : e.clips.head? = some id)
    (hc : findClip? s.csc.directory id = some (p, c)) (two : 1 < c.stored) :
    HandedAs s ((s.handing q.exact).grantClip v e) (s.handed slot bytes q v) slot q
      (((s.handing q.exact).grantClip v e).updateBreak e.number BreakEntry.clipBegun).bpu
      (s.spe.services.set v { s.spe.services.get v with
        window := .clip e.number, listPos := 1, packetPos := 1, resumeDue := false })
      (.clip
        { service := v, clip := id, packet := 0, slate := false, passStart := true, firstStamp := c.firstStamp
          read := .waiting })
      [.clip slot true p c.id 0 (64 * c.firstBlock)] := by
  have service : ((s.handing q.exact).grantClip v e).spe.services.get v =
      { s.spe.services.get v with window := .clip e.number, listPos := 1, packetPos := 0, resumeDue := false } :=
    PerService.get_set _ _ _
  have found := grantClip_found (s := s.handing q.exact) he v
  have first : e.clips[0]? = some id := by rw [← List.head?_eq_getElem?, hid]
  have chosen := takeBreakPacket_chosen (slot := slot) (instant := q.instant) found service (e := { e with state := .active })
    first hc
  refine handed_as (dir := s.csc.directory) (windowed_clip closed ho armed alone) rfl rfl ?_
  rw [chooseContent_clip (by rw [service]; exact slate) (by rw [service])]
  have services : ((s.handing q.exact).grantClip v e).spe.services = s.spe.services.set v _ := rfl
  rw [services, PerService.set_set, advance_eq, if_pos two, if_pos two, packetReads, if_pos (Nat.zero_lt_of_lt two)] at chosen
  exact chosen

/-- A window that stays open takes the next packet of the list (R157). -/
theorem handed_playing {n : Word16} {e : BreakEntry} {x : ServiceState} {id : Word32} {p : Nat} {c : Clip}
    (stays : s.windowed q.exact v = s.handing q.exact) (slate : (s.spe.services.get v).slate = none)
    (hw : (s.spe.services.get v).window = .clip n) (he : s.findBreak? n = some e) (hx : s.spe.services.get v = x)
    (hid : e.clips[x.listPos - 1]? = some id) (hc : findClip? s.csc.directory id = some (p, c)) :
    HandedAs s (s.handing q.exact) (s.handed slot bytes q v) slot q
      (s.updateBreak n fun y => if x.packetPos = 0 then y.clipBegun else y).bpu
      (s.spe.services.set v (x.advance c.stored)) (breakContent x v id c) (packetReads slot p c x.packetPos) := by
  refine handed_as (dir := s.csc.directory) stays rfl rfl ?_
  rw [chooseContent_clip (s := s.handing q.exact) slate hw]
  exact takeBreakPacket_chosen (s := s.handing q.exact) he hx hid hc

/-- A window whose clips are exhausted takes the null packet, an underrun (R159). -/
theorem handed_exhausted {n : Word16} {e : BreakEntry} {x : ServiceState} (stays : s.windowed q.exact v = s.handing q.exact)
    (slate : (s.spe.services.get v).slate = none) (hw : (s.spe.services.get v).window = .clip n) (he : s.findBreak? n = some e)
    (hx : s.spe.services.get v = x) (hid : e.clips[x.listPos - 1]? = none) :
    HandedAs s (s.handing q.exact) (s.handed slot bytes q v) slot q
      (s.updateBreak n fun y => { y with underrun := bump y.underrun }).bpu s.spe.services .null [] := by
  refine handed_as (dir := s.csc.directory) stays rfl rfl ?_
  rw [chooseContent_clip (s := s.handing q.exact) slate hw, takeBreakPacket_exhausted (s := s.handing q.exact) he hx hid]
  exact updateBreak_chosen (s.handing q.exact) n _ slot q.instant

/-- A blank window takes the null packet (R155). -/
theorem handed_blank {w : State} {n : Word16} (hw : s.windowed q.exact v = w) (hc : w.csc = { s.csc with taken := none })
    (hp : w.spe.pendingSlots = s.spe.pendingSlots) (slate : (w.spe.services.get v).slate = none)
    (window : (w.spe.services.get v).window = .blank n) :
    HandedAs s w (s.handed slot bytes q v) slot q w.bpu w.spe.services .null [] := by
  refine handed_as (dir := s.csc.directory) hw hc hp ?_
  rw [chooseContent_blank slate window]
  exact addPending_chosen w slot q.instant .null

/-- With no window open the programme goes on (R153). -/
theorem handed_programme {w : State} {dir : List (Nat × Clip)} (hw : s.windowed q.exact v = w)
    (hc : w.csc = { s.csc with taken := none, directory := dir }) (hp : w.spe.pendingSlots = s.spe.pendingSlots)
    (slate : (w.spe.services.get v).slate = none) (window : (w.spe.services.get v).window = .none) :
    HandedAs s w (s.handed slot bytes q v) slot q w.bpu w.spe.services (.stored (bytes.take 188) (slotInfo bytes)) [] := by
  refine handed_as hw hc hp ?_
  rw [chooseContent_programme slate window]
  exact addPending_chosen w slot q.instant _

/-- A slate takes its next packet, in a loop (R169). -/
theorem handed_slate {id : Word32} {p : Nat} {c : Clip} {k : Nat} (hw : s.windowed q.exact v = s.handing q.exact)
    (slate : (s.spe.services.get v).slate = some id) (hc : findClip? s.csc.directory id = some (p, c))
    (hk : (s.spe.services.get v).slatePos = k) :
    HandedAs s (s.handing q.exact) (s.handed slot bytes q v) slot q s.bpu
      (s.spe.services.set v { s.spe.services.get v with slatePos := if k + 1 < c.stored then k + 1 else 0 })
      (slateContent k v id c) (packetReads slot p c k) := by
  refine handed_as (dir := s.csc.directory) hw rfl rfl ?_
  rw [chooseContent_slate (s := s.handing q.exact) slate]
  exact takeSlatePacket_chosen (s := s.handing q.exact) hk hc

end

theorem RaisedBoth.of_mgp {s w t : State} {ns : List Notice} (h : RaisedBoth s w ns) (hm : t.mgp = w.mgp) :
    RaisedBoth s t ns := by
  intro r
  unfold Raised
  rw [hm]
  exact h r

theorem OnlyChanges.without {a b : List Part} {s t : State} (h : OnlyChanges a s t) (p : Part) (same : s.SameIn t p)
    (hb : ∀ x ∈ a, x = p ∨ x ∈ b := by decide) : OnlyChanges b s t := by
  intro x hx
  by_cases hxp : x = p
  · exact hxp ▸ same
  · exact h x fun hxa => (hb x hxa).elim hxp hx

/-- Settles O28: the windows of each clause (`windowed_clip`, `windowed_stays`, `windowed_blank`, `windowed_refused`,
`windowed_splicedIn`, `windowed_nothing`) and then the content of the slot (`HandedAs`). -/
theorem handOffStartsTheBreak : Obligations.HandOffStartsTheBreak := by
  refine ⟨?opening, ?playing, ?blank, ?closing, ?slate⟩
  case opening =>
    intro s slot bytes q v e id p c hr taken found tag void check target closed slate ho armed alone he hid hc two
    have hexec := exec_targetRead (v := v) hr ⟨taken, found, tag, void, check, target⟩
    have windowed := windowed_clip closed ho armed alone
    have handed := handed_opening (slot := slot) (bytes := bytes) closed slate ho armed alone he hid hc two
    have granted := grantClip_found (s := s.handing q.exact) he v
    refine ⟨_, hexec, (State.findBreak_congr handed.bpu _).trans (updateBreak_self granted fun _ => rfl), fun m hm => ?_,
      handed.services, handed.pending, handed.csc, (grantClip_raised (s.handing q.exact) v e).of_mgp (handed_mgp windowed),
      exec_frame hexec, handed_onlyNotifies⟩
    exact (State.findBreak_congr handed.bpu m).trans
      ((updateBreak_other _ (f := BreakEntry.clipBegun) hm fun _ => rfl).trans (grantClip_others (s.handing q.exact) v e hm))
  case playing =>
    intro s slot bytes q v n e hr target closed slate hn he stays
    have hexec := exec_targetRead hr target
    have windowed := windowed_stays closed hn he stays
    refine ⟨_, hexec, fun hw => ⟨fun id p c x hx hid hc => ?_, fun hid => ?_⟩, fun hw => ?_,
      (handed_directory windowed).trans rfl, (exec_frame hexec).without .mgp ((handed_mgp windowed).trans rfl)⟩
    · have handed := handed_playing (slot := slot) (bytes := bytes) windowed slate hw he hx.symm hid hc
      refine ⟨handed.bpu.trans ?_, ?_, handed.pending, handed.off⟩
      · simp only [State.updateBreak, State.setBpu_bpu, ite_and, BreakEntry.clipBegun]
      · rw [handed.services, advance_eq]
    · have handed := handed_exhausted (slot := slot) (bytes := bytes) windowed slate hw he rfl hid
      exact ⟨handed.bpu, handed.services, handed.pending, handed.off⟩
    · have handed := handed_blank (slot := slot) (bytes := bytes) windowed rfl rfl slate hw
      exact ⟨handed.bpu, handed.services, handed.pending, handed.off⟩
  case blank =>
    intro s slot bytes q v e hr target closed slate ho fallback
    have hexec := exec_targetRead hr target
    rcases Bool.eq_false_or_eq_true (noOtherOpen s.bpu.table v e.number) with alone | other
    · have windowed := windowed_blank closed ho fallback alone
      have service : ((s.handing q.exact).grantBlank v e).spe.services.get v =
          { s.spe.services.get v with window := .blank e.number } := PerService.get_set _ _ _
      have handed := handed_blank (slot := slot) (bytes := bytes) windowed rfl rfl
        ((congrArg ServiceState.slate service).trans slate) (congrArg ServiceState.window service)
      exact ⟨_, hexec, fun _ => ⟨handed.bpu, handed.services, handed.counters, handed.pending,
          (grantBlank_raised (s.handing q.exact) v e).of_mgp (handed_mgp windowed)⟩,
        fun other => absurd (alone.symm.trans other) (by decide), handed.off, (handed_directory windowed).trans rfl,
        exec_frame hexec, handed_onlyNotifies⟩
    · have windowed := windowed_refused closed ho other
      have handed := handed_programme (slot := slot) (bytes := bytes) (dir := s.csc.directory) windowed rfl rfl slate (closed v)
      exact ⟨_, hexec, fun alone => absurd (alone.symm.trans other) (by decide),
        fun _ => ⟨handed.bpu, handed.services, handed.counters, handed.pending, (handed_mgp windowed).trans rfl⟩, handed.off,
        (handed_directory windowed).trans rfl, exec_frame hexec, handed_onlyNotifies⟩
  case closing =>
    intro s slot bytes q v u n e o left hr target closed slate hn he closes ho houtcome hleft
    have hexec := exec_targetRead hr target
    have windowed := windowed_splicedIn closed hn he ((closesAt_iff e q.exact).2 closes) ho
    obtain rfl : o = spliceInOutcome e := houtcome
    obtain rfl : left = s.overrunAt u e := hleft
    obtain rfl := State.findBreak_number he
    have pins := (spliceIn_csc (s.handing q.exact) u e).trans (dropPins_csc _ _)
    have spe := spliceIn_spe (s.handing q.exact) u e
    have handed := handed_programme (slot := slot) (bytes := bytes) windowed pins ((congrArg Spe.pendingSlots spe).trans rfl)
      ((spliceIn_slate (s.handing q.exact) u v e).trans slate) (spliceIn_windows (s := s.handing q.exact) closed)
    have bpu := handed.bpu.trans (spliceIn_bpu (s.handing q.exact) u e)
    have directory := (handed_directory (slot := slot) (bytes := bytes) windowed).trans (congrArg Csc.directory pins)
    refine ⟨_, hexec, (State.findBreak_congr bpu _).trans (updateBreak_self (s := s.handing q.exact) he fun _ => rfl),
      fun m hm => (State.findBreak_congr bpu m).trans (updateBreak_other (s.handing q.exact) hm fun _ => rfl),
      (congrArg Bpu.staging bpu).trans rfl, (congrArg Bpu.counters bpu).trans rfl, ?_,
      handed.services.trans (congrArg Spe.services spe), handed.continuity.trans (congrArg Spe.continuity spe), handed.pending,
      (spliceIn_raised (s.handing q.exact) u e).of_mgp (handed_mgp windowed), handed.off, exec_frame hexec,
      handed_onlyNotifies⟩
    rw [directory, dropPins_csc]
    rfl
  case slate =>
    intro s slot bytes q v id p c k hr target closed ho slate hc hk
    have hexec := exec_targetRead hr target
    have windowed := windowed_nothing closed ho
    have handed := handed_slate (slot := slot) (bytes := bytes) windowed slate hc hk.symm
    exact ⟨_, hexec, handed.bpu, handed.services, handed.pending, handed.off, (handed_directory windowed).trans rfl,
      ((exec_frame hexec).without (b := [.esc, .bpu, .csc, .spe]) .mgp ((handed_mgp windowed).trans rfl)).without .bpu handed.bpu⟩

end Machine
end Sys2Proof
end

section
/-! PROOFS. The free run list (R117, R118): first fit as a decomposition, the return of a run, and the shares of packet memory
that both keep (R112). -/

set_option Elab.async false

namespace Sys2Proof
namespace Machine

/-! ## First fit (R118) -/

/-- What is left of a run after its first `c` blocks are taken. -/
def FreeRun.cutAfter (f : FreeRun) (c : Nat) : List FreeRun :=
  if f.count = c then [] else [{ first := f.first + c, count := f.count - c }]

theorem takeRun_none {c : Nat} : ∀ {runs : List FreeRun}, (∀ f ∈ runs, f.count < c) → takeRun c runs = none
  | [], _ => rfl
  | f :: rest, h => by
    rw [takeRun, if_neg (Nat.not_le_of_lt (h f (List.mem_cons_self ..))),
      takeRun_none fun g hg => h g (List.mem_cons_of_mem _ hg)]
    rfl

theorem takeRun_firstFit {c : Nat} {f : FreeRun} {after : List FreeRun} (fits : c ≤ f.count) :
    ∀ {before : List FreeRun}, (∀ x ∈ before, x.count < c) →
      takeRun c (before ++ f :: after) = some (f.first, before ++ f.cutAfter c ++ after)
  | [], _ => by
    rw [List.nil_append, takeRun, if_pos fits, FreeRun.cutAfter]
    split <;> rfl
  | x :: before, h => by
    rw [List.cons_append, takeRun, if_neg (Nat.not_le_of_lt (h x (List.mem_cons_self ..))),
      takeRun_firstFit fits fun y hy => h y (List.mem_cons_of_mem _ hy)]
    rfl

/-- A run that is taken is the first that is long enough. -/
theorem takeRun_some {c first : Nat} {left : List FreeRun} : ∀ {runs : List FreeRun}, takeRun c runs = some (first, left) →
    ∃ before f after, runs = before ++ f :: after ∧ c ≤ f.count ∧ first = f.first ∧ left = before ++ f.cutAfter c ++ after
  | [], h => nomatch h
  | f :: rest, h => by
    by_cases fits : c ≤ f.count
    · have taken := (takeRun_firstFit (before := []) (after := rest) fits (by simp)).symm.trans h
      obtain ⟨rfl, rfl⟩ := Prod.mk.inj (Option.some.inj taken)
      exact ⟨[], f, rest, rfl, fits, rfl, rfl⟩
    · rw [takeRun, if_neg fits] at h
      obtain ⟨⟨_, _⟩, found, hx⟩ := Option.map_eq_some_iff.1 h
      obtain ⟨rfl, rfl⟩ := Prod.mk.inj hx
      obtain ⟨before, g, after, rfl, fits, rfl, rfl⟩ := takeRun_some found
      exact ⟨f :: before, g, after, rfl, fits, rfl, rfl⟩

/-! ## The return of a run (R117) -/

/-- The runs rise, and no two of them touch. -/
abbrev Separated (runs : List FreeRun) : Prop := runs.Pairwise (fun a b => a.first + a.count < b.first)

theorem joinRun_first {r y : FreeRun} {runs : List FreeRun} (h : y ∈ joinRun r runs) :
    y.first = r.first ∨ ∃ x ∈ runs, y.first = x.first := by
  cases runs with
  | nil => exact .inl (congrArg _ (List.mem_singleton.1 h))
  | cons x rest =>
    rw [joinRun] at h
    split at h
    · rcases List.mem_cons.1 h with rfl | h
      · exact .inl rfl
      · exact .inr ⟨y, List.mem_cons_of_mem _ h, rfl⟩
    · rcases List.mem_cons.1 h with rfl | h
      · exact .inl rfl
      · exact .inr ⟨y, h, rfl⟩

/-- Each run after a return begins where one did before it. -/
theorem returnRun_first {r y : FreeRun} : ∀ {runs : List FreeRun}, y ∈ returnRun r runs →
    y.first = r.first ∨ ∃ x ∈ runs, y.first = x.first
  | [], h => .inl (congrArg _ (List.mem_singleton.1 h))
  | x :: rest, h => by
    unfold returnRun at h
    split at h
    · rcases List.mem_cons.1 h with rfl | h
      · exact .inr ⟨y, List.mem_cons_self .., rfl⟩
      · exact (returnRun_first h).imp_right fun ⟨z, hz, e⟩ => ⟨z, List.mem_cons_of_mem _ hz, e⟩
    · split at h
      · refine .inr ((joinRun_first h).elim (fun e => ⟨x, List.mem_cons_self .., e⟩) fun ⟨z, hz, e⟩ => ?_)
        exact ⟨z, List.mem_cons_of_mem _ hz, e⟩
      · exact joinRun_first h

theorem joinRun_separated {r : FreeRun} {runs : List FreeRun} (sep : Separated runs)
    (below : ∀ x ∈ runs, r.first + r.count ≤ x.first) (pos : ∀ x ∈ runs, 0 < x.count) : Separated (joinRun r runs) := by
  cases runs with
  | nil => exact List.pairwise_singleton _ _
  | cons x rest =>
    have above := (List.pairwise_cons.1 sep).1
    have hx := below x (List.mem_cons_self ..)
    have hpos := pos x (List.mem_cons_self ..)
    rw [joinRun]
    split
    · refine List.pairwise_cons.2 ⟨fun y hy => ?_, (List.pairwise_cons.1 sep).2⟩
      have := above y hy
      dsimp only
      omega
    · refine List.pairwise_cons.2 ⟨fun y hy => ?_, sep⟩
      rcases List.mem_cons.1 hy with rfl | hy
      · omega
      · have := above y hy
        omega

theorem returnRun_separated {r : FreeRun} (hr : 0 < r.count) : ∀ {runs : List FreeRun}, Separated runs →
    (∀ x ∈ runs, 0 < x.count) → (∀ x ∈ runs, x.Apart r) → Separated (returnRun r runs)
  | [], _, _, _ => List.pairwise_singleton _ _
  | x :: rest, sep, pos, apart => by
    obtain ⟨above, sepRest⟩ := List.pairwise_cons.1 sep
    have posRest : ∀ y ∈ rest, 0 < y.count := fun y hy => pos y (List.mem_cons_of_mem _ hy)
    have apartRest : ∀ y ∈ rest, y.Apart r := fun y hy => apart y (List.mem_cons_of_mem _ hy)
    have hx := apart x (List.mem_cons_self ..)
    unfold returnRun
    split
    · next below =>
      refine List.pairwise_cons.2 ⟨fun y hy => ?_, returnRun_separated hr sepRest posRest apartRest⟩
      rcases returnRun_first hy with e | ⟨z, hz, e⟩
      · exact e ▸ below
      · exact e ▸ above z hz
    · split
      · next meets =>
        refine joinRun_separated sepRest (fun y hy => ?_) posRest
        have := above y hy
        have := apartRest y hy
        dsimp only [FreeRun.Apart] at this ⊢
        omega
      · next behind touches =>
        have hxr : r.first + r.count ≤ x.first := hx.resolve_left (by omega)
        refine joinRun_separated sep (fun y hy => ?_) pos
        rcases List.mem_cons.1 hy with rfl | hy
        · exact hxr
        · have := above y hy
          omega

theorem joinRun_pos {r : FreeRun} {runs : List FreeRun} (hr : 0 < r.count) (pos : ∀ x ∈ runs, 0 < x.count) :
    ∀ x ∈ joinRun r runs, 0 < x.count := by
  cases runs with
  | nil => simpa [joinRun] using hr
  | cons x rest =>
    obtain ⟨hx, hrest⟩ := List.forall_mem_cons.1 pos
    rw [joinRun]
    split
    · exact List.forall_mem_cons.2 ⟨Nat.add_pos_left hr _, hrest⟩
    · exact List.forall_mem_cons.2 ⟨hr, pos⟩

theorem returnRun_pos {r : FreeRun} (hr : 0 < r.count) : ∀ {runs : List FreeRun}, (∀ x ∈ runs, 0 < x.count) →
    ∀ x ∈ returnRun r runs, 0 < x.count
  | [], _ => by simpa [returnRun] using hr
  | x :: rest, pos => by
    obtain ⟨hx, hrest⟩ := List.forall_mem_cons.1 pos
    unfold returnRun
    split
    · exact List.forall_mem_cons.2 ⟨hx, returnRun_pos hr hrest⟩
    · split
      · exact joinRun_pos (Nat.add_pos_left hx _) hrest
      · exact joinRun_pos hr pos

/-- A block lies in a run. -/
abbrev FreeRun.Holds (x : FreeRun) (b : Nat) : Prop := x.first ≤ b ∧ b < x.first + x.count

/-- Two runs of which one begins where the other ends hold the blocks of both. -/
theorem FreeRun.holds_joined {r x : FreeRun} (meets : r.first + r.count = x.first) (b : Nat) :
    ({ first := r.first, count := r.count + x.count } : FreeRun).Holds b ↔ r.Holds b ∨ x.Holds b := by
  dsimp only [FreeRun.Holds]
  omega

theorem joinRun_holds (r : FreeRun) (runs : List FreeRun) (b : Nat) :
    (∃ x ∈ joinRun r runs, x.Holds b) ↔ r.Holds b ∨ ∃ x ∈ runs, x.Holds b := by
  cases runs with
  | nil => exact List.exists_mem_cons_iff ..
  | cons x rest =>
    rw [joinRun]
    split
    · next meets => rw [List.exists_mem_cons_iff, List.exists_mem_cons_iff, FreeRun.holds_joined meets, or_assoc]
    · exact List.exists_mem_cons_iff ..

theorem returnRun_holds (r : FreeRun) (b : Nat) : ∀ runs : List FreeRun,
    (∃ x ∈ returnRun r runs, x.Holds b) ↔ r.Holds b ∨ ∃ x ∈ runs, x.Holds b
  | [] => List.exists_mem_cons_iff ..
  | x :: rest => by
    unfold returnRun
    split
    · rw [List.exists_mem_cons_iff, List.exists_mem_cons_iff, returnRun_holds r b rest, or_left_comm]
    · split
      · next meets => rw [joinRun_holds, List.exists_mem_cons_iff, FreeRun.holds_joined meets, or_right_comm, or_comm]
      · exact joinRun_holds r _ b

/-- Settles O41: the returned run is placed behind the runs that end below it, and joined on either side where it touches. -/
theorem returnedRunMerges : Obligations.ReturnedRunMerges := fun r runs hr pos sep apart =>
  ⟨returnRun_separated hr sep pos apart, returnRun_pos hr pos, fun b => returnRun_holds r b runs⟩

end Machine
end Sys2Proof
end

section
/-! PROOFS. The blocks of packet memory as shares of 8,192 (R112): what the opening of a load takes and what a position made EMPTY
gives back (R118, R127, R128). -/

set_option Elab.async false

namespace Sys2Proof
namespace Machine

/-! ## Shares of the packet memory (R112) -/

/-- Runs that share out the 8,192 blocks: none empty, none past the last block, no two with a block in common. -/
structure Tiles (runs : List FreeRun) : Prop where
  total : freeBlocks runs = 8192
  within : ∀ r ∈ runs, 0 < r.count ∧ r.first + r.count ≤ 8192
  apart : runs.Pairwise FreeRun.Apart

theorem FreeRun.Apart.symm {a b : FreeRun} (h : a.Apart b) : b.Apart a := Or.symm h

theorem freeBlocks_cons (r : FreeRun) (runs : List FreeRun) : freeBlocks (r :: runs) = r.count + freeBlocks runs := rfl

theorem freeBlocks_append (xs ys : List FreeRun) : freeBlocks (xs ++ ys) = freeBlocks xs + freeBlocks ys := by
  simp [freeBlocks]

theorem Tiles.perm {xs ys : List FreeRun} (h : Tiles xs) (p : xs.Perm ys) : Tiles ys where
  total := (List.Perm.sum_nat (p.map FreeRun.count)).symm.trans h.total
  within r hr := h.within r (p.mem_iff.2 hr)
  apart := (p.pairwise_iff FreeRun.Apart.symm).1 h.apart

/-- A run cut in two is apart from what the whole run is apart from. -/
theorem FreeRun.apart_cut {first a b : Nat} {x : FreeRun} (hx : 0 < x.count) :
    ({ first := first, count := a + b } : FreeRun).Apart x ↔
      ({ first := first, count := a } : FreeRun).Apart x ∧ ({ first := first + a, count := b } : FreeRun).Apart x := by
  dsimp only [FreeRun.Apart]
  omega

/-- A run cut in two shares out the memory as the whole run does. -/
theorem tiles_cut {first a b : Nat} (ha : 0 < a) (hb : 0 < b) {rest : List FreeRun} :
    Tiles ({ first := first, count := a + b } :: rest) ↔
      Tiles ({ first := first, count := a } :: { first := first + a, count := b } :: rest) := by
  constructor
  · rintro ⟨total, within, apart⟩
    obtain ⟨whole, others⟩ := List.forall_mem_cons.1 within
    obtain ⟨clear, apart⟩ := List.pairwise_cons.1 apart
    have clear : ∀ x ∈ rest, _ := fun x hx => (FreeRun.apart_cut (others x hx).1).1 (clear x hx)
    simp only [freeBlocks_cons] at total
    refine ⟨?_, ?_, ?_⟩
    · simp only [freeBlocks_cons]
      omega
    · refine List.forall_mem_cons.2 ⟨?_, List.forall_mem_cons.2 ⟨?_, others⟩⟩ <;> dsimp only at whole ⊢ <;> omega
    · refine List.pairwise_cons.2 ⟨List.forall_mem_cons.2 ⟨.inl (Nat.le_refl _), fun x hx => (clear x hx).1⟩,
        List.pairwise_cons.2 ⟨fun x hx => (clear x hx).2, apart⟩⟩
  · rintro ⟨total, within, apart⟩
    obtain ⟨left, right, others⟩ := (List.forall_mem_cons.1 within).imp_right List.forall_mem_cons.1
    obtain ⟨clearLeft, clearRight, apart⟩ := (List.pairwise_cons.1 apart).imp_right List.pairwise_cons.1
    simp only [freeBlocks_cons] at total
    refine ⟨?_, List.forall_mem_cons.2 ⟨?_, others⟩, List.pairwise_cons.2 ⟨fun x hx => ?_, apart⟩⟩
    · simp only [freeBlocks_cons]
      omega
    · dsimp only at left right ⊢
      omega
    · exact (FreeRun.apart_cut (others x hx).1).2 ⟨clearLeft x (List.mem_cons_of_mem _ hx), clearRight x hx⟩

/-- The first blocks of a run taken and what is left of it share out the memory as the run does (R118). -/
theorem Tiles.take {f : FreeRun} {c : Nat} {rest : List FreeRun} (h : Tiles (f :: rest)) (hc : 0 < c) (fits : c ≤ f.count) :
    Tiles ({ first := f.first, count := c } :: (f.cutAfter c ++ rest)) := by
  unfold FreeRun.cutAfter
  split
  · next whole => exact whole ▸ h
  · next part =>
    refine (tiles_cut hc (b := f.count - c) (by omega)).1 ?_
    rwa [Nat.add_sub_cancel' fits]

theorem Tiles.join {r : FreeRun} {runs others : List FreeRun} (h : Tiles (r :: (runs ++ others))) :
    Tiles (joinRun r runs ++ others) := by
  cases runs with
  | nil => exact h
  | cons x rest =>
    rw [joinRun]
    split
    · next meets =>
      obtain ⟨left, right, -⟩ := (List.forall_mem_cons.1 h.within).imp_right List.forall_mem_cons.1
      refine (tiles_cut left.1 right.1).2 ?_
      rw [meets]
      exact h
    · exact h

/-- A run handed back to the free run list shares out the memory as it did outside of it (R117). -/
theorem Tiles.giveBack {r : FreeRun} : ∀ {runs others : List FreeRun}, Tiles (r :: (runs ++ others)) →
    Tiles (returnRun r runs ++ others)
  | [], _, h => h
  | x :: rest, others, h => by
    unfold returnRun
    split
    · have moved : Tiles (r :: (rest ++ x :: others)) := h.perm (List.perm_middle.symm.cons r)
      exact moved.giveBack.perm List.perm_middle
    · split
      · next meets =>
        obtain ⟨right, left, -⟩ := (List.forall_mem_cons.1 h.within).imp_right List.forall_mem_cons.1
        refine Tiles.join ((tiles_cut left.1 right.1).2 ?_)
        rw [meets]
        exact h.perm (.swap _ _ _)
      · exact h.join

/-- First fit leaves the free runs rising with no two adjacent. -/
theorem Separated.cutAfter {before after : List FreeRun} {f : FreeRun} {c : Nat} (h : Separated (before ++ f :: after))
    (fits : c ≤ f.count) : Separated (before ++ f.cutAfter c ++ after) := by
  unfold FreeRun.cutAfter
  split
  · exact h.sublist (by simp)
  · obtain ⟨sepBefore, sepRest, below⟩ := List.pairwise_append.1 h
    obtain ⟨above, sepAfter⟩ := List.pairwise_cons.1 sepRest
    rw [List.append_assoc]
    refine List.pairwise_append.2 ⟨sepBefore, List.pairwise_cons.2 ⟨fun y hy => ?_, sepAfter⟩, fun x hx =>
      List.forall_mem_cons.2 ⟨?_, fun y hy => below x hx y (List.mem_cons_of_mem _ hy)⟩⟩
    · have := above y hy
      dsimp only
      omega
    · exact Nat.lt_add_right _ (below x hx f (List.mem_cons_self ..))

/-! ## The condition as shares -/

/-- A clip's run of blocks. -/
abbrev Clip.run (c : Clip) : FreeRun := { first := c.firstBlock, count := c.blockCount }

/-- The runs of the clips in a directory. -/
abbrev directoryRuns (dir : List (Nat × Clip)) : List FreeRun := dir.map (fun x => x.2.run)

/-- The feed ring's run of blocks (R112). -/
abbrev ringRun (ringSize : Nat) : FreeRun := { first := 0, count := ringSize / 64 }

theorem blockRuns_eq (s : State) :
    s.blockRuns = ringRun s.fiu.ringSize :: (directoryRuns s.csc.directory ++ s.csc.freeRuns) := rfl

theorem blocksAccounted_iff (s : State) : s.BlocksAccounted ↔
    (s.csc.directory.map (·.1)).Nodup ∧ Tiles s.blockRuns ∧ Separated s.csc.freeRuns := by
  have total : freeBlocks s.blockRuns = s.fiu.ringSize / 64 + clipBlocks s.csc.directory + freeBlocks s.csc.freeRuns := by
    have clips : freeBlocks (directoryRuns s.csc.directory) = clipBlocks s.csc.directory := by
      simp [freeBlocks, clipBlocks, Function.comp_def]
    rw [blockRuns_eq, freeBlocks_cons, freeBlocks_append, clips, Nat.add_assoc]
  constructor
  · rintro ⟨positions, blocks, within, apart, sep⟩
    exact ⟨positions, ⟨total.trans blocks, within, apart⟩, sep⟩
  · rintro ⟨positions, ⟨blocks, within, apart⟩, sep⟩
    exact ⟨positions, total.symm.trans blocks, within, apart, sep⟩

/-! ## A load opened, a position made EMPTY (R118, R127, R128) -/

theorem placeClip_perm (p : Nat) (c : Clip) : ∀ dir : List (Nat × Clip), (placeClip p c dir).Perm ((p, c) :: dir)
  | [] => .refl _
  | x :: rest => by
    unfold placeClip
    split
    · exact .refl _
    · exact ((placeClip_perm p c rest).cons x).trans (.swap _ _ _)

/-- A directory that names each position once is the clip at a position and the clips at all others. -/
theorem directory_perm_filter {p : Nat} {c : Clip} : ∀ {dir : List (Nat × Clip)}, (dir.map (·.1)).Nodup → (p, c) ∈ dir →
    dir.Perm ((p, c) :: dir.filter (fun x => x.1 ≠ p))
  | x :: rest, nodup, h => by
    obtain ⟨new, nodup⟩ := List.nodup_cons.1 nodup
    rcases List.mem_cons.1 h with rfl | h
    · have others : ∀ y ∈ rest, decide (y.1 ≠ p) = true := fun y hy =>
        decide_eq_true fun e => new (List.mem_map.2 ⟨y, hy, e⟩)
      rw [List.filter_cons_of_neg (by simp), List.filter_eq_self.2 others]
    · have other : x.1 ≠ p := fun e => new (List.mem_map.2 ⟨_, h, e.symm⟩)
      rw [List.filter_cons_of_pos (by simpa using other)]
      exact ((directory_perm_filter nodup h).cons x).trans (.swap _ _ _)

theorem clipAt_mem {dir : List (Nat × Clip)} {p : Nat} {c : Clip} (h : clipAt? dir p = some c) : (p, c) ∈ dir := by
  obtain ⟨x, hx, rfl⟩ := Option.map_eq_some_iff.1 h
  have at_p : x.1 = p := by simpa using List.find?_some hx
  exact at_p ▸ List.mem_of_find?_eq_some hx

/-- The runs after a load opened: ring, the clip's run, the other clips' and the free runs, in the order of `Tiles.take`. -/
theorem openedRuns_perm (ring r : FreeRun) (clips before left after : List FreeRun) :
    (ring :: (r :: clips ++ (before ++ left ++ after))).Perm (r :: (left ++ (ring :: (clips ++ before) ++ after))) := by
  have others := List.perm_append_comm_assoc (ring :: (clips ++ before)) left after
  rw [List.cons_append]
  refine (List.Perm.swap _ _ _).trans (.cons r ?_)
  simpa only [List.append_assoc, List.cons_append] using others

theorem startLoad_blocksAccounted {s : State} {p : Nat} {c : Clip} {runs : List FreeRun} (h : s.BlocksAccounted)
    (hp : lowestEmpty? s.csc.directory = some p) (hc : 0 < c.blockCount)
    (hruns : takeRun c.blockCount s.csc.freeRuns = some (c.firstBlock, runs)) : (s.startLoad p c runs).BlocksAccounted := by
  rw [blocksAccounted_iff] at h ⊢
  obtain ⟨positions, tiles, sep⟩ := h
  obtain ⟨before, f, after, free, fits, firstBlock, rfl⟩ := takeRun_some hruns
  rw [blockRuns_eq, free] at tiles
  rw [free] at sep
  have placed := placeClip_perm p c s.csc.directory
  refine ⟨?_, ?_, sep.cutAfter fits⟩
  · refine (placed.map (·.1)).nodup_iff.2 (List.nodup_cons.2 ⟨fun hmem => ?_, positions⟩)
    obtain ⟨x, hx, e⟩ := List.mem_map.1 hmem
    exact (lowestEmpty_spec hp).2 x hx e
  · have whole : Tiles (f :: (ringRun s.fiu.ringSize :: (directoryRuns s.csc.directory ++ before) ++ after)) :=
      tiles.perm (by rw [← List.append_assoc, ← List.cons_append]; exact List.perm_middle)
    have taken := whole.take hc fits
    rw [← firstBlock] at taken
    have opened : (s.startLoad p c (before ++ f.cutAfter c.blockCount ++ after)).blockRuns = ringRun s.fiu.ringSize ::
      (directoryRuns (placeClip p c s.csc.directory) ++ (before ++ f.cutAfter c.blockCount ++ after)) := rfl
    rw [opened]
    refine taken.perm (List.Perm.trans ?_ (((placed.map (·.2.run)).append_right _).cons _).symm)
    exact (openedRuns_perm _ _ _ _ _ _).symm

theorem emptyPosition_blocksAccounted {s : State} {p : Nat} {c : Clip} (h : s.BlocksAccounted)
    (hc : (p, c) ∈ s.csc.directory) : (s.emptyPosition p c).BlocksAccounted := by
  rw [blocksAccounted_iff] at h ⊢
  obtain ⟨positions, tiles, sep⟩ := h
  have given : Tiles (c.run :: (s.csc.freeRuns
      ++ ringRun s.fiu.ringSize :: directoryRuns (s.csc.directory.filter (fun x => x.1 ≠ p)))) := by
    refine tiles.perm ?_
    refine ((((directory_perm_filter positions hc).map (·.2.run)).append_right _).cons _).trans ((List.Perm.swap _ _ _).trans ?_)
    exact .cons _ (List.perm_append_comm (l₁ := ringRun s.fiu.ringSize :: directoryRuns _))
  obtain ⟨pos, within⟩ := List.forall_mem_cons.1 given.within
  have apart := (List.pairwise_cons.1 given.apart).1
  refine ⟨positions.sublist (List.filter_sublist.map _), ?_, ?_⟩
  · exact given.giveBack.perm (List.perm_append_comm (l₂ := ringRun s.fiu.ringSize :: directoryRuns _))
  · exact returnRun_separated pos.1 sep (fun x hx => (within x (List.mem_append_left _ hx)).1)
      fun x hx => (apart x (List.mem_append_left _ hx)).symm

end Machine
end Sys2Proof
end

section
/-! PROOFS. Every step keeps the packet memory canonical and its blocks accounted for (R112 to R135): what leaves memory, ring
size, the clips' runs and the free runs alone, and what moves a run or writes a slot. -/

set_option Elab.async false

namespace Sys2Proof
namespace Machine

/-! ## The two conditions as one -/

/-- From `s` to `t` the packet memory keeps its canonical form, and its blocks stay accounted for. -/
structure StoreKept (s t : State) : Prop where
  memory : s.MemoryCanonical → t.MemoryCanonical
  blocks : s.BlocksAccounted → t.BlocksAccounted

/-- The positions of a directory with their clips' runs: all that the blocks' account reads of it. -/
def clipRuns (dir : List (Nat × Clip)) : List (Nat × FreeRun) := dir.map (fun x => (x.1, x.2.run))

theorem positions_of_clipRuns (dir : List (Nat × Clip)) : dir.map (·.1) = (clipRuns dir).map (·.1) := by
  simp [clipRuns, Function.comp_def]

theorem directoryRuns_of_clipRuns (dir : List (Nat × Clip)) : directoryRuns dir = (clipRuns dir).map (·.2) := by
  simp [clipRuns, Function.comp_def]

theorem clipRuns_mapClipAt (dir : List (Nat × Clip)) (p : Nat) {f : Clip → Clip} (hf : ∀ c, (f c).run = c.run) :
    clipRuns (mapClipAt dir p f) = clipRuns dir := by
  unfold clipRuns mapClipAt
  rw [List.map_map]
  refine List.map_congr_left fun x _ => ?_
  dsimp only [Function.comp]
  split
  · exact congrArg _ (hf x.2)
  · rfl

theorem clipRuns_mapClipId (dir : List (Nat × Clip)) (id : Word32) {f : Clip → Clip} (hf : ∀ c, (f c).run = c.run) :
    clipRuns (mapClipId dir id f) = clipRuns dir := by
  unfold clipRuns mapClipId
  rw [List.map_map]
  refine List.map_congr_left fun x _ => ?_
  dsimp only [Function.comp]
  split
  · exact congrArg _ (hf x.2)
  · rfl

theorem blocksAccounted_of_runs {s t : State} (ring : t.fiu.ringSize = s.fiu.ringSize)
    (clips : clipRuns t.csc.directory = clipRuns s.csc.directory) (free : t.csc.freeRuns = s.csc.freeRuns)
    (h : s.BlocksAccounted) : t.BlocksAccounted := by
  rw [blocksAccounted_iff, blockRuns_eq, positions_of_clipRuns, directoryRuns_of_clipRuns] at h ⊢
  rwa [ring, clips, free]

section
variable {s t u : State}

theorem StoreKept.refl (s : State) : StoreKept s s := ⟨id, id⟩

theorem StoreKept.trans (h : StoreKept s t) (k : StoreKept t u) : StoreKept s u :=
  ⟨fun m => k.memory (h.memory m), fun b => k.blocks (h.blocks b)⟩

theorem StoreKept.after (k : StoreKept t u) (h : StoreKept s t) : StoreKept s u := h.trans k

theorem StoreKept.ite {c : Prop} [Decidable c] (h : StoreKept s t) (k : StoreKept s u) :
    StoreKept s (if c then t else u) := by
  split
  · exact h
  · exact k

theorem StoreKept.foldl {α : Type} (f : State → α → State) (h : ∀ s x, StoreKept s (f s x)) :
    ∀ (l : List α) (s : State), StoreKept s (l.foldl f s)
  | [], s => .refl s
  | x :: l, s => (h s x).trans (StoreKept.foldl f h l (f s x))

/-- The memory, the ring size, the clips' runs and the free runs stay as they are. -/
theorem StoreKept.of_same (memory : t.csc.memory = s.csc.memory) (ring : t.fiu.ringSize = s.fiu.ringSize)
    (clips : clipRuns t.csc.directory = clipRuns s.csc.directory) (free : t.csc.freeRuns = s.csc.freeRuns) : StoreKept s t :=
  ⟨fun h => (congrArg Memory.wf memory).trans h, blocksAccounted_of_runs ring clips free⟩

/-- What touches neither the Feed Intake nor the Clip Store Controller. -/
theorem StoreKept.of_frame {a : List Part} (h : OnlyChanges a s t) (hf : .fiu ∉ a := by decide) (hc : .csc ∉ a := by decide) :
    StoreKept s t := by
  have fiu : t.fiu = s.fiu := h .fiu hf
  have csc : t.csc = s.csc := h .csc hc
  exact .of_same (by rw [csc]) (by rw [fiu]) (by rw [csc]) (by rw [csc])

theorem StoreKept.setFiu {x : Fiu} (h : x.ringSize = s.fiu.ringSize := by rfl) : StoreKept s (s.setFiu x) :=
  .of_same rfl h rfl rfl

theorem StoreKept.setCsc {x : Csc} (memory : x.memory = s.csc.memory := by rfl)
    (clips : clipRuns x.directory = clipRuns s.csc.directory := by rfl) (free : x.freeRuns = s.csc.freeRuns := by rfl) :
    StoreKept s (s.setCsc x) := .of_same memory rfl clips free

/-- A slot written in the packet memory, with the clips' runs and the free runs as they are (R113). -/
theorem StoreKept.writeSlot {x : Csc} {slot : Nat} {bytes : List Byte}
    (memory : x.memory = Memory.writeSlot s.csc.memory slot bytes := by rfl)
    (clips : clipRuns x.directory = clipRuns s.csc.directory := by rfl) (free : x.freeRuns = s.csc.freeRuns := by rfl) :
    StoreKept s (s.setCsc x) :=
  ⟨fun h => (congrArg Memory.wf memory).trans (Memory.writeSlot_wf h), blocksAccounted_of_runs rfl clips free⟩

/-- What an owner answers keeps the store where the state that it answers does. -/
theorem StoreKept.owned {c : ResultCode} {v : List Byte} (h : StoreKept s t) :
    StoreKept s ({ state := t, code := c, value := v } : Taken).state := h

theorem storeKept_beyondPort : BeyondPort StoreKept where
  trans := .trans
  port h := .of_frame h

theorem ifRunning_storeKept {f : State → State} (h : ifRunning s f = .next t) (hf : StoreKept s (f s)) : StoreKept s t := by
  rcases ifRunning_next h with rfl | rfl
  · exact .refl _
  · exact hf

end

/-! ## Pins and break entries (R103, R129) -/

/-- Clips changed in place, by a change that leaves their runs. -/
theorem StoreKept.mapClipId (s : State) (id : Word32) {f : Clip → Clip} (hf : ∀ c, (f c).run = c.run) :
    StoreKept s (s.setCsc { s.csc with directory := mapClipId s.csc.directory id f }) :=
  .setCsc (clips := clipRuns_mapClipId _ id hf)

theorem addPin_storeKept (s : State) (id : Word32) : StoreKept s (s.addPin id) :=
  .mapClipId s id (f := fun c => { c with pins := c.pins + 1 }) fun _ => rfl

theorem dropPin_storeKept (s : State) (id : Word32) : StoreKept s (s.dropPin id) :=
  .mapClipId s id (f := fun c => { c with pins := c.pins - 1 }) fun _ => rfl

theorem addPins_storeKept (s : State) (ids : List Word32) : StoreKept s (s.addPins ids) := .foldl _ addPin_storeKept ids s

theorem dropPins_storeKept (s : State) (ids : List Word32) : StoreKept s (s.dropPins ids) := .foldl _ dropPin_storeKept ids s

/-- A break entry changed, the pins of its booking dropped and a notice raised: every way in which an entry lets its clips go. -/
theorem unpinned_storeKept (s : State) (n : Word16) (f : BreakEntry → BreakEntry) (ids : List Word32) (k : NoticeKind)
    (j : Subject) (d : Detail) : StoreKept s (((s.updateBreak n f).dropPins ids).raiseBoth k j d) :=
  ((StoreKept.of_frame (updateBreak_frame s n f)).trans (dropPins_storeKept _ ids)).trans (.of_frame (raiseBoth_frame _ k j d))

theorem finishBreak_storeKept (s : State) (e : BreakEntry) (x : BreakState) (o : BreakOutcome) :
    StoreKept s (s.finishBreak e x o) := unpinned_storeKept s _ _ _ _ _ _

theorem fallBack_storeKept (s : State) (e : BreakEntry) (w : FallbackReason) : StoreKept s (s.fallBack e w) :=
  unpinned_storeKept s _ _ _ _ _ _

theorem removeBooking_storeKept (s : State) (e : BreakEntry) (x : BreakState) (w : Option FallbackReason) :
    StoreKept s (s.removeBooking e x w) := unpinned_storeKept s _ _ _ _ _ _

/-! ## The Break Plan Unit (R86 to R107) -/

theorem evaluate_storeKept (s : State) (n : Word16) : StoreKept s (s.evaluate n) := by
  unfold State.evaluate
  split
  · split
    · exact fallBack_storeKept s _ _
    · exact .of_frame (armBreak_frame s _)
  · exact .refl s

theorem reachArm_storeKept (s : State) (n : Word16) : StoreKept s (s.reachArm n) := by
  unfold State.reachArm
  split
  · exact .ite (evaluate_storeKept s n) (.refl s)
  · exact .refl s

theorem reachEnd_storeKept (s : State) (n : Word16) : StoreKept s (s.reachEnd n) := by
  unfold State.reachEnd
  split
  · refine .ite ?_ (.refl s)
    unfold State.endBreak
    exact .ite (.after (finishBreak_storeKept _ _ _ _) (.of_frame (countBpu_frame s _))) (finishBreak_storeKept s _ _ _)
  · exact .refl s

theorem afterRevision_storeKept (s : State) (old new : BreakEntry) : StoreKept s (s.afterRevision old new) := by
  unfold State.afterRevision
  refine .ite (.ite (.of_frame (updateBreak_frame s _ _)) (.refl s)) ?_
  have armed : StoreKept s
      (if decide (new.arm ≠ old.arm) || decide (new.state ≠ old.state) then s.reachArm new.number else s) :=
    .ite (reachArm_storeKept s _) (.refl s)
  exact .ite (armed.trans (reachEnd_storeKept _ _)) armed

theorem revise_storeKept (s : State) (e : BreakEntry) (f : NoticeFields) : StoreKept s (s.revise e f) := by
  have refused : ∀ w, StoreKept s (s.refuseNotice f.number w) := fun w => .of_frame (refuseNotice_frame s _ w)
  have revised : ∀ {u : State} {new : BreakEntry}, StoreKept s u →
      StoreKept s (if contentDiffers new e then (u.installRevision e new).afterRevision e new else u) := fun hu =>
    .ite ((hu.trans (.of_frame (installRevision_frame _ _ _))).trans (afterRevision_storeKept _ _ _)) hu
  unfold State.revise
  exact .ite (.refl s) (.ite (refused _) (.ite (refused _) (.ite (refused _) (.ite (refused _)
    (revised (.ite (.of_frame (countBpu_frame s _)) (.refl s)))))))

theorem takeNotice_storeKept (s : State) (f : NoticeFields) : StoreKept s (s.takeNotice f) := by
  unfold State.takeNotice
  split
  · exact revise_storeKept s _ f
  · split
    · exact .of_frame (newBreak_frame s _ _ _ _)
    all_goals exact .refl s

theorem takeCancel_storeKept (s : State) (n : Word16) : StoreKept s (s.takeCancel n) := by
  unfold State.takeCancel
  split
  · exact .of_frame (countBpu_frame s _)
  · exact .ite (.refl s) (.ite (.of_frame (updateBreak_frame s n _)) (finishBreak_storeKept s _ _ _))

theorem installBooking_storeKept (s : State) (r : Role) (e : BreakEntry) : StoreKept s (s.installBooking r e) := by
  have booked : ∀ (clips : List Word32) (f : BreakEntry → BreakEntry),
      StoreKept s ((((s.addPins clips).dropPins e.pinned).updateBreak e.number f).updateStaging r (fun _ => {})) := fun clips f =>
    ((addPins_storeKept s clips).trans (dropPins_storeKept _ _)).trans
      (.after (.of_frame (updateStaging_frame _ r _)) (.of_frame (updateBreak_frame _ _ f)))
  unfold State.installBooking
  dsimp only
  split
  · refine .after (.of_frame (raiseTo_frame _ _ _ _ _)) (.after (.of_frame (raiseBoth_frame _ _ _ _)) ?_)
    exact .after (.of_frame (countBpu_frame _ _)) (.after (.of_frame (updateStaging_frame _ _ _)) (booked _ _))
  · exact .after (.of_frame (raiseBoth_frame _ _ _ _)) (.after (.of_frame (countBpu_frame _ _)) (booked _ _))

theorem ownConfirm_storeKept (r : Role) (s : State) : StoreKept s (ownConfirm r s).state := by
  have refused : ∀ c v, StoreKept s (refuseConfirm s c v).state := fun _ _ => .owned (.of_frame (countBpu_frame s _))
  unfold ownConfirm
  split
  · exact refused _ _
  · exact refused _ _
  · split
    · exact refused _ _
    · split
      · exact refused _ _
      · split
        · exact refused _ _
        · split
          · exact refused _ _
          · exact installBooking_storeKept s r _

theorem ownClearBooking_storeKept (n : Word16) (s : State) : StoreKept s (ownClearBooking n s).state := by
  unfold ownClearBooking
  split
  · exact .refl s
  · split
    · exact removeBooking_storeKept s _ _ _
    · split
      · exact (removeBooking_storeKept s _ _ _).trans (.of_frame (raiseBoth_frame _ _ _ _))
      · exact .refl s

/-! ## Directives (R69 to R78) -/

theorem onDirective_storeKept {k : Byte → Bool} {f : State → InHand → Directive → State} {s t : State}
    (h : ifRunning s (·.onDirective k f) = .next t) (hf : ∀ s i d, StoreKept s (f s i d)) : StoreKept s t := by
  refine ifRunning_storeKept h ?_
  unfold State.onDirective
  split
  · split
    · exact .ite (.after (.of_frame (setDdc_frame _ _)) (hf s _ _)) (.refl s)
    · exact .refl s
  · exact .refl s

theorem filterArea_storeKept (s : State) (x : Byte) {f : State → State} (h : StoreKept s (f s)) :
    StoreKept s (s.filterArea x f) := by
  unfold State.filterArea
  exact .ite h (.of_frame (countDdc_frame s _))

theorem reachNotice_storeKept (s : State) (i : InHand) (d : Directive) : StoreKept s (s.reachNotice i d) := by
  unfold State.reachNotice
  split
  · exact .of_frame (malformed_frame s)
  · refine filterArea_storeKept s _ (f := (·.deliverNotice _)) ?_
    unfold State.deliverNotice
    exact .ite (.after (.of_frame (raiseSite_frame _ _ _ _)) (.of_frame (countDdc_frame s _))) (takeNotice_storeKept s _)

theorem reachCancel_storeKept (s : State) (i : InHand) (d : Directive) : StoreKept s (s.reachCancel i d) := by
  unfold State.reachCancel
  exact .ite (filterArea_storeKept s _ (f := (·.takeCancel _)) (takeCancel_storeKept s _)) (.of_frame (malformed_frame s))

/-! ## Hand-offs (R51, R153 to R160) -/

theorem closeWindow_storeKept (s : State) (t : ExactTime) (v : Service) : StoreKept s (s.closeWindow t v) := by
  have spliced : ∀ e, StoreKept s (s.spliceIn v e) := fun e =>
    .after (.after (.of_frame (markReturning_frame _ _)) (.of_frame (updateService_frame _ _ _)))
      (.after (finishBreak_storeKept _ _ _ _) (.of_frame (updateBreak_frame s _ _)))
  unfold State.closeWindow
  split
  · split
    · exact .ite (spliced _) (.refl s)
    · exact .refl s
  · exact .refl s

theorem askClip_storeKept (s : State) (n : Word32) (p : Nat) (c : Clip) (k : Nat) : StoreKept s (s.askClip n p c k) :=
  .ite .setCsc (.refl s)

theorem takeBreakPacket_storeKept (s : State) (n : Word32) (t : SiteTime) (v : Service) (b : Word16) :
    StoreKept s (s.takeBreakPacket n t v b) := by
  unfold State.takeBreakPacket
  dsimp only
  split
  · split
    · split
      · refine .after (.of_frame (updateService_frame _ _ _)) (.after (askClip_storeKept _ _ _ _ _)
          (.after (.of_frame (addPending_frame _ _ _ _)) ?_))
        exact .ite (.of_frame (updateBreak_frame s _ _)) (.refl s)
      · exact .of_frame (addPending_frame s _ _ _)
    · exact .after (.of_frame (addPending_frame _ _ _ _)) (.of_frame (updateBreak_frame s _ _))
  · exact .of_frame (addPending_frame s _ _ _)

theorem takeSlatePacket_storeKept (s : State) (n : Word32) (t : SiteTime) (v : Service) (id : Word32) :
    StoreKept s (s.takeSlatePacket n t v id) := by
  unfold State.takeSlatePacket
  dsimp only
  split
  · exact .after (.of_frame (updateService_frame _ _ _)) (.after (askClip_storeKept _ _ _ _ _)
      (.of_frame (addPending_frame s _ _ _)))
  · exact .of_frame (addPending_frame s _ _ _)

theorem chooseContent_storeKept (s : State) (n : Word32) (t : SiteTime) (v : Service) (p : List Byte) (i : SlotInfo) :
    StoreKept s (s.chooseContent n t v p i) := by
  unfold State.chooseContent
  dsimp only
  split
  · exact takeSlatePacket_storeKept s _ _ _ _
  · split
    · exact .of_frame (addPending_frame s _ _ _)
    · exact takeBreakPacket_storeKept s _ _ _ _
    · exact .of_frame (addPending_frame s _ _ _)

theorem handOff_storeKept (s : State) (n : Word32) (t : ExactTime) (i : SiteTime) (o : SlotOutcome) :
    StoreKept s (s.handOff n t i o) := by
  have closed : StoreKept s (State.closeWindows (s.setSpe { s.spe with fetchInstant := some t }) t) :=
    .after (.foldl _ (fun s v => closeWindow_storeKept s t v) _ _) (.of_frame (setSpe_frame s _))
  unfold State.handOff
  dsimp only
  split
  · split
    · exact closed.trans (.after (chooseContent_storeKept _ _ _ _ _ _) (.of_frame (openWindow_frame _ _ _)))
    · exact closed.trans (.of_frame (addPending_frame _ _ _ _))
  all_goals exact closed.trans (.of_frame (addPending_frame _ _ _ _))

theorem deliverSlot_storeKept (s : State) (q : Requested) (m : Bool) (b : List Byte) : StoreKept s (s.deliverSlot q m b) :=
  .after (.of_frame (markDone_frame _ _)) (.after (handOff_storeKept _ _ _ _ _) (.of_frame (countEsc_frame s _)))

section
variable {s t : State}

theorem execFetchRequest_storeKept (h : execFetchRequest s = .next t) : StoreKept s t := by
  refine ifRunning_storeKept h ?_
  split
  · exact .after (.of_frame (examine_frame _ _)) (.after .setCsc (.of_frame (setEsc_frame s _)))
  · exact .refl s

theorem execRingReadTaken_storeKept (h : execRingReadTaken s = .next t) : StoreKept s t := by
  refine ifRunning_storeKept h (.ite ?_ (.refl s))
  split
  · exact .after (.of_frame (refreshFetch_frame _)) .setCsc
  all_goals exact .refl s

theorem execRingReadComplete_storeKept (h : execRingReadComplete s = .next t) : StoreKept s t := by
  refine ifRunning_storeKept h ?_
  split
  · dsimp only
    split
    · exact .ite (.after (deliverSlot_storeKept _ _ _ _) .setCsc) .setCsc
    · exact .setCsc
  all_goals exact .refl s

end

end Machine
end Sys2Proof
end

section
/-! PROOFS. Every step keeps the packet memory canonical and its blocks accounted for: slate and restarts, the Feed Intake, the
Clip Store Controller, and the step itself. -/

set_option Elab.async false

namespace Sys2Proof
namespace Machine

/-! ## Slate (R168, R170, R173) -/

theorem dropSlate_storeKept (s : State) (v : Service) (id : Word32) : StoreKept s (s.dropSlate v id) :=
  .after (.of_frame (raiseSite_frame _ _ _ _)) (.after (.of_frame (updateService_frame _ _ _)) (dropPin_storeKept s id))

theorem installSlate_storeKept (s : State) (v : Service) (id : Word32) : StoreKept s (s.installSlate v id) := by
  unfold State.installSlate
  refine .after (.of_frame (raiseSite_frame _ _ _ _)) (.after (.of_frame (updateService_frame _ _ _)) ?_)
  split
  · exact (addPin_storeKept s id).trans (dropPin_storeKept _ _)
  · exact addPin_storeKept s id

theorem ownForceSlate_storeKept (v : Byte) (id : Word32) (s : State) : StoreKept s (ownForceSlate v id s).state := by
  unfold ownForceSlate
  split
  · exact .refl s
  · split
    · exact .owned (installSlate_storeKept s _ _)
    · exact .refl s

theorem ownReleaseSlate_storeKept (v : Byte) (s : State) : StoreKept s (ownReleaseSlate v s).state := by
  unfold ownReleaseSlate
  split
  · exact .refl s
  · split
    · exact .refl s
    · exact .owned (.after (.of_frame (afterRelease_frame _ _)) (dropSlate_storeKept s _ _))

/-! ## The Feed Intake (R25 to R40) -/

theorem countFiu_storeKept (s : State) (f : FiuCounters → FiuCounters) : StoreKept s (s.countFiu f) := .setFiu

theorem setFeed_storeKept (s : State) (x : FeedState) : StoreKept s (s.setFeed x) := by
  have csc : (s.setFeed x).csc = s.csc := setFeed_frame s x .csc (by decide)
  exact .of_same (by rw [csc]) (by rw [setFeed_fiu]) (by rw [csc]) (by rw [csc])

theorem goodPacket_storeKept (s : State) : StoreKept s s.goodPacket := by
  have csc : s.goodPacket.csc = s.csc := goodPacket_frame s .csc (by decide)
  obtain ⟨x, g, b, fiu⟩ := goodPacket_fiu s
  exact .of_same (by rw [csc]) (by rw [fiu]) (by rw [csc]) (by rw [csc])

theorem badPacket_storeKept (s : State) : StoreKept s s.badPacket := by
  have csc : s.badPacket.csc = s.csc := badPacket_frame s .csc (by decide)
  obtain ⟨x, g, b, n, fiu⟩ := badPacket_fiu s
  exact .of_same (by rw [csc]) (by rw [fiu]) (by rw [csc]) (by rw [csc])

theorem loseFeed_storeKept (s : State) : StoreKept s s.loseFeed := (countFiu_storeKept s _).trans (setFeed_storeKept _ _)

theorem offerControl_ringSize (f : Fiu) (p : List Byte) (n : Word32) : (f.offerControl p n).ringSize = f.ringSize := by
  unfold Fiu.offerControl
  split <;> rfl

theorem offerEntry_ringSize (f : Fiu) (e : FeedEntry) : (f.offerEntry e).ringSize = f.ringSize := by
  unfold Fiu.offerEntry
  split <;> rfl

theorem complete_ringSize (f : Fiu) (x : Settings) (bytes : List Byte) (ferr : Bool) :
    (f.complete x bytes ferr).ringSize = f.ringSize := by
  unfold Fiu.complete
  dsimp only
  rw [offerEntry_ringSize]
  split
  · exact offerControl_ringSize _ _ _
  · rfl

section
variable {s t : State}

theorem execFeedPacketOpens_storeKept {b : Byte} {e : Bool} (h : execFeedPacketOpens b e s = .next t) : StoreKept s t := by
  refine ifRunning_storeKept h ?_
  split
  · exact .refl s
  all_goals exact .setFiu

theorem execPacketComplete_storeKept {l : List Byte} {e : Bool} (h : execPacketComplete l e s = .next t) : StoreKept s t := by
  refine ifRunning_storeKept h ?_
  split
  · have completed : ∀ b e, StoreKept s (s.setFiu (s.fiu.complete s.sst.live b e)) := fun b e =>
      .setFiu (complete_ringSize _ _ b e)
    exact .ite (.ite ((completed _ _).trans (goodPacket_storeKept _)) ((completed _ _).trans (badPacket_storeKept _))) (.refl s)
  all_goals exact .refl s

theorem execShortPacket_storeKept {b : Byte} {e : Bool} (h : execShortPacket b e s = .next t) : StoreKept s t := by
  refine ifRunning_storeKept h ?_
  split
  · exact .after (badPacket_storeKept _) .setFiu
  all_goals exact .refl s

theorem execLongPacket_storeKept (h : execLongPacket s = .next t) : StoreKept s t := by
  refine ifRunning_storeKept h ?_
  split
  · exact .setFiu
  all_goals exact .refl s

theorem execGapExpiry_storeKept (h : execGapExpiry s = .next t) : StoreKept s t := by
  refine ifRunning_storeKept h (.ite ?_ (.refl s))
  dsimp only
  split
  · exact .after (loseFeed_storeKept _) .setFiu
  · exact .after (setFeed_storeKept _ _) (.after .setFiu .setFiu)
  all_goals exact .setFiu

theorem execFeedWrite_storeKept (h : execFeedWrite s = .next t) : StoreKept s t := by
  refine ifRunning_storeKept h (.ite ?_ (.refl s))
  split
  · exact .refl s
  · next e rest _ =>
    have taken : StoreKept s ((s.setFiu { s.fiu with writeBuffer := rest }).setCsc { s.csc with marker := .feed }) :=
      .after .setCsc .setFiu
    dsimp only
    split
    · exact taken.trans (countFiu_storeKept _ _)
    · exact taken.trans (countFiu_storeKept _ _)
    · exact taken.trans .writeSlot

theorem execTakeControlPacket_storeKept (h : execTakeControlPacket s = .next t) : StoreKept s t := by
  refine ifRunning_storeKept h ?_
  split
  · exact .refl s
  · split
    · exact .refl s
    · exact .after (.of_frame (setDdc_frame _ _)) .setFiu

end

/-! ## The Clip Store Controller (R118 to R130, R158) -/

theorem countCsc_storeKept (s : State) (f : CscCounters → CscCounters) : StoreKept s (s.countCsc f) := .setCsc

theorem setFraming_storeKept (s : State) (f : InsertionFraming) : StoreKept s (s.setFraming f) := .setCsc

theorem openPacket_storeKept (s : State) (b : Byte) : StoreKept s (s.openPacket b) :=
  .ite (setFraming_storeKept s _) (.after (countCsc_storeKept _ _) (setFraming_storeKept s _))

/-- The clip at a position changed in place, by a change that leaves its run. -/
theorem StoreKept.mapClipAt (s : State) (p : Nat) {f : Clip → Clip} (k : CscCounters) (hf : ∀ c, (f c).run = c.run) :
    StoreKept s (s.setCsc { s.csc with directory := mapClipAt s.csc.directory p f, counters := k }) :=
  .setCsc (clips := clipRuns_mapClipAt _ p hf)

theorem faultClip_storeKept (s : State) (p : Nat) (id : Word32) (w : FaultCause) : StoreKept s (s.faultClip p id w) :=
  .after (.of_frame (raiseBoth_frame _ _ _ _))
    (.mapClipAt s p (f := fun c => { c with state := .fault, cause := some w }) _ fun _ => rfl)

theorem closeStamped_storeKept (s : State) (p : Nat) : StoreKept s ((s.setCsc s.csc.closeLoad).stampLoad p) :=
  .after (.mapClipAt (s.setCsc s.csc.closeLoad) p (f := fun c => { c with completed := some s.tbu.time }) s.csc.counters
    fun _ => rfl) .setCsc

theorem faultLoad_storeKept (s : State) (p : Nat) (id : Word32) (w : FaultCause) : StoreKept s (s.faultLoad p id w) :=
  (closeStamped_storeKept s p).trans (faultClip_storeKept _ p id w)

theorem blocksFor_pos {n : Nat} (h : 0 < n) : 0 < blocksFor n := by
  simp only [blocksFor, Config.slotsPerBlock]
  omega

theorem loadService_pos {id : Word32} {v : Byte} {n : Nat} {w : Service} (h : loadService? id v n = some w) : 0 < n := by
  unfold loadService? at h
  split at h
  · exact nomatch h
  · omega

/-- OPEN LOAD takes the run of its clip from the free runs (R118). -/
theorem ownOpenLoad_storeKept (id : Word32) (v : Byte) (n fp : Word32) (s : State) :
    StoreKept s (ownOpenLoad id v n fp s).state := by
  unfold ownOpenLoad
  split
  · exact .refl s
  · split
    · exact .refl s
    · split
      · exact .refl s
      · next position hp =>
        split
        · exact .refl s
        · next w hw =>
          split
          · exact .refl s
          · next first runs hruns =>
            exact ⟨fun m => m, fun b => startLoad_blocksAccounted b hp (blocksFor_pos (loadService_pos hw)) hruns⟩

/-- A position made EMPTY gives its clip's run back (R127, R128). -/
theorem emptyPosition_storeKept {s : State} {p : Nat} {c : Clip} (h : (p, c) ∈ s.csc.directory) :
    StoreKept s (s.emptyPosition p c) := ⟨fun m => m, fun b => emptyPosition_blocksAccounted b h⟩

theorem ownAbortLoad_storeKept (id : Word32) (s : State) : StoreKept s (ownAbortLoad id s).state := by
  unfold ownAbortLoad
  split
  · exact .refl s
  · split
    · next l _ c hc =>
      split
      · exact .owned (.after (emptyPosition_storeKept (clipAt_mem hc)) .setCsc)
      · exact .refl s
    · exact .refl s

theorem ownRetireClip_storeKept (id : Word32) (s : State) : StoreKept s (ownRetireClip id s).state := by
  unfold ownRetireClip
  split
  · exact .refl s
  · next position c hc =>
    split
    · exact .refl s
    · split
      · exact .refl s
      · exact .owned (emptyPosition_storeKept (List.mem_of_find?_eq_some hc))

theorem completeInsertion_storeKept (s : State) (l : LoadContext) (c : Clip) (p : List Byte) :
    StoreKept s (s.completeInsertion l c p) := by
  unfold State.completeInsertion
  split
  · exact .after (countCsc_storeKept _ _) (setFraming_storeKept s _)
  · exact setFraming_storeKept s _
  · exact faultLoad_storeKept s _ _ _
  · exact .setCsc (clips := clipRuns_mapClipAt _ l.position (f := (·.accept s.sst.live.map p)) fun _ => rfl)

theorem completeLoad_storeKept (s : State) (p : Nat) (c : Clip) : StoreKept s (s.completeLoad p c) := by
  unfold State.completeLoad
  dsimp only
  split
  · exact (closeStamped_storeKept s p).trans (faultClip_storeKept _ _ _ _)
  · exact .after (.of_frame (raiseBoth_frame _ _ _ _))
      (.after (.mapClipAt _ p (f := fun x => { x with state := .ready }) _ fun _ => rfl) (closeStamped_storeKept s p))

theorem takeLoadWrite_storeKept (s : State) (l : LoadContext) (c : Clip) (rest : List LoadEntry) (slot : Nat)
    (bytes : List Byte) :
    StoreKept s (s.takeLoadWrite l c rest (Memory.writeSlot s.csc.memory slot bytes)) := by
  have written : StoreKept s (s.setCsc { s.csc with
      memory := Memory.writeSlot s.csc.memory slot bytes, marker := .load, load := some { l with buffer := rest }
      directory := mapClipAt s.csc.directory l.position (fun x => { x with stored := x.stored + 1 }) }) :=
    .writeSlot (clips := clipRuns_mapClipAt _ l.position (f := fun x => { x with stored := x.stored + 1 }) fun _ => rfl)
  unfold State.takeLoadWrite
  exact .ite (written.trans (completeLoad_storeKept _ _ _)) written

theorem takeClipRead_storeKept (s : State) (n : Word32) (b : Bool) (p : Nat) (c : Clip) (r : ClipReadResult) :
    StoreKept s (s.takeClipRead n b p c r) := by
  unfold State.takeClipRead
  dsimp only
  split
  · exact .setCsc
  · have counted : ∀ f, StoreKept s ((s.setCsc { s.csc with taken := some (.clip n b .faulty) }).countCsc f) := fun f =>
      .after (countCsc_storeKept _ f) .setCsc
    unfold State.faultyRead
    exact .ite ((counted _).trans (faultClip_storeKept _ _ _ _)) (counted _)

section
variable {s t : State}

theorem execInsertionShortPacket_storeKept {b : Byte} (h : execInsertionShortPacket b s = .next t) : StoreKept s t := by
  refine ifRunning_storeKept h ?_
  split
  · exact .after (openPacket_storeKept _ _) (.after (countCsc_storeKept _ _) (setFraming_storeKept s _))
  · exact .refl s

theorem execInsertionPacketComplete_storeKept {l : List Byte} (h : execInsertionPacketComplete l s = .next t) :
    StoreKept s t := by
  refine ifRunning_storeKept h ?_
  split
  · exact .ite (completeInsertion_storeKept s _ _ _) (.refl s)
  all_goals exact .refl s

theorem execLoadWrite_storeKept (h : execLoadWrite s = .next t) : StoreKept s t := by
  refine ifRunning_storeKept h (.ite ?_ (.refl s))
  split
  · split
    · exact takeLoadWrite_storeKept s _ _ _ _ _
    · exact .refl s
  · exact .refl s

theorem execLoadIdleTimeout_storeKept (h : execLoadIdleTimeout s = .next t) : StoreKept s t := by
  refine ifRunning_storeKept h ?_
  split
  · exact .ite (faultLoad_storeKept s _ _ _) (.refl s)
  · exact .refl s

theorem execClipReadTaken_storeKept (h : execClipReadTaken s = .next t) : StoreKept s t := by
  refine ifRunning_storeKept h (.ite ?_ (.refl s))
  split
  · dsimp only
    split
    · exact .ite (.after (takeClipRead_storeKept _ _ _ _ _ _) .setCsc) .setCsc
    · exact .setCsc
  all_goals exact .refl s

theorem execClipReadComplete_storeKept (h : execClipReadComplete s = .next t) : StoreKept s t := by
  refine ifRunning_storeKept h ?_
  split
  · exact .ite (.after (.of_frame (setSpe_frame _ _)) .setCsc) .setCsc
  all_goals exact .refl s

end

/-! ## Resets and restarts (R135, R197, R199) -/

/-- In reset the ring has its default size, and the clip store behind it is one free run. -/
theorem enterReset_storeKept (s : State) (src : ResetSource) : StoreKept s (s.enterReset src) :=
  ⟨fun m => m, fun _ => blocksAccounted_of_empty rfl (show [⟨256, 7936⟩] = [clipStoreRun 16384] by decide)
    (show 16384 ∈ ringSizes by decide)⟩

theorem endReset_storeKept (s : State) (src : ResetSource) (a1 a2 : Bool) : StoreKept s (s.endReset src a1 a2) :=
  ⟨fun m => m, fun _ => blocksAccounted_of_empty rfl rfl (loadedSettings_bounds s.sst.image).2⟩

theorem restartEntry_storeKept (s : State) (e : BreakEntry) : StoreKept s (s.restartEntry e) :=
  .ite (finishBreak_storeKept s _ _ _) (.ite (fallBack_storeKept s _ _) (.refl s))

theorem releaseAtRestart_storeKept (s : State) (v : Service) : StoreKept s (s.releaseAtRestart v) := by
  unfold State.releaseAtRestart
  split
  · exact dropSlate_storeKept s _ _
  · exact .refl s

theorem ownStreamRestart_storeKept (s : State) : StoreKept s (ownStreamRestart s).state := by
  have fed : ∀ s, StoreKept s (State.restartFiu s) := fun s => .after (setFeed_storeKept _ _) .setFiu
  have stopped : StoreKept s s.streamsStopped :=
    .after (.of_frame (restartEsc_frame _)) (.after (.of_frame (restartDdc_frame _))
      (.after .setCsc (.after (fed _) (.of_frame (noteRestart_frame s)))))
  have planned : ∀ s, StoreKept s (State.restartBpu s) := fun s => .foldl _ restartEntry_storeKept s.bpu.table s
  have released : ∀ s, StoreKept s (State.restartSpe s) := fun s =>
    .after (.of_frame (setSpe_frame _ _)) (.foldl _ releaseAtRestart_storeKept Service.all s)
  exact .owned (.after (released _) (.after (planned _) stopped))

theorem clearCounters_storeKept (s : State) : StoreKept s s.clearCounters := .of_same rfl rfl rfl rfl

/-! ## Every command and every step -/

theorem commandOwner_storeKept (r : Role) (k : CommandKind) (args : List Byte) (s : State) :
    StoreKept s (commandOwner r k args s).state := by
  cases k
  case confirm => exact ownConfirm_storeKept r s
  case openLoad => exact ownOpenLoad_storeKept _ _ _ _ s
  case abortLoad => exact ownAbortLoad_storeKept _ s
  case retireClip => exact ownRetireClip_storeKept _ s
  case clearBooking => exact ownClearBooking_storeKept _ s
  case forceSlate => exact ownForceSlate_storeKept _ _ s
  case releaseSlate => exact ownReleaseSlate_storeKept _ s
  case streamRestart => exact ownStreamRestart_storeKept s
  case clearCounters => exact clearCounters_storeKept s
  all_goals exact .of_frame (commandOwner_frame r _ args s)

theorem takeCommand_storeKept {s t : State} {r : Role} {k : CommandKind} {args : List Byte} {owner : State → Taken}
    (h : ifRunning s (·.takeCommand r k args owner) = .next t) (ho : ∀ s, StoreKept s (owner s).state) : StoreKept s t :=
  ifRunning_storeKept h (storeKept_beyondPort.takeCommand s r k args owner ho)

theorem writePhase_storeKept (s : State) (address : BitVec 7) (bytes : List Byte) (byStop : Bool) :
    StoreKept s (s.writePhase address bytes byStop) :=
  storeKept_beyondPort.writePhase s address bytes byStop commandOwner_storeKept
    (fun r c d s => .of_frame (ownStaging_frame r c d s)) (fun d s => .of_frame (ownSettingsWrite_frame d s))
    (fun d s => .of_frame (ownEditRecord_frame d s))

theorem cycle_storeKept (s : State) : StoreKept s s.cycle := .of_same rfl rfl rfl rfl

theorem exec_storeKept {c : Instr} {s t : State} (h : exec c s = .next t) : StoreKept s t := by
  cases c
  case powerOn => exact Host.Outcome.next.inj h ▸ enterReset_storeKept s .powerOn
  case resetPin => exact Host.Outcome.next.inj h ▸ enterReset_storeKept s .resetPin
  case resetEnds a1 a2 =>
    change execResetEnds a1 a2 s = .next t at h
    unfold execResetEnds at h
    split at h
    · exact Host.Outcome.next.inj h ▸ endReset_storeKept s _ a1 a2
    · exact Host.Outcome.next.inj h ▸ .refl s
  case siteSecondBoundary =>
    exact ifRunning_storeKept h
      (.ite (.after (.of_frame (afterTbu_frame _ _)) (.after (.of_frame (setTbu_frame _ _)) (cycle_storeKept s))) (.refl s))
  case packetComplete l e => exact execPacketComplete_storeKept h
  case shortPacket b e => exact execShortPacket_storeKept h
  case longPacket => exact execLongPacket_storeKept h
  case feedPacketOpens b e => exact execFeedPacketOpens_storeKept h
  case gapExpiry => exact execGapExpiry_storeKept h
  case feedWrite => exact execFeedWrite_storeKept h
  case takeControlPacket => exact execTakeControlPacket_storeKept h
  case breakNotice => exact onDirective_storeKept h reachNotice_storeKept
  case breakCancel => exact onDirective_storeKept h reachCancel_storeKept
  case fetchRequest => exact execFetchRequest_storeKept h
  case ringReadTaken => exact execRingReadTaken_storeKept h
  case ringReadComplete => exact execRingReadComplete_storeKept h
  case armTimeReached n => exact ifRunning_storeKept (f := (·.reachArm n)) h (reachArm_storeKept s n)
  case endReached n => exact ifRunning_storeKept (f := (·.reachEnd n)) h (reachEnd_storeKept s n)
  case confirm r => exact takeCommand_storeKept h (ownConfirm_storeKept r)
  case clearBooking r n => exact takeCommand_storeKept h (ownClearBooking_storeKept n)
  case openLoad r id v n fp => exact takeCommand_storeKept h (ownOpenLoad_storeKept id v n fp)
  case abortLoad r id => exact takeCommand_storeKept h (ownAbortLoad_storeKept id)
  case retireClip r id => exact takeCommand_storeKept h (ownRetireClip_storeKept id)
  case forceSlate r v id => exact takeCommand_storeKept h (ownForceSlate_storeKept v id)
  case releaseSlate r v => exact takeCommand_storeKept h (ownReleaseSlate_storeKept v)
  case streamRestart r => exact takeCommand_storeKept h ownStreamRestart_storeKept
  case clearCounters r => exact takeCommand_storeKept h clearCounters_storeKept
  case writePhase a b e => exact ifRunning_storeKept (f := (·.writePhase a b e)) h (writePhase_storeKept s a b e)
  case packetAdmitted b => exact ifRunning_storeKept h (.ite (openPacket_storeKept s b) (.refl s))
  case insertionPacketRefused => exact ifRunning_storeKept h (.ite (openPacket_storeKept s 0) (.refl s))
  case insertionShortPacket b => exact execInsertionShortPacket_storeKept h
  case insertionLongPacket =>
    exact ifRunning_storeKept h (.ite (.after (countCsc_storeKept _ _) (setFraming_storeKept s _)) (.refl s))
  case insertionPacketComplete l => exact execInsertionPacketComplete_storeKept h
  case loadWrite => exact execLoadWrite_storeKept h
  case loadIdleTimeout => exact execLoadIdleTimeout_storeKept h
  case clipReadTaken => exact execClipReadTaken_storeKept h
  case clipReadComplete => exact execClipReadComplete_storeKept h
  all_goals
    exact .of_frame (exec_frame h) (by simp [touchedParts, CommandKind.touches]) (by simp [touchedParts, CommandKind.touches])

theorem setPending_storeKept (s : State) (x : List Instr) : StoreKept s (s.setPending x) := .of_same rfl rfl rfl rfl

theorem setChoices_storeKept (s : State) (x : Nat) : StoreKept s (s.setChoices x) := .of_same rfl rfl rfl rfl

theorem advance_storeKept (s : State) : StoreKept s s.advance :=
  .ite (setPending_storeKept s _) (.after (.of_frame (setTbu_frame _ _)) (cycle_storeKept s))

theorem idle_storeKept (s : State) : StoreKept s s.idle := by
  unfold State.idle
  split
  · exact .refl s
  · unfold State.run
    split
    · exact setPending_storeKept s _
    · split
      · exact advance_storeKept s
      · split
        · exact .after (setChoices_storeKept _ _) (setPending_storeKept s _)
        · exact .after (advance_storeKept _) (setChoices_storeKept s _)

theorem step_storeKept {s t : State} (h : step s = .next t) : StoreKept s t := by
  unfold step at h
  split at h
  · exact .after (exec_storeKept h) (setPending_storeKept s _)
  · exact Host.Outcome.next.inj h ▸ idle_storeKept s

/-- Settles O57: memory changes by slot writes alone (`StoreKept.writeSlot`), which keep its form. -/
theorem stepKeepsMemoryCanonical : Obligations.StepKeepsMemoryCanonical := fun _ _ hs h => (step_storeKept h).memory hs

/-- Settles O58: a load opened cuts its run from a free run (`Tiles.take`), a position made EMPTY gives its run back
(`Tiles.giveBack`), a reset begins anew, and nothing else moves a run. -/
theorem stepKeepsBlocksAccounted : Obligations.StepKeepsBlocksAccounted := fun _ _ hs h => (step_storeKept h).blocks hs

end Machine
end Sys2Proof
end

section
/-! PROOFS. Every command and every step answers a next state. -/

set_option Elab.async false

namespace Sys2Proof
namespace Machine

theorem ifRunning_answers (s : State) (f : State → State) : ∃ t, ifRunning s f = .next t := by
  unfold ifRunning
  split
  · exact ⟨_, rfl⟩
  · exact ⟨_, rfl⟩

theorem execResetEnds_answers (a1 a2 : Bool) (s : State) : ∃ t, execResetEnds a1 a2 s = .next t := by
  unfold execResetEnds
  split
  · exact ⟨_, rfl⟩
  · exact ⟨_, rfl⟩

theorem execRefokFall_answers (s : State) : ∃ t, execRefokFall s = .next t := by
  unfold execRefokFall
  split
  · exact ifRunning_answers _ _
  · exact ⟨_, rfl⟩

/-- The commands that a part in reset takes have their own answers; every other command stands behind `ifRunning`. -/
theorem exec_answers (c : Instr) (s : State) : ∃ t, exec c s = .next t := by
  cases c
  case powerOn => exact ⟨_, rfl⟩
  case resetPin => exact ⟨_, rfl⟩
  case resetEnds a1 a2 => exact execResetEnds_answers a1 a2 s
  case refokFall => exact execRefokFall_answers s
  case refokRise => exact ⟨_, rfl⟩
  all_goals
    delta exec
    dsimp only
    delta execSiteSecondBoundary execPpsEdge execMissingPulse execTimeMessage execTimeMessageInterbyteTimeout
      execSteeringWordSent execPacketComplete execShortPacket execLongPacket execGapExpiry execFeedOutTimerExpiry execFeedWrite
      execTakeControlPacket execEmissionMark execBreakNotice execBreakCancel execReturnNow execSiteMute execUnknownDirective
      execDirectiveOverrun execFetchRequest execRingReadTaken execRingReadComplete execSlotEmission execFillEmission
      execDrivenPacketEnd execArmTimeReached execEndReached execReserve execConfirm execDiscard execFindBreak execClearBooking
      execOpenLoad execAbortLoad execRetireClip execForceSlate execReleaseSlate execForceMute execReleaseMute execSaveSettings
      execSaveComplete execStreamRestart execClearCounters execStagingWrite execStreamMapAdd execStreamMapChange
      execStreamMapRemove execWriteOnceSettingWrite execOperatingSettingWrite execWritePhase execNoticeHeadRead
      execResetCauseRead execPacketAdmitted execInsertionPacketRefused execInsertionShortPacket execInsertionLongPacket
      execInsertionPacketComplete execLoadWrite execLoadIdleTimeout execClipReadTaken execClipReadComplete execTimeMessageByte
      execFeedPacketOpens
    exact ifRunning_answers s _

/-- Settles O4: every command (`exec_answers`), and a step is a command or an idle cycle. -/
theorem everyCommandAnswersNext : Obligations.EveryCommandAnswersNext := by
  refine ⟨exec_answers, fun s => ?_⟩
  unfold step
  split
  · exact exec_answers _ _
  · exact ⟨_, rfl⟩

end Machine
end Sys2Proof
end

section
/-! PROOFS. OPEN_LOAD, ABORT_LOAD and RETIRE_CLIP (R118, R119, R127, R128). -/

set_option Elab.async false

namespace Sys2Proof
namespace Machine

/-! ## The directory by id and by position (R115, R118) -/

theorem findClip_eq_none_iff {dir : List (Nat × Clip)} {id : Word32} :
    findClip? dir id = none ↔ ∀ c ∈ dir, c.2.id ≠ id := by
  simp [findClip?]

theorem clipAt_eq_none_iff {dir : List (Nat × Clip)} {p : Nat} : clipAt? dir p = none ↔ ∀ c ∈ dir, c.1 ≠ p := by
  simp [clipAt?]

theorem clipAt_isNone_eq_false_iff {dir : List (Nat × Clip)} {p : Nat} :
    (clipAt? dir p).isNone = false ↔ ∃ c ∈ dir, c.1 = p := by
  rw [Bool.eq_false_iff, Ne, Option.isNone_iff_eq_none, clipAt_eq_none_iff]
  push Not
  rfl

theorem lowestEmpty_eq_none {dir : List (Nat × Clip)} (full : ∀ p, 1 ≤ p → p ≤ 64 → ∃ c ∈ dir, c.1 = p) :
    lowestEmpty? dir = none := by
  refine List.find?_range'_eq_none.2 fun p low high => ?_
  have := clipAt_isNone_eq_false_iff.2 (full p low (by simp only [Config.clipPlaces] at high; omega))
  simp [this]

theorem lowestEmpty_eq_some {dir : List (Nat × Clip)} {p : Nat} (low : 1 ≤ p) (high : p ≤ 64) (empty : ∀ c ∈ dir, c.1 ≠ p)
    (below : ∀ q, 1 ≤ q → q < p → ∃ c ∈ dir, c.1 = q) : lowestEmpty? dir = some p := by
  refine List.find?_range'_eq_some.2 ⟨?_, ?_, fun q hq hqp => ?_⟩
  · rw [clipAt_eq_none_iff.2 empty]
    rfl
  · simp only [Config.clipPlaces, List.mem_range'_1]
    omega
  · have := clipAt_isNone_eq_false_iff.2 (below q hq hqp)
    simp [this]

theorem clipAt_cons (x : Nat × Clip) (dir : List (Nat × Clip)) (q : Nat) :
    clipAt? (x :: dir) q = if x.1 = q then some x.2 else clipAt? dir q := by
  unfold clipAt?
  by_cases h : x.1 = q <;> simp [h]

/-- A clip placed at an EMPTY position is found there, and every other position holds what it held. -/
theorem clipAt_placeClip {p : Nat} (c : Clip) (q : Nat) : ∀ {dir : List (Nat × Clip)}, (∀ x ∈ dir, x.1 ≠ p) →
    clipAt? (placeClip p c dir) q = if q = p then some c else clipAt? dir q
  | [], _ => (clipAt_cons ..).trans (if_congr eq_comm rfl rfl)
  | x :: rest, h => by
    obtain ⟨hx, hrest⟩ := List.forall_mem_cons.1 h
    unfold placeClip
    split
    · exact (clipAt_cons ..).trans (if_congr eq_comm rfl rfl)
    · rw [clipAt_cons, clipAt_cons, clipAt_placeClip c q hrest]
      by_cases hq : x.1 = q
      · subst hq
        rw [if_pos rfl, if_neg hx, if_pos rfl]
      · rw [if_neg hq, if_neg hq]

/-! ## OPEN LOAD at its owner (R118, R119) -/

theorem loadService_eq_none {id : Word32} {v : Byte} {n : Nat}
    (h : id = 0 ∨ v.toNat < 1 ∨ 4 < v.toNat ∨ n < 1 ∨ 500000 < n) : loadService? id v n = none := by
  unfold loadService?
  split
  · rfl
  · next values =>
    refine Service.ofNat_eq_none ?_
    rcases h with h | h | h | h | h
    · exact absurd (.inl h) values
    · exact .inl h
    · exact .inr h
    · exact absurd (.inr (.inl (by omega))) values
    · exact absurd (.inr (.inr h)) values

theorem loadService_eq_some {id : Word32} {v : Byte} {n : Nat} {w : Service} (hid : id ≠ 0) (hv : Service.ofNat? v.toNat = some w)
    (low : 1 ≤ n) (high : n ≤ 500000) : loadService? id v n = some w := by
  unfold loadService?
  rw [if_neg (by simp only [hid, false_or]; omega), hv]

/-- The clip that a load opens with (R119). -/
def loadingClip (id : Word32) (w : Service) (n fp : Word32) (first : Nat) : Clip :=
  { id := id, service := w, state := .loading, firstBlock := first, blockCount := blocksFor n.toNat, expected := n.toNat
    expectedFp := fp, computedFp := crc32Initial }

section
variable {id : Word32} {v : Byte} {n fp : Word32} {s : State}

/-- Whatever OPEN LOAD answers, memory, counters, framing and the ports are as they were. -/
theorem ownOpenLoad_kept (id : Word32) (v : Byte) (n fp : Word32) (s : State) :
    (ownOpenLoad id v n fp s).state.csc.memory = s.csc.memory ∧ (ownOpenLoad id v n fp s).state.csc.counters = s.csc.counters
      ∧ (ownOpenLoad id v n fp s).state.csc.framing = s.csc.framing ∧ (ownOpenLoad id v n fp s).state.mgp = s.mgp := by
  unfold ownOpenLoad
  repeat' split
  all_goals exact ⟨rfl, rfl, rfl, rfl⟩

theorem ownOpenLoad_busy (h : s.csc.load ≠ none) : ownOpenLoad id v n fp s = { state := s, code := .busy } := by
  obtain ⟨l, hl⟩ := Option.ne_none_iff_exists'.1 h
  unfold ownOpenLoad
  rw [hl]

variable (idle : s.csc.load = none)
include idle

theorem ownOpenLoad_duplicate (h : ∃ c ∈ s.csc.directory, c.2.id = id) :
    ownOpenLoad id v n fp s = { state := s, code := .duplicate } := by
  obtain ⟨c, hc, hid⟩ := h
  have found : findClip? s.csc.directory id ≠ none := fun none => findClip_eq_none_iff.1 none c hc hid
  obtain ⟨x, hx⟩ := Option.ne_none_iff_exists'.1 found
  unfold ownOpenLoad
  rw [idle, hx]

variable (new : ∀ c ∈ s.csc.directory, c.2.id ≠ id)
include new

theorem ownOpenLoad_full (h : lowestEmpty? s.csc.directory = none) :
    ownOpenLoad id v n fp s = { state := s, code := .full } := by
  unfold ownOpenLoad
  rw [idle, findClip_eq_none_iff.2 new, h]

variable {position : Nat} (empty : lowestEmpty? s.csc.directory = some position)
include empty

theorem ownOpenLoad_invalid (h : loadService? id v n.toNat = none) :
    ownOpenLoad id v n fp s = { state := s, code := .invalid } := by
  unfold ownOpenLoad
  rw [idle, findClip_eq_none_iff.2 new, empty, h]

variable {w : Service} (values : loadService? id v n.toNat = some w)
include values

theorem ownOpenLoad_noSpace (h : takeRun (blocksFor n.toNat) s.csc.freeRuns = none) :
    ownOpenLoad id v n fp s = { state := s, code := .noSpace } := by
  unfold ownOpenLoad
  rw [idle, findClip_eq_none_iff.2 new, empty, values, h]

theorem ownOpenLoad_done {first : Nat} {runs : List FreeRun}
    (h : takeRun (blocksFor n.toNat) s.csc.freeRuns = some (first, runs)) : ownOpenLoad id v n fp s =
      { state := s.startLoad position (loadingClip id w n fp first) runs
        code := .done
        value := toBytes 1 position ++ toBytes 2 first } := by
  unfold ownOpenLoad
  rw [idle, findClip_eq_none_iff.2 new, empty, values, h]
  rfl

end

/-- Settles O39: the outcome by the first check that fails, in the order of R118, and else the first fit (`takeRun_firstFit`). -/
theorem openLoadAllocatesFirstFit : Obligations.OpenLoadAllocatesFirstFit := by
  rintro s r id v n fp args hl rfl
  generalize hargs : toBytes 4 id.toNat ++ [v] ++ toBytes 4 n.toNat ++ toBytes 4 fp.toNat = args
  have hexec : exec (.openLoad r id v n fp) s =
      .next ((ownOpenLoad id v n fp (s.commanded r .openLoad args)).recorded r .openLoad) := by
    rw [← hargs]
    exact ifRunning_takeCommand hl (.inl rfl)
  obtain ⟨memory, counters, framing, mgp⟩ := ownOpenLoad_kept id v n fp (s.commanded r .openLoad args)
  have answered : Answered s ((ownOpenLoad id v n fp (s.commanded r .openLoad args)).recorded r .openLoad) r .openLoad args _ _ :=
    OnlyNotifies.answered (.of_mgp mgp)
  have frame : OnlyChanges [.mgp, .csc] s _ := exec_frame hexec
  refine ⟨_, hexec, fun busy => ?_, fun idle dup => ?_, fun idle new full => ?_, fun position idle new low high empty below =>
    ⟨fun invalid => ?_, fun w hid hv hlow hhigh => ⟨fun short => ?_, fun before f after free hbefore fits => ?_⟩⟩, memory,
    counters, framing, frame.widen, commanded_onlyAnswers mgp⟩
  · rw [ownOpenLoad_busy (s := s.commanded _ _ _) busy] at answered ⊢
    exact ⟨rfl, answered⟩
  · rw [ownOpenLoad_duplicate (s := s.commanded _ _ _) idle dup] at answered ⊢
    exact ⟨rfl, answered⟩
  · rw [ownOpenLoad_full (s := s.commanded _ _ _) idle new (lowestEmpty_eq_none full)] at answered ⊢
    exact ⟨rfl, answered⟩
  · rw [ownOpenLoad_invalid (s := s.commanded _ _ _) idle new (lowestEmpty_eq_some low high empty below)
      (loadService_eq_none invalid)] at answered ⊢
    exact ⟨rfl, answered⟩
  · rw [ownOpenLoad_noSpace (s := s.commanded _ _ _) idle new (lowestEmpty_eq_some low high empty below)
      (loadService_eq_some hid hv hlow hhigh) (takeRun_none short)] at answered ⊢
    exact ⟨rfl, answered⟩
  · have taken := takeRun_firstFit (after := after) fits hbefore
    rw [← free] at taken
    rw [ownOpenLoad_done (s := s.commanded _ _ _) idle new (lowestEmpty_eq_some low high empty below)
      (loadService_eq_some hid hv hlow hhigh) taken] at answered ⊢
    refine ⟨(clipAt_placeClip _ _ empty).trans (if_pos rfl), fun p hp => (clipAt_placeClip _ _ empty).trans (if_neg hp), rfl, rfl,
      answered⟩

/-! ## ABORT LOAD at its owner (R127) -/

section
variable {id : Word32} {s : State}

theorem ownAbortLoad_mgp : (ownAbortLoad id s).state.mgp = s.mgp := by
  unfold ownAbortLoad
  repeat' split
  all_goals rfl

theorem ownAbortLoad_none (h : s.csc.load = none) : ownAbortLoad id s = { state := s, code := .none } := by
  unfold ownAbortLoad
  rw [h]

variable {l : LoadContext} {c : Clip} (loads : s.csc.load = some l) (clip : clipAt? s.csc.directory l.position = some c)
include loads clip

theorem ownAbortLoad_notFound (h : c.id ≠ id) : ownAbortLoad id s = { state := s, code := .notFound } := by
  simp only [ownAbortLoad, loads, clip, if_neg h]

theorem ownAbortLoad_done (h : c.id = id) :
    ownAbortLoad id s = { state := (s.setCsc s.csc.closeLoad).emptyPosition l.position c, code := .done } := by
  simp only [ownAbortLoad, loads, clip, if_pos h]

end

/-! ## RETIRE CLIP at its owner (R128) -/

section
variable {id : Word32} {s : State}

theorem ownRetireClip_mgp : (ownRetireClip id s).state.mgp = s.mgp := by
  unfold ownRetireClip
  repeat' split
  all_goals rfl

theorem ownRetireClip_notFound (h : ∀ c ∈ s.csc.directory, c.2.id ≠ id) :
    ownRetireClip id s = { state := s, code := .notFound } := by
  unfold ownRetireClip
  rw [findClip_eq_none_iff.2 h]

variable {position : Nat} {c : Clip} (found : findClip? s.csc.directory id = some (position, c))
include found

theorem ownRetireClip_pinned (h : 0 < c.pins) : ownRetireClip id s = { state := s, code := .pinned } := by
  simp only [ownRetireClip, found, if_pos h]

variable (unpinned : c.pins = 0)
include unpinned

theorem ownRetireClip_loading (h : c.state = .loading) : ownRetireClip id s = { state := s, code := .state } := by
  simp only [ownRetireClip, found, unpinned, Nat.lt_irrefl, if_false, if_pos h]

theorem ownRetireClip_done (h : c.state = .ready ∨ c.state = .fault) :
    ownRetireClip id s = { state := s.emptyPosition position c, code := .done, value := toBytes 2 c.blockCount } := by
  have loaded : c.state ≠ .loading := by rcases h with h | h <;> simp [h]
  simp only [ownRetireClip, found, unpinned, Nat.lt_irrefl, if_false, if_neg loaded]

end

/-- Settles O40: each command's outcome by its first check that fails, and else the position emptied. -/
theorem abortAndRetireFreeThePosition : Obligations.AbortAndRetireFreeThePosition := by
  refine fun s r id hl => ⟨?abort, ?retire⟩
  case abort =>
    have hexec : exec (.abortLoad r id) s =
        .next ((ownAbortLoad id (s.commanded r .abortLoad (toBytes 4 id.toNat))).recorded r .abortLoad) :=
      ifRunning_takeCommand hl (.inl rfl)
    have answered : Answered s ((ownAbortLoad id (s.commanded r .abortLoad (toBytes 4 id.toNat))).recorded r .abortLoad)
        r .abortLoad (toBytes 4 id.toNat) _ _ := OnlyNotifies.answered (.of_mgp ownAbortLoad_mgp)
    have frame : OnlyChanges [.mgp, .csc] s _ := exec_frame hexec
    refine ⟨_, hexec, fun idle => ?_, fun l c loads clip other => ?_, fun l c loads clip same => ?_, frame.widen,
      commanded_onlyAnswers ownAbortLoad_mgp⟩
    · rw [ownAbortLoad_none (s := s.commanded _ _ _) idle] at answered ⊢
      exact ⟨rfl, answered⟩
    · rw [ownAbortLoad_notFound (s := s.commanded _ _ _) loads clip other] at answered ⊢
      exact ⟨rfl, answered⟩
    · rw [ownAbortLoad_done (s := s.commanded _ _ _) loads clip same] at answered ⊢
      exact ⟨rfl, answered⟩
  case retire =>
    have hexec : exec (.retireClip r id) s =
        .next ((ownRetireClip id (s.commanded r .retireClip (toBytes 4 id.toNat))).recorded r .retireClip) :=
      ifRunning_takeCommand hl (.inl rfl)
    have answered : Answered s ((ownRetireClip id (s.commanded r .retireClip (toBytes 4 id.toNat))).recorded r .retireClip)
        r .retireClip (toBytes 4 id.toNat) _ _ := OnlyNotifies.answered (.of_mgp ownRetireClip_mgp)
    have frame : OnlyChanges [.mgp, .csc] s _ := exec_frame hexec
    refine ⟨_, hexec, fun none => ?_, fun position c found => ⟨fun pinned => ?_, fun unpinned loading => ?_,
      fun unpinned held => ?_⟩, frame.widen, commanded_onlyAnswers ownRetireClip_mgp⟩
    · rw [ownRetireClip_notFound (s := s.commanded _ _ _) none] at answered ⊢
      exact ⟨rfl, answered⟩
    · rw [ownRetireClip_pinned (s := s.commanded _ _ _) found pinned] at answered ⊢
      exact ⟨rfl, answered⟩
    · rw [ownRetireClip_loading (s := s.commanded _ _ _) found unpinned loading] at answered ⊢
      exact ⟨rfl, answered⟩
    · rw [ownRetireClip_done (s := s.commanded _ _ _) found unpinned held] at answered ⊢
      exact ⟨rfl, answered⟩

end Machine
end Sys2Proof
end

section
/-! PROOFS. The insertion port and the clip being loaded: framing, acceptance, faults (R120 to R123). -/

set_option Elab.async false

namespace Sys2Proof
namespace Machine

/-! ## The clip at a position, changed in place (R115) -/

section
variable {dir : List (Nat × Clip)} {p : Nat} {f : Clip → Clip}

theorem clipAt_mapClipAt_self {c : Clip} (h : clipAt? dir p = some c) : clipAt? (mapClipAt dir p f) p = some (f c) := by
  rw [clipAt_mapClipAt, h, Option.map_some, if_pos rfl]

theorem clipAt_mapClipAt_other {q : Nat} (h : q ≠ p) : clipAt? (mapClipAt dir p f) q = clipAt? dir q := by
  simp only [clipAt_mapClipAt, if_neg h, Option.map_id']

end

theorem loading_of_load {x : Csc} {l : LoadContext} {c : Clip} (hl : x.load = some l)
    (hc : clipAt? x.directory l.position = some c) : x.loading? = some (l, c) := by
  simp only [Csc.loading?, hl, hc, Option.map_some]

/-! ## A clip made FAULT (R122, R125, R126, R130) -/

section
variable (s : State) (p : Nat) (id : Word32) (w : FaultCause)

theorem faultClip_raised : RaisedBoth s (s.faultClip p id w) [noticeAt s .clipFault (.clipId id) (.fault w)] :=
  raiseBoth_raised (s.setCsc _) _ _ _

theorem faultClip_onlyNotifies : OnlyNotifies s (s.faultClip p id w) := raiseBoth_onlyNotifies (s.setCsc _) _ _ _

theorem faultLoad_raised : RaisedBoth s (s.faultLoad p id w) [noticeAt s .clipFault (.clipId id) (.fault w)] :=
  faultClip_raised ((s.setCsc s.csc.closeLoad).stampLoad p) p id w

theorem faultLoad_onlyNotifies : OnlyNotifies s (s.faultLoad p id w) :=
  faultClip_onlyNotifies ((s.setCsc s.csc.closeLoad).stampLoad p) p id w

variable {s p}

@[simp] theorem faultClip_directory : (s.faultClip p id w).csc.directory =
    mapClipAt s.csc.directory p (fun c => { c with state := .fault, cause := some w }) := rfl

@[simp] theorem stampLoad_directory : (s.stampLoad p).csc.directory =
    mapClipAt s.csc.directory p (fun c => { c with completed := some s.tbu.time }) := rfl

theorem faultClip_clip {c : Clip} (h : clipAt? s.csc.directory p = some c) :
    clipAt? (s.faultClip p id w).csc.directory p = some { c with state := .fault, cause := some w } := by
  rw [faultClip_directory, clipAt_mapClipAt_self h]

theorem faultClip_clip_other {q : Nat} (h : q ≠ p) :
    clipAt? (s.faultClip p id w).csc.directory q = clipAt? s.csc.directory q := by
  rw [faultClip_directory, clipAt_mapClipAt_other h]

theorem stampLoad_clip {c : Clip} (h : clipAt? s.csc.directory p = some c) :
    clipAt? (s.stampLoad p).csc.directory p = some { c with completed := some s.tbu.time } := by
  rw [stampLoad_directory, clipAt_mapClipAt_self h]

theorem stampLoad_clip_other {q : Nat} (h : q ≠ p) : clipAt? (s.stampLoad p).csc.directory q = clipAt? s.csc.directory q := by
  rw [stampLoad_directory, clipAt_mapClipAt_other h]

theorem faultLoad_clip {c : Clip} (h : clipAt? s.csc.directory p = some c) :
    clipAt? (s.faultLoad p id w).csc.directory p =
      some { c with state := .fault, cause := some w, completed := some s.tbu.time } :=
  faultClip_clip id w (stampLoad_clip (s := s.setCsc s.csc.closeLoad) h)

theorem faultLoad_clip_other {q : Nat} (h : q ≠ p) :
    clipAt? (s.faultLoad p id w).csc.directory q = clipAt? s.csc.directory q :=
  (faultClip_clip_other id w h).trans (stampLoad_clip_other h)

end

/-! ## IREADY and framing (R120, R121) -/

theorem iready_eq_true {x : Csc} {l : LoadContext} {c : Clip} (hl : x.load = some l)
    (hc : clipAt? x.directory l.position = some c) (room : l.buffer.length + x.framing.places < 16)
    (more : l.accepted < c.expected) : x.iready = true := by
  simp only [Csc.iready, hl, hc, Config.bufferPlaces, room, more, decide_true, Bool.and_true]

theorem iready_eq_false {x : Csc} (h : x.load = none ∨ ∃ l c, x.load = some l ∧ clipAt? x.directory l.position = some c
    ∧ (16 ≤ l.buffer.length ∨ c.expected ≤ l.accepted)) : x.iready = false := by
  rcases h with idle | ⟨l, c, hl, hc, full | whole⟩
  · simp only [Csc.iready, idle]
  · have noRoom : ¬ l.buffer.length + x.framing.places < 16 := by omega
    simp only [Csc.iready, hl, hc, Config.bufferPlaces, noRoom, decide_false, Bool.false_and]
  · simp only [Csc.iready, hl, hc, Nat.not_lt.2 whole, decide_false, Bool.and_false]

theorem framing_eq_none {f : InsertionFraming} (h : ∀ bytes, f ≠ .admitted bytes) : f.framing? = none := by
  cases f with
  | admitted bytes => exact absurd rfl (h bytes)
  | noPacket | refused | completed | excess => rfl

section
variable {s : State} {b : Byte}

theorem openPacket_of_iready (h : s.csc.iready = true) :
    s.openPacket b = s.setCsc { s.csc with framing := .admitted [b] } := if_pos h

theorem openPacket_of_not_iready (h : s.csc.iready = false) : s.openPacket b = s.setCsc { s.csc with
    framing := .refused, counters := { s.csc.counters with packetsRefused := bump s.csc.counters.packetsRefused } } :=
  if_neg (by simp [h])

/-- The place of the packet that ended is free when the byte that ended it is judged (log 32). -/
theorem exec_insertionShortPacket {bytes : List Byte} (hr : s.Running) (hf : s.csc.framing = .admitted bytes) :
    exec (.insertionShortPacket b) s = .next ((s.setCsc { s.csc with
      framing := .noPacket
      counters := { s.csc.counters with shortPackets := bump s.csc.counters.shortPackets } }).openPacket b) := by
  change execInsertionShortPacket b s = _
  unfold execInsertionShortPacket
  rw [ifRunning_of_running hr, hf]
  rfl

end

/-- Settles O42: a byte with ISTART opens a packet by `iready`, and the last two events only change the framing. -/
theorem insertionPortFraming : Obligations.InsertionPortFraming := by
  intro s b hr
  refine ⟨fun apart ready => ?admitted, fun apart low => ?refused, fun bytes l c hf hl hc room more => ?shortAdmitted,
    fun bytes hf low => ?shortRefused, fun completed => ?long, fun excess => ?excess⟩
  case admitted =>
    refine (ifRunning_of_running hr _).trans (congrArg _ ?_)
    rw [framing_eq_none apart, ready]
    exact openPacket_of_iready ready
  case refused =>
    refine (ifRunning_of_running hr _).trans (congrArg _ ?_)
    rw [framing_eq_none apart, low]
    exact openPacket_of_not_iready low
  case shortAdmitted =>
    exact (exec_insertionShortPacket hr hf).trans (congrArg _ (openPacket_of_iready (iready_eq_true hl hc room more)))
  case shortRefused =>
    exact (exec_insertionShortPacket hr hf).trans (congrArg _ (openPacket_of_not_iready (iready_eq_false low)))
  case long => exact (ifRunning_of_running hr _).trans (congrArg _ (if_pos completed))
  case excess => exact (ifRunning_of_running hr _).trans (congrArg _ (if_neg (by simp [excess])))

/-! ## A completed packet (R122, R123) -/

section
variable {map : List MapEntry} {c : Clip} {packet : List Byte}

theorem judgeInsertion_bad (h : byteAt packet 1 ≠ 0x47#8) : judgeInsertion map c packet = .bad := if_pos h

variable (sync : byteAt packet 1 = 0x47#8)
include sync

theorem judgeInsertion_null (h : streamId packet = 8191) : judgeInsertion map c packet = .null := by
  simp only [judgeInsertion, sync, h, ne_eq, not_true_eq_false, if_false, if_true]

variable (carries : streamId packet ≠ 8191)
include carries

theorem judgeInsertion_foreign (h : serviceOf? map (streamId packet) ≠ some c.service
    ∨ (streamId packet ∉ c.streams ∧ 8 ≤ c.streams.length)) : judgeInsertion map c packet = .foreign := by
  simp only [judgeInsertion, sync, carries, ne_eq, not_true_eq_false, if_false]
  split
  · rfl
  · next own => exact if_pos (h.resolve_left own)

theorem judgeInsertion_accepted (own : serviceOf? map (streamId packet) = some c.service)
    (room : streamId packet ∈ c.streams ∨ c.streams.length < 8) : judgeInsertion map c packet = .accepted := by
  have fits : ¬ (streamId packet ∉ c.streams ∧ 8 ≤ c.streams.length) := fun ⟨out, full⟩ =>
    room.elim out (Nat.not_lt.2 full)
  simp only [judgeInsertion, sync, carries, own, ne_eq, not_true_eq_false, if_false, if_neg fits]

end

section
variable {s : State} {l : LoadContext} {c : Clip} {packet : List Byte}

theorem completeInsertion_bad (h : judgeInsertion s.sst.live.map c packet = .bad) : s.completeInsertion l c packet =
    (s.setFraming .completed).countCsc (fun k => { k with badPackets := bump k.badPackets }) := by
  simp only [State.completeInsertion, h]

theorem completeInsertion_null (h : judgeInsertion s.sst.live.map c packet = .null) :
    s.completeInsertion l c packet = s.setFraming .completed := by
  simp only [State.completeInsertion, h]

theorem completeInsertion_foreign (h : judgeInsertion s.sst.live.map c packet = .foreign) :
    s.completeInsertion l c packet = s.faultLoad l.position c.id .foreign := by
  simp only [State.completeInsertion, h]

theorem completeInsertion_accepted (h : judgeInsertion s.sst.live.map c packet = .accepted) :
    s.completeInsertion l c packet = s.acceptPacket l c packet := by
  simp only [State.completeInsertion, h]

@[simp] theorem acceptPacket_directory : (s.acceptPacket l c packet).csc.directory =
    mapClipAt s.csc.directory l.position (·.accept s.sst.live.map packet) := rfl

theorem acceptPacket_clip (h : clipAt? s.csc.directory l.position = some c) :
    clipAt? (s.acceptPacket l c packet).csc.directory l.position = some (c.accept s.sst.live.map packet) := by
  rw [acceptPacket_directory, clipAt_mapClipAt_self h]

theorem acceptPacket_clip_other {p : Nat} (h : p ≠ l.position) :
    clipAt? (s.acceptPacket l c packet).csc.directory p = clipAt? s.csc.directory p := by
  rw [acceptPacket_directory, clipAt_mapClipAt_other h]

/-- Whatever the verdict, the other positions, the memory and the free runs are as they were. -/
theorem completeInsertion_kept (s : State) (l : LoadContext) (c : Clip) (packet : List Byte) :
    (∀ p, p ≠ l.position → clipAt? (s.completeInsertion l c packet).csc.directory p = clipAt? s.csc.directory p)
      ∧ (s.completeInsertion l c packet).csc.memory = s.csc.memory
      ∧ (s.completeInsertion l c packet).csc.freeRuns = s.csc.freeRuns
      ∧ OnlyNotifies s (s.completeInsertion l c packet) := by
  cases h : judgeInsertion s.sst.live.map c packet with
  | bad =>
    rw [completeInsertion_bad h]
    exact ⟨fun _ _ => rfl, rfl, rfl, .of_mgp rfl⟩
  | null =>
    rw [completeInsertion_null h]
    exact ⟨fun _ _ => rfl, rfl, rfl, .of_mgp rfl⟩
  | foreign =>
    rw [completeInsertion_foreign h]
    exact ⟨fun _ hp => faultLoad_clip_other _ _ hp, rfl, rfl, faultLoad_onlyNotifies _ _ _ _⟩
  | accepted =>
    rw [completeInsertion_accepted h]
    exact ⟨fun _ hp => acceptPacket_clip_other hp, rfl, rfl, .of_mgp rfl⟩

theorem exec_insertionPacketComplete {head rest : List Byte} (hr : s.Running) (hf : s.csc.framing = .admitted head)
    (hl : s.csc.load = some l) (hc : clipAt? s.csc.directory l.position = some c) (whole : (head ++ rest).length = 188) :
    exec (.insertionPacketComplete rest) s = .next (s.completeInsertion l c (head ++ rest)) := by
  change execInsertionPacketComplete rest s = _
  unfold execInsertionPacketComplete
  rw [ifRunning_of_running hr, hf, loading_of_load hl hc]
  exact congrArg _ (if_pos whole)

end

/-- Settles O43: the outcome by the verdict of R122 (`judgeInsertion`). -/
theorem insertionPacketIsJudged : Obligations.InsertionPacketIsJudged := by
  intro s head rest packet l c stream hr hf hl hc whole hpacket hstream
  have hexec := exec_insertionPacketComplete hr hf hl hc whole
  rw [← hpacket] at hexec
  subst hstream
  obtain ⟨others, memory, freeRuns, notifies⟩ := completeInsertion_kept s l c packet
  have frame : OnlyChanges [.csc, .mgp] s _ := exec_frame hexec
  refine ⟨_, hexec, fun bad => ?bad, fun sync null => ?null, fun sync carries foreign => ?foreign,
    fun stamped sync carries own room hstamped => ?accepted, others, memory, freeRuns, frame, notifies⟩
  case bad =>
    rw [completeInsertion_bad (judgeInsertion_bad bad)]
    exact ⟨rfl, rfl⟩
  case null =>
    rw [completeInsertion_null (judgeInsertion_null sync null)]
    exact ⟨rfl, rfl⟩
  case foreign =>
    rw [completeInsertion_foreign (judgeInsertion_foreign sync carries foreign)]
    exact ⟨rfl, rfl, faultLoad_clip _ _ hc, rfl, faultLoad_raised _ _ _ _⟩
  case accepted =>
    rw [completeInsertion_accepted (judgeInsertion_accepted sync carries own room), hstamped]
    exact ⟨acceptPacket_clip hc, rfl, rfl, rfl, rfl⟩

end Machine
end Sys2Proof
end

section
/-! PROOFS. Load writes, the completion of a load and its timeout (R124 to R126). -/

set_option Elab.async false

namespace Sys2Proof
namespace Machine

/-! ## The outcome of a completed load (R125) -/

section
variable {c : Clip}

theorem loadFault_fingerprint (h : c.computedFp ≠ c.expectedFp) : loadFault? c = some .fingerprint := if_pos h

variable (same : c.computedFp = c.expectedFp)
include same

theorem loadFault_noClock (h : c.firstStamp = none) : loadFault? c = some .noClock := by
  simp only [loadFault?, same, h, ne_eq, not_true_eq_false, if_false, Option.isNone_none, if_true]

theorem loadFault_none (h : c.firstStamp ≠ none) : loadFault? c = none := by
  simp only [loadFault?, same, h, ne_eq, not_true_eq_false, if_false, Option.isNone_iff_eq_none]

end

/-- A clip becomes READY, counted and with CLIP-READY to both roles (R125). -/
def State.readyClip (s : State) (p : Nat) (id : Word32) : State :=
  (s.setCsc { s.csc with
    directory := mapClipAt s.csc.directory p (fun c => { c with state := .ready })
    counters := { s.csc.counters with clipsReady := bump s.csc.counters.clipsReady } }).raiseBoth .clipReady (.clipId id) .none

section
variable (s : State) (p : Nat) (id : Word32)

theorem readyClip_raised : RaisedBoth s (s.readyClip p id) [noticeAt s .clipReady (.clipId id) .none] :=
  raiseBoth_raised (s.setCsc _) _ _ _

theorem readyClip_onlyNotifies : OnlyNotifies s (s.readyClip p id) := raiseBoth_onlyNotifies (s.setCsc _) _ _ _

@[simp] theorem readyClip_directory :
    (s.readyClip p id).csc.directory = mapClipAt s.csc.directory p (fun c => { c with state := .ready }) := rfl

variable {s p} {c : Clip}

theorem readyClip_clip (h : clipAt? s.csc.directory p = some c) :
    clipAt? (s.readyClip p id).csc.directory p = some { c with state := .ready } := by
  rw [readyClip_directory, clipAt_mapClipAt_self h]

theorem readyClip_clip_other {q : Nat} (h : q ≠ p) :
    clipAt? (s.readyClip p id).csc.directory q = clipAt? s.csc.directory q := by
  rw [readyClip_directory, clipAt_mapClipAt_other h]

variable {id}

theorem completeLoad_fault {w : FaultCause} (h : loadFault? c = some w) : s.completeLoad p c = s.faultLoad p c.id w := by
  simp only [State.completeLoad, h]
  rfl

theorem completeLoad_ready (h : loadFault? c = none) :
    s.completeLoad p c = ((s.setCsc s.csc.closeLoad).stampLoad p).readyClip p c.id := by
  simp only [State.completeLoad, h]
  rfl

/-- However a load completes, it is closed, and the store beside its clip is as it was. -/
theorem completeLoad_kept (s : State) (p : Nat) (c : Clip) :
    (s.completeLoad p c).csc = { s.csc with
        load := none, framing := .noPacket
        directory := (s.completeLoad p c).csc.directory, counters := (s.completeLoad p c).csc.counters }
      ∧ (∀ q, q ≠ p → clipAt? (s.completeLoad p c).csc.directory q = clipAt? s.csc.directory q)
      ∧ OnlyNotifies s (s.completeLoad p c) := by
  cases h : loadFault? c with
  | some w =>
    rw [completeLoad_fault h]
    exact ⟨rfl, fun q hq => faultLoad_clip_other _ _ hq, faultLoad_onlyNotifies _ _ _ _⟩
  | none =>
    rw [completeLoad_ready h]
    exact ⟨rfl, fun q hq => (readyClip_clip_other _ hq).trans (stampLoad_clip_other hq),
      readyClip_onlyNotifies ((s.setCsc s.csc.closeLoad).stampLoad p) p c.id⟩

end

/-! ## LOAD_WRITE (R124, R131) -/

/-- The part with the head load write in memory, before its load is looked at for completion (R124). -/
def State.loadWritten (s : State) (l : LoadContext) (rest : List LoadEntry) (m : Memory) : State := s.setCsc { s.csc with
  memory := m
  marker := .load
  load := some { l with buffer := rest }
  directory := mapClipAt s.csc.directory l.position (fun x => { x with stored := x.stored + 1 }) }

section
variable {s : State} {l : LoadContext} {c : Clip} {rest : List LoadEntry} {m : Memory}

@[simp] theorem loadWritten_directory : (s.loadWritten l rest m).csc.directory =
    mapClipAt s.csc.directory l.position (fun x => { x with stored := x.stored + 1 }) := rfl

theorem loadWritten_clip (h : clipAt? s.csc.directory l.position = some c) :
    clipAt? (s.loadWritten l rest m).csc.directory l.position = some { c with stored := c.stored + 1 } := by
  rw [loadWritten_directory, clipAt_mapClipAt_self h]

theorem loadWritten_clip_other {p : Nat} (h : p ≠ l.position) :
    clipAt? (s.loadWritten l rest m).csc.directory p = clipAt? s.csc.directory p := by
  rw [loadWritten_directory, clipAt_mapClipAt_other h]

theorem takeLoadWrite_more (h : c.stored + 1 ≠ c.expected) : s.takeLoadWrite l c rest m = s.loadWritten l rest m := if_neg h

theorem takeLoadWrite_last (h : c.stored + 1 = c.expected) :
    s.takeLoadWrite l c rest m = (s.loadWritten l rest m).completeLoad l.position c := if_pos h

theorem takeLoadWrite_kept (s : State) (l : LoadContext) (c : Clip) (rest : List LoadEntry) (m : Memory) :
    (s.takeLoadWrite l c rest m).csc = { s.csc with
        memory := m, marker := .load
        load := (s.takeLoadWrite l c rest m).csc.load, framing := (s.takeLoadWrite l c rest m).csc.framing
        directory := (s.takeLoadWrite l c rest m).csc.directory, counters := (s.takeLoadWrite l c rest m).csc.counters }
      ∧ (∀ p, p ≠ l.position → clipAt? (s.takeLoadWrite l c rest m).csc.directory p = clipAt? s.csc.directory p)
      ∧ OnlyNotifies s (s.takeLoadWrite l c rest m) := by
  by_cases h : c.stored + 1 = c.expected
  · rw [takeLoadWrite_last h]
    obtain ⟨store, others, notifies⟩ := completeLoad_kept (s.loadWritten l rest m) l.position c
    refine ⟨?_, fun p hp => (others p hp).trans (loadWritten_clip_other hp), notifies⟩
    rw [store]
    rfl
  · rw [takeLoadWrite_more h]
    exact ⟨rfl, fun p hp => loadWritten_clip_other hp, .of_mgp rfl⟩

theorem exec_loadWrite {e : LoadEntry} (hr : s.Running) (granted : s.grant? = some .loadWrite) (hl : s.csc.load = some l)
    (hc : clipAt? s.csc.directory l.position = some c) (hb : l.buffer = e :: rest) : exec .loadWrite s =
      .next (s.takeLoadWrite l c rest (Memory.writeSlot s.csc.memory e.slot (slotImage e.packet e.info))) := by
  change execLoadWrite s = _
  unfold execLoadWrite
  rw [ifRunning_of_running hr, if_pos granted, loading_of_load hl hc]
  dsimp only
  rw [hb]

theorem exec_loadIdleTimeout {n : Nat} (hr : s.Running) (hl : s.csc.load = some l)
    (hc : clipAt? s.csc.directory l.position = some c) (idle : l.idle = some n) (due : l.idleLimit ≤ n) :
    exec .loadIdleTimeout s = .next (s.faultLoad l.position c.id .timeout) := by
  have reached : s.loadIdleDue = true := by simp only [State.loadIdleDue, hl, idle, due, decide_true]
  change execLoadIdleTimeout s = _
  unfold execLoadIdleTimeout
  rw [ifRunning_of_running hr, loading_of_load hl hc]
  exact congrArg _ (if_pos reached)

end

/-- Settles O44: the write of the head packet, the outcome of the load it may complete (`loadFault?`), and the timeout. -/
theorem loadWritesAndTimeout : Obligations.LoadWritesAndTimeout := by
  refine fun s l c hr hl hc => ⟨fun e rest granted hb hslot => ?write, fun n idle due => ?timeout⟩
  case write =>
    have hexec := exec_loadWrite hr granted hl hc hb
    obtain ⟨inside, outside⟩ := Memory.writeSlot_image s.csc.memory hslot e.packet e.info
    generalize Memory.writeSlot s.csc.memory e.slot (slotImage e.packet e.info) = m at hexec inside outside
    obtain ⟨store, others, notifies⟩ := takeLoadWrite_kept s l c rest m
    have memory := congrArg Csc.memory store
    have written := congrArg Csc.written store
    have freeRuns := congrArg Csc.freeRuns store
    have reads := congrArg Csc.reads store
    have frame : OnlyChanges [.csc, .mgp] s _ := exec_frame hexec
    refine ⟨_, hexec, by rwa [memory], by rwa [memory], congrArg Csc.marker store, fun more => ?more, fun last => ?last, others,
      written, freeRuns, reads, frame, notifies⟩
    case more =>
      rw [takeLoadWrite_more more]
      exact ⟨loadWritten_clip hc, rfl, rfl⟩
    case last =>
      have clip := loadWritten_clip (rest := rest) (m := m) hc
      rw [takeLoadWrite_last last]
      refine ⟨congrArg Csc.load (completeLoad_kept _ _ _).1, fun differs => ?_, fun same unstamped => ?_, fun same stamped => ?_⟩
      · rw [completeLoad_fault (loadFault_fingerprint differs)]
        exact ⟨faultLoad_clip _ _ clip, faultLoad_raised (s.loadWritten l rest m) _ _ _⟩
      · rw [completeLoad_fault (loadFault_noClock same unstamped)]
        exact ⟨faultLoad_clip _ _ clip, faultLoad_raised (s.loadWritten l rest m) _ _ _⟩
      · rw [completeLoad_ready (loadFault_none same stamped)]
        exact ⟨readyClip_clip c.id (stampLoad_clip (s := (s.loadWritten l rest m).setCsc _) clip), rfl,
          readyClip_raised (((s.loadWritten l rest m).setCsc _).stampLoad l.position) _ _⟩
  case timeout =>
    have hexec := exec_loadIdleTimeout hr hl hc idle due
    have frame : OnlyChanges [.csc, .mgp] s _ := exec_frame hexec
    exact ⟨_, hexec, rfl, rfl, rfl, faultLoad_clip _ _ hc, rfl, faultLoad_raised _ _ _ _, rfl, frame,
      faultLoad_onlyNotifies _ _ _ _⟩

end Machine
end Sys2Proof
end

section
/-! PROOFS. Clip reads taken, judged and completed (R130, R131, R158). -/

set_option Elab.async false

namespace Sys2Proof
namespace Machine

/-! ## The judgement of a read (R130) -/

theorem judgeClipRead_good {k : Nat} {bytes : List Byte} (h : (slotInfo bytes).tag = k % 65536 ∧ slotValid bytes = true
    ∧ (slotInfo bytes).check = crc8 (bytes.take 188)) : judgeClipRead k bytes = .good (bytes.take 188) (slotInfo bytes) := by
  obtain ⟨tag, valid, check⟩ := h
  refine if_neg ?_
  rintro (other | invalid | wrong)
  · exact other tag
  · exact nomatch invalid.symm.trans valid
  · exact wrong check

theorem judgeClipRead_faulty {k : Nat} {bytes : List Byte} (h : ¬ ((slotInfo bytes).tag = k % 65536 ∧ slotValid bytes = true
    ∧ (slotInfo bytes).check = crc8 (bytes.take 188))) : judgeClipRead k bytes = .faulty := by
  refine if_pos ?_
  by_contra none
  obtain ⟨tag, valid, check⟩ := not_or.1 none |>.imp_right not_or.1
  exact h ⟨not_not.1 tag, Bool.eq_true_of_not_eq_false valid, not_not.1 check⟩

/-! ## CLIP_READ_TAKEN (R130, R131) -/

/-- The part with a clip read taken, before its result is looked at. -/
def State.clipTaken (s : State) (slot : Word32) (live : Bool) (result : ClipReadResult) : State :=
  s.setCsc { s.csc with taken := some (.clip slot live result) }

section
variable {s : State} {slot : Word32} {live : Bool} {p : Nat} {c : Clip}

theorem takeClipRead_good (packet : List Byte) (info : SlotInfo) :
    s.takeClipRead slot live p c (.good packet info) = s.clipTaken slot live (.good packet info) := rfl

/-- A faulty read makes a READY clip FAULT. -/
theorem takeClipRead_faulty_ready (h : c.state = .ready) : s.takeClipRead slot live p c .faulty =
    ((s.clipTaken slot live .faulty).countCsc
      (fun k => { k with clipMemoryFaults := bump k.clipMemoryFaults })).faultClip p c.id .memory := if_pos h

/-- A faulty read of a clip that is not READY is only counted. -/
theorem takeClipRead_faulty_other (h : c.state ≠ .ready) : s.takeClipRead slot live p c .faulty =
    (s.clipTaken slot live .faulty).countCsc (fun k => { k with clipMemoryFaults := bump k.clipMemoryFaults }) := if_neg h

theorem takeClipRead_onlyNotifies (result : ClipReadResult) : OnlyNotifies s (s.takeClipRead slot live p c result) := by
  cases result with
  | good packet info => exact .of_mgp rfl
  | faulty =>
    by_cases h : c.state = .ready
    · rw [takeClipRead_faulty_ready h]
      exact faultClip_onlyNotifies ((s.clipTaken slot live .faulty).countCsc _) _ _ _
    · rw [takeClipRead_faulty_other h]
      exact .of_mgp rfl

theorem takeClipRead_kept (result : ClipReadResult) : (s.takeClipRead slot live p c result).csc.reads = s.csc.reads
    ∧ (s.takeClipRead slot live p c result).csc.memory = s.csc.memory := by
  cases result with
  | good packet info => exact ⟨rfl, rfl⟩
  | faulty =>
    by_cases h : c.state = .ready
    · rw [takeClipRead_faulty_ready h]
      exact ⟨rfl, rfl⟩
    · rw [takeClipRead_faulty_other h]
      exact ⟨rfl, rfl⟩

theorem takeClipRead_faults (ready : c.state = .ready) (hc : clipAt? s.csc.directory p = some c) :
    clipAt? (s.takeClipRead slot live p c .faulty).csc.directory p = some { c with state := .fault, cause := some .memory }
      ∧ (s.takeClipRead slot live p c .faulty).csc.counters.clipsFaulted = bump s.csc.counters.clipsFaulted
      ∧ RaisedBoth s (s.takeClipRead slot live p c .faulty) [noticeAt s .clipFault (.clipId c.id) (.fault .memory)] := by
  rw [takeClipRead_faulty_ready ready]
  exact ⟨faultClip_clip _ _ hc, rfl, faultClip_raised ((s.clipTaken slot live .faulty).countCsc _) _ _ _⟩

theorem takeClipRead_faulty_counted : (s.takeClipRead slot live p c .faulty).csc.taken = some (.clip slot live .faulty)
    ∧ (s.takeClipRead slot live p c .faulty).csc.counters.clipMemoryFaults = bump s.csc.counters.clipMemoryFaults := by
  by_cases h : c.state = .ready
  · rw [takeClipRead_faulty_ready h]
    exact ⟨rfl, rfl⟩
  · rw [takeClipRead_faulty_other h]
    exact ⟨rfl, rfl⟩

variable {id : Word32} {k address : Nat} {rest : List FetchRead} (free : s.csc.taken = none)
  (reads : s.csc.reads = .clip slot live p id k address :: rest)
include free reads

theorem grant_clipRead : s.grant? = some .clipRead := by
  unfold State.grant?
  rw [free, reads]

variable (hr : s.Running)
include hr

theorem exec_clipReadTaken_dropped (gone : ∀ c, clipAt? s.csc.directory p = some c → c.id ≠ id) :
    exec .clipReadTaken s = .next (s.setCsc { s.csc with reads := rest }) := by
  change execClipReadTaken s = _
  unfold execClipReadTaken
  rw [ifRunning_of_running hr, if_pos (grant_clipRead free reads), reads]
  dsimp only
  cases h : clipAt? s.csc.directory p with
  | none => rfl
  | some c => exact congrArg _ (if_neg (gone c h))

theorem exec_clipReadTaken_judged (hc : clipAt? s.csc.directory p = some c) (hid : c.id = id) :
    exec .clipReadTaken s = .next ((s.setCsc { s.csc with reads := rest }).takeClipRead slot live p c
      (judgeClipRead k (Memory.readSlot s.csc.memory address))) := by
  change execClipReadTaken s = _
  unfold execClipReadTaken
  rw [ifRunning_of_running hr, if_pos (grant_clipRead free reads), reads]
  dsimp only
  rw [hc]
  exact congrArg _ (if_pos hid)

end

/-! ## CLIP_READ_COMPLETE (R158) -/

theorem deliverRead_self {slot : Word32} (result : ClipReadResult) (instant : SiteTime) (x : ClipContent) :
    deliverRead slot result ⟨slot, instant, .clip x⟩ = ⟨slot, instant, .clip { x with read := .done result }⟩ := if_pos rfl

theorem map_deliverRead_of_ne {slot : Word32} {result : ClipReadResult} {pending : List Pending}
    (h : ∀ y ∈ pending, y.slot ≠ slot) : pending.map (deliverRead slot result) = pending :=
  (List.map_congr_left fun y hy => if_neg (h y hy)).trans (List.map_id' _)

theorem exec_clipReadComplete {s : State} {slot : Word32} {live : Bool} {result : ClipReadResult} (hr : s.Running)
    (taken : s.csc.taken = some (.clip slot live result)) : exec .clipReadComplete s =
      .next (if live then (s.setCsc { s.csc with taken := none }).setSpe
          { s.spe with pendingSlots := s.spe.pendingSlots.map (deliverRead slot result) }
        else s.setCsc { s.csc with taken := none }) := by
  change execClipReadComplete s = _
  unfold execClipReadComplete
  rw [ifRunning_of_running hr, taken]
  rfl

/-- Settles O45: the read dropped or judged (`judgeClipRead`), and its result held for the slot that waits for it. -/
theorem clipReadsAreJudged : Obligations.ClipReadsAreJudged := by
  refine fun s hr => ⟨fun slot live p id k address rest free reads gone => ?dropped,
    fun slot live p id k address rest c bytes info free reads hc hid low hbytes hinfo => ?judged,
    fun slot live result taken => ?complete⟩
  case dropped => exact exec_clipReadTaken_dropped free reads hr gone
  case judged =>
    have hexec := exec_clipReadTaken_judged free reads hr hc hid
    rw [Memory.readSlot_of_lt _ low, ← hbytes] at hexec
    subst hinfo
    have frame : OnlyChanges [.csc, .mgp] s _ := exec_frame hexec
    obtain ⟨rests, memory⟩ := takeClipRead_kept (s := s.setCsc { s.csc with reads := rest }) (slot := slot) (live := live)
      (p := p) (c := c) (judgeClipRead k bytes)
    refine ⟨_, hexec, rests, memory, fun good => ?good, fun faulty => ?faulty, frame,
      takeClipRead_onlyNotifies (s := s.setCsc { s.csc with reads := rest }) _⟩
    case good =>
      rw [judgeClipRead_good good]
      exact ⟨rfl, rfl⟩
    case faulty =>
      rw [judgeClipRead_faulty faulty]
      obtain ⟨taken, counted⟩ := takeClipRead_faulty_counted (s := s.setCsc { s.csc with reads := rest }) (slot := slot)
        (live := live) (p := p) (c := c)
      refine ⟨taken, counted, fun ready => ?_, fun other => ?_⟩
      · exact hid ▸ takeClipRead_faults (s := s.setCsc { s.csc with reads := rest }) ready hc
      · rw [takeClipRead_faulty_other other]
        exact ⟨rfl, rfl⟩
  case complete =>
    have hexec := exec_clipReadComplete hr taken
    have frame : OnlyChanges [.csc, .spe] s _ := exec_frame hexec
    cases live with
    | false => exact ⟨_, hexec, rfl, fun _ => rfl, nofun, nofun, frame⟩
    | true =>
      refine ⟨_, hexec, rfl, nofun, fun _ before instant x after split others => ?_, fun _ gone => ?_, frame⟩
      · obtain ⟨hbefore, hafter⟩ := List.forall_mem_append.1 others
        change s.spe.pendingSlots.map (deliverRead slot result) = _
        rw [split, List.map_append, List.map_cons, map_deliverRead_of_ne hbefore, map_deliverRead_of_ne hafter, deliverRead_self]
      · change { s.spe with pendingSlots := s.spe.pendingSlots.map (deliverRead slot result) } = s.spe
        rw [map_deliverRead_of_ne gone]

end Machine
end Sys2Proof
end

section
/-! PROOFS. FORCE_SLATE and RELEASE_SLATE (R129, R168, R170). -/

set_option Elab.async false

namespace Sys2Proof
namespace Machine

/-! ## The slate installed (R168) -/

section
variable {dir : List (Nat × Clip)} {w : Service} {id : Word32}

theorem slateReady_of_clip {p : Nat} {c : Clip} (found : findClip? dir id = some (p, c)) (ready : c.state = .ready)
    (own : c.service = w) : slateReady dir w id = true := by
  simp only [slateReady, found, ready, own, decide_true, Bool.and_true]

theorem slateReady_eq_false (h : findClip? dir id = none ∨ ∃ p c, findClip? dir id = some (p, c)
    ∧ (c.state ≠ .ready ∨ c.service ≠ w)) : slateReady dir w id = false := by
  rcases h with gone | ⟨p, c, found, unready | foreign⟩
  · simp only [slateReady, gone]
  · simp only [slateReady, found, unready, decide_false, Bool.false_and]
  · simp only [slateReady, found, foreign, decide_false, Bool.and_false]

end

section
variable {s : State} {w : Service} {id : Word32}

theorem installSlate_first (h : (s.spe.services.get w).slate = none) : s.installSlate w id =
    ((s.addPin id).updateService w (fun x => { x with slate := some id, slatePos := 0 })).raiseSite
      .localDeviation (.clipId id) (.forced w) := by
  simp only [State.installSlate, h]

theorem installSlate_again {old : Word32} (h : (s.spe.services.get w).slate = some old) : s.installSlate w id =
    (((s.addPin id).dropPin old).updateService w (fun x => { x with slate := some id, slatePos := 0 })).raiseSite
      .localDeviation (.clipId id) (.forced w) := by
  simp only [State.installSlate, h]

/-- A pin dropped or not, the new slate stands at its first packet and the site role is told. -/
theorem installSlate_effect (s : State) (w : Service) (id : Word32) :
    (s.installSlate w id).spe.services = s.spe.services.set w { s.spe.services.get w with slate := some id, slatePos := 0 }
      ∧ Raised s (s.installSlate w id) .site [noticeAt s .localDeviation (.clipId id) (.forced w)]
      ∧ OnlyNotifies s (s.installSlate w id) := by
  cases h : (s.spe.services.get w).slate with
  | none =>
    rw [installSlate_first h]
    exact ⟨rfl, raiseSite_raised ((s.addPin id).updateService w _) _ _ _,
      raiseSite_onlyNotifies ((s.addPin id).updateService w _) _ _ _⟩
  | some old =>
    rw [installSlate_again h]
    exact ⟨rfl, raiseSite_raised (((s.addPin id).dropPin old).updateService w _) _ _ _,
      raiseSite_onlyNotifies (((s.addPin id).dropPin old).updateService w _) _ _ _⟩

/-! ## FORCE SLATE at its owner (R168) -/

theorem ownForceSlate_done {v : Byte} {p : Nat} {c : Clip} (hw : Service.ofNat? v.toNat = some w)
    (found : findClip? s.csc.directory id = some (p, c)) (ready : c.state = .ready) (own : c.service = w) :
    ownForceSlate v id s = { state := s.installSlate w id, code := .done } := by
  simp only [ownForceSlate, hw, slateReady_of_clip found ready own, if_true]

theorem ownForceSlate_invalid {v : Byte} (h : v.toNat < 1 ∨ 4 < v.toNat ∨ findClip? s.csc.directory id = none
    ∨ ∃ p c, findClip? s.csc.directory id = some (p, c) ∧ (c.state ≠ .ready ∨ Service.ofNat? v.toNat ≠ some c.service)) :
    ownForceSlate v id s = { state := s, code := .invalid } := by
  cases hw : Service.ofNat? v.toNat with
  | none => simp only [ownForceSlate, hw]
  | some w =>
    have named : ¬ (v.toNat < 1 ∨ 4 < v.toNat) := fun out => nomatch hw.symm.trans (Service.ofNat_eq_none out)
    have refused : slateReady s.csc.directory w id = false := by
      refine slateReady_eq_false ?_
      rcases h with low | high | gone | ⟨p, c, found, unready | foreign⟩
      · exact absurd (.inl low) named
      · exact absurd (.inr high) named
      · exact .inl gone
      · exact .inr ⟨p, c, found, .inl unready⟩
      · exact .inr ⟨p, c, found, .inr fun own => foreign (own ▸ hw)⟩
    simp only [ownForceSlate, hw, refused, Bool.false_eq_true, if_false]

theorem ownForceSlate_onlyNotifies (v : Byte) (id : Word32) (s : State) : OnlyNotifies s (ownForceSlate v id s).state := by
  unfold ownForceSlate
  split
  · exact .refl s
  · next w _ =>
    split
    · exact (installSlate_effect s w id).2.2
    · exact .refl s

end

/-! ## The slate released (R170) -/

section
variable {s : State} {w : Service}

theorem afterRelease_programme (h : (s.spe.services.get w).window = .none) : s.afterRelease w = s.markReturning w := by
  simp only [State.afterRelease, h]

theorem afterRelease_clip {n : Word16} (h : (s.spe.services.get w).window = .clip n) :
    s.afterRelease w = s.updateService w (fun x => { x with resumeDue := true }) := by
  simp only [State.afterRelease, h]

theorem afterRelease_blank {n : Word16} (h : (s.spe.services.get w).window = .blank n) : s.afterRelease w = s := by
  simp only [State.afterRelease, h]

/-- What follows a release leaves slate and window, and every other service. -/
theorem afterRelease_kept (s : State) (w : Service) :
    ((s.afterRelease w).spe.services.get w).slate = (s.spe.services.get w).slate
      ∧ ((s.afterRelease w).spe.services.get w).window = (s.spe.services.get w).window
      ∧ (∀ x, x ≠ w → (s.afterRelease w).spe.services.get x = s.spe.services.get x) := by
  cases h : (s.spe.services.get w).window with
  | none =>
    rw [afterRelease_programme h]
    exact ⟨rfl, h, fun _ _ => rfl⟩
  | clip n =>
    rw [afterRelease_clip h]
    have updated : ((s.updateService w (fun x => { x with resumeDue := true })).spe.services.get w) =
      { s.spe.services.get w with resumeDue := true } := PerService.get_set _ _ _
    exact ⟨by rw [updated], by rw [updated, ← h], fun x hx => PerService.get_set_of_ne _ hx _⟩
  | blank n =>
    rw [afterRelease_blank h]
    exact ⟨rfl, h, fun _ _ => rfl⟩

theorem markReturning_returning : ∀ c ∈ (s.markReturning w).spe.continuity,
    serviceOf? s.sst.live.map c.stream = some w → c.returning = true := by
  intro c hc own
  obtain ⟨x, -, rfl⟩ := List.mem_map.1 hc
  split at own
  · next marked => rw [if_pos marked]
  · next other => exact absurd own other

theorem dropSlate_service (s : State) (w : Service) (id : Word32) :
    (s.dropSlate w id).spe.services.get w = { s.spe.services.get w with slate := none, slatePos := 0 } := PerService.get_set _ _ _

theorem dropSlate_service_other (id : Word32) {x : Service} (h : x ≠ w) :
    (s.dropSlate w id).spe.services.get x = s.spe.services.get x := PerService.get_set_of_ne _ h _

theorem dropSlate_window (s : State) (w : Service) (id : Word32) :
    ((s.dropSlate w id).spe.services.get w).window = (s.spe.services.get w).window := by
  rw [dropSlate_service]

theorem dropSlate_raised (s : State) (w : Service) (id : Word32) :
    Raised s (s.dropSlate w id) .site [noticeAt s .localDeviation (.clipId id) (.released w)] :=
  raiseSite_raised ((s.dropPin id).updateService w _) _ _ _

theorem dropSlate_onlyNotifies (s : State) (w : Service) (id : Word32) : OnlyNotifies s (s.dropSlate w id) :=
  raiseSite_onlyNotifies ((s.dropPin id).updateService w _) _ _ _

theorem afterRelease_mgp (s : State) (w : Service) : (s.afterRelease w).mgp = s.mgp := afterRelease_frame s w .mgp (by decide)
theorem afterRelease_csc (s : State) (w : Service) : (s.afterRelease w).csc = s.csc := afterRelease_frame s w .csc (by decide)

/-- The slate dropped, with what the window calls for after it. -/
def State.releaseSlate (s : State) (w : Service) (id : Word32) : State := (s.dropSlate w id).afterRelease w

theorem releaseSlate_csc (s : State) (w : Service) (id : Word32) : (s.releaseSlate w id).csc = (s.dropPin id).csc :=
  afterRelease_csc _ w

theorem releaseSlate_raised (s : State) (w : Service) (id : Word32) :
    Raised s (s.releaseSlate w id) .site [noticeAt s .localDeviation (.clipId id) (.released w)] := by
  unfold Raised
  rw [State.releaseSlate, afterRelease_mgp]
  exact dropSlate_raised s w id

theorem releaseSlate_onlyNotifies (s : State) (w : Service) (id : Word32) : OnlyNotifies s (s.releaseSlate w id) :=
  (dropSlate_onlyNotifies s w id).trans (.of_mgp (afterRelease_mgp _ w))

theorem releaseSlate_services (s : State) (w : Service) (id : Word32) :
    ((s.releaseSlate w id).spe.services.get w).slate = none
      ∧ ((s.releaseSlate w id).spe.services.get w).window = (s.spe.services.get w).window
      ∧ (∀ x, x ≠ w → (s.releaseSlate w id).spe.services.get x = s.spe.services.get x) := by
  obtain ⟨slate, window, others⟩ := afterRelease_kept (s.dropSlate w id) w
  exact ⟨slate.trans (by rw [dropSlate_service]), window.trans (dropSlate_window s w id),
    fun x hx => (others x hx).trans (dropSlate_service_other id hx)⟩

/-- PROGRAMME is the source again: the service's streams return. -/
theorem releaseSlate_programme (id : Word32) (h : (s.spe.services.get w).window = .none) :
    ∀ c ∈ (s.releaseSlate w id).spe.continuity, serviceOf? s.sst.live.map c.stream = some w → c.returning = true := by
  rw [State.releaseSlate, afterRelease_programme ((dropSlate_window s w id).trans h)]
  exact markReturning_returning (s := s.dropSlate w id)

/-- CLIP is the source again: a new pass begins. -/
theorem releaseSlate_clip (id : Word32) {n : Word16} (h : (s.spe.services.get w).window = .clip n) :
    ((s.releaseSlate w id).spe.services.get w).resumeDue = true := by
  rw [State.releaseSlate, afterRelease_clip ((dropSlate_window s w id).trans h)]
  exact congrArg ServiceState.resumeDue (PerService.get_set _ _ _)

/-! ## RELEASE SLATE at its owner (R170) -/

variable {v : Byte}

theorem ownReleaseSlate_invalid (h : v.toNat < 1 ∨ 4 < v.toNat) : ownReleaseSlate v s = { state := s, code := .invalid } := by
  simp only [ownReleaseSlate, Service.ofNat_eq_none h]

theorem ownReleaseSlate_onlyNotifies (v : Byte) (s : State) : OnlyNotifies s (ownReleaseSlate v s).state := by
  unfold ownReleaseSlate
  split
  · exact .refl s
  · split
    · exact .refl s
    · exact releaseSlate_onlyNotifies s _ _

variable (hw : Service.ofNat? v.toNat = some w)
include hw

theorem ownReleaseSlate_state (h : (s.spe.services.get w).slate = none) :
    ownReleaseSlate v s = { state := s, code := .state } := by
  simp only [ownReleaseSlate, hw, h]

theorem ownReleaseSlate_done {old : Word32} (h : (s.spe.services.get w).slate = some old) :
    ownReleaseSlate v s = { state := s.releaseSlate w old, code := .done } := by
  simp only [ownReleaseSlate, hw, h]
  rfl

end

/-- Settles O46: each command's outcome by its first check that fails, and else the slate installed or released. -/
theorem slateCommands : Obligations.SlateCommands := by
  refine fun s v id hl => ⟨?force, ?release⟩
  case force =>
    have hexec : exec (.forceSlate .site v id) s = .next ((ownForceSlate v id (s.commanded .site .forceSlate
        (v :: toBytes 4 id.toNat))).recorded .site .forceSlate) := ifRunning_takeCommand hl (.inr rfl)
    have notifies := ownForceSlate_onlyNotifies v id (s.commanded .site .forceSlate (v :: toBytes 4 id.toNat))
    have answered : Answered s ((ownForceSlate v id (s.commanded .site .forceSlate (v :: toBytes 4 id.toNat))).recorded .site
      .forceSlate) .site .forceSlate (v :: toBytes 4 id.toNat) _ _ := notifies.answered
    have frame : OnlyChanges [.mgp, .csc, .spe] s _ := exec_frame hexec
    refine ⟨_, hexec, fun w p c hw found ready own => ?_, fun invalid => ?_, frame.widen, notifies.commanded_answersAndNotifies⟩
    · rw [ownForceSlate_done (s := s.commanded _ _ _) hw found ready own] at answered ⊢
      obtain ⟨services, raised, -⟩ := installSlate_effect (s.commanded .site .forceSlate (v :: toBytes 4 id.toNat)) w id
      refine ⟨services, fun first => ?_, fun old again => ?_, answered, raised.commanded⟩
      · rw [Taken.recorded_csc, installSlate_first (s := s.commanded _ _ _) first]
        rfl
      · rw [Taken.recorded_csc, installSlate_again (s := s.commanded _ _ _) again]
        rfl
    · rw [ownForceSlate_invalid (s := s.commanded _ _ _) invalid] at answered ⊢
      exact ⟨rfl, rfl, answered, (Raised.nil rfl : Raised (s.commanded _ _ _) (s.commanded _ _ _) .site []).commanded⟩
  case release =>
    have hexec : exec (.releaseSlate .site v) s = .next ((ownReleaseSlate v (s.commanded .site .releaseSlate [v])).recorded .site
      .releaseSlate) := ifRunning_takeCommand hl (.inr rfl)
    have notifies := ownReleaseSlate_onlyNotifies v (s.commanded .site .releaseSlate [v])
    have answered : Answered s ((ownReleaseSlate v (s.commanded .site .releaseSlate [v])).recorded .site .releaseSlate) .site
      .releaseSlate [v] _ _ := notifies.answered
    have frame : OnlyChanges [.mgp, .csc, .spe] s _ := exec_frame hexec
    refine ⟨_, hexec, fun invalid => ?_, fun w hw => ⟨fun bare => ?_, fun old slated => ?_⟩, frame.widen,
      notifies.commanded_answersAndNotifies⟩
    · rw [ownReleaseSlate_invalid invalid] at answered ⊢
      exact ⟨rfl, rfl, answered⟩
    · rw [ownReleaseSlate_state (s := s.commanded _ _ _) hw bare] at answered ⊢
      exact ⟨rfl, rfl, answered⟩
    · rw [ownReleaseSlate_done (s := s.commanded _ _ _) hw slated] at answered ⊢
      obtain ⟨slate, window, others⟩ := releaseSlate_services (s.commanded .site .releaseSlate [v]) w old
      exact ⟨slate, window, others, releaseSlate_csc _ _ _, releaseSlate_programme (s := s.commanded _ _ _) old,
        fun n opened => releaseSlate_clip (s := s.commanded _ _ _) old opened, answered,
        (releaseSlate_raised (s.commanded .site .releaseSlate [v]) w old).commanded⟩

end Machine
end Sys2Proof
end

section
/-! PROOFS. A part in reset (R174, R200): every command but the reset commands leaves it, and no address is acknowledged. -/

set_option Elab.async false

namespace Sys2Proof
namespace Machine

section
variable {s : State} (h : s.inReset ≠ none)
include h

theorem ifRunning_inReset (f : State → State) : ifRunning s f = .next s := by
  obtain ⟨src, hsrc⟩ := Option.ne_none_iff_exists'.1 h
  unfold ifRunning
  rw [hsrc]

/-- A fall of REFOK in reset is no edge: its level alone is followed (R4, R200; log 7). -/
theorem execRefokFall_inReset : ∃ t, execRefokFall s = .next t ∧ OnlyChanges [.refok] s t := by
  unfold execRefokFall
  split
  · exact ⟨_, ifRunning_inReset (s := s.setRefok false) h _, setRefok_frame s false⟩
  · exact ⟨_, rfl, .refl _ s⟩

/-- Every command that reset does not heed stands behind `ifRunning`. -/
theorem exec_inReset {c : Instr} (powerOn : c ≠ .powerOn) (resetPin : c ≠ .resetPin) (resetEnds : ∀ a1 a2, c ≠ .resetEnds a1 a2)
    (fall : c ≠ .refokFall) (rise : c ≠ .refokRise) : exec c s = .next s := by
  cases c
  case powerOn => exact absurd rfl powerOn
  case resetPin => exact absurd rfl resetPin
  case resetEnds a1 a2 => exact absurd rfl (resetEnds a1 a2)
  case refokFall => exact absurd rfl fall
  case refokRise => exact absurd rfl rise
  all_goals
    delta exec
    exact ifRunning_inReset h _

theorem readPhase_inReset (a : BitVec 7) (sent : Nat) : s.readPhase a sent = (s, []) := by
  obtain ⟨src, hsrc⟩ := Option.ne_none_iff_exists'.1 h
  unfold State.readPhase
  rw [hsrc]

end

/-- Settles O3: the two edges of REFOK follow its level, and every other command stands behind `ifRunning` (`exec_inReset`). -/
theorem resetTakesNoInput : Obligations.ResetTakesNoInput := by
  refine ⟨fun c s h powerOn resetPin resetEnds => ?_, fun s a sent h => readPhase_inReset h a sent⟩
  by_cases fall : c = .refokFall
  · subst fall
    obtain ⟨t, hexec, frame⟩ := execRefokFall_inReset h
    exact ⟨t, hexec, frame, fun other => absurd rfl other⟩
  · by_cases rise : c = .refokRise
    · subst rise
      exact ⟨_, rfl, setRefok_frame s true, fun _ other => absurd rfl other⟩
    · exact ⟨s, exec_inReset h powerOn resetPin resetEnds fall rise, .refl _ s, fun _ _ => rfl⟩

end Machine
end Sys2Proof
end

section
/-! PROOFS. What the events of the blocks make of the Management Port: notices, and no more (R186). -/

set_option Elab.async false

namespace Sys2Proof
namespace Machine

theorem ifRunning_onlyNotifies {s t : State} {f : State → State} (h : ifRunning s f = .next t) (hf : OnlyNotifies s (f s)) :
    OnlyNotifies s t := by
  rcases ifRunning_next h with rfl | rfl
  · exact .refl _
  · exact hf

/-! ## The Time Base Unit -/

section
variable (s : State)

theorem steerLimit_onlyNotifies : OnlyNotifies s s.steerLimit := by
  have counted : ∀ n, OnlyNotifies s (s.setTbu { s.tbu with steerLimitRun := n }) := fun _ => .of_mgp rfl
  rw [steerLimit_eq]
  exact .ite ((counted _).trans (raiseSite_onlyNotifies _ _ _ _)) (counted _)

theorem handled_onlyNotifies (u : Tbu) : OnlyNotifies s (s.handled u) := by
  have set : ∀ (s : State) x, OnlyNotifies s (s.setTbu x) := fun _ _ => .of_mgp rfl
  unfold State.handled
  split
  case h_3 =>
    by_cases h : (phaseError s.tbu.time).natAbs ≤ (s.setTbu u).sst.live.lockWindow
    · rw [lockedPulse_loop _ h]
      exact (((set s u).trans (set _ _)).trans (steerLimit_onlyNotifies _)).trans (set _ _)
    · rw [lockedPulse_outlier _ (Nat.lt_of_not_le h)]
      exact ((set s u).trans (set _ _)).trans (set _ _)
  all_goals exact set s _

theorem pulse_onlyNotifies : OnlyNotifies s s.pulse := by
  by_cases hr : s.refok = true
  · by_cases hu : s.tbu.state = .unset
    · have timed : OnlyNotifies s ((s.setTbu { s.tbu with held := none }).setTime s.tbu.held) :=
        .of_mgp (setTime_frame (s.setTbu _) _ .mgp (by decide))
      rw [pulse_unset hr hu]
      exact timed.trans (afterTbu_onlyNotifies _ _)
    · by_cases hx : s.tbu.Extra
      · rw [pulse_extra hr hu hx]
        exact .of_mgp rfl
      · rw [pulse_taken hr hu hx]
        exact (handled_onlyNotifies s _).trans (afterTbu_onlyNotifies _ _)
  · rw [pulse_ignored (Bool.eq_false_iff.2 hr)]
    exact .of_mgp rfl

end

theorem execRefokFall_onlyNotifies {s t : State} (h : execRefokFall s = .next t) : OnlyNotifies s t := by
  unfold execRefokFall at h
  split at h
  · have level : OnlyNotifies s (s.setRefok false) := .of_mgp rfl
    exact level.trans (ifRunning_onlyNotifies h (setTbu_afterTbu_onlyNotifies _ _ _))
  · exact Host.Outcome.next.inj h ▸ .refl s

/-! ## The Feed Intake -/

theorem execPacketComplete_onlyNotifies {s t : State} {l : List Byte} {e : Bool} (h : execPacketComplete l e s = .next t) :
    OnlyNotifies s t := by
  have set : ∀ x, OnlyNotifies s (s.setFiu x) := fun _ => .of_mgp rfl
  refine ifRunning_onlyNotifies h ?_
  split
  · exact .ite (.ite ((set _).trans (goodPacket_onlyNotifies _)) ((set _).trans (badPacket_onlyNotifies _))) (.refl s)
  all_goals exact .refl s

theorem execShortPacket_onlyNotifies {s t : State} {b : Byte} {e : Bool} (h : execShortPacket b e s = .next t) :
    OnlyNotifies s t := by
  have set : ∀ x, OnlyNotifies s (s.setFiu x) := fun _ => .of_mgp rfl
  refine ifRunning_onlyNotifies h ?_
  split
  · exact (set _).trans (badPacket_onlyNotifies _)
  all_goals exact .refl s

theorem execGapExpiry_onlyNotifies {s t : State} (h : execGapExpiry s = .next t) : OnlyNotifies s t := by
  have set : ∀ (s : State) x, OnlyNotifies s (s.setFiu x) := fun _ _ => .of_mgp rfl
  refine ifRunning_onlyNotifies h (.ite ?_ (.refl s))
  dsimp only
  split
  · exact (set s _).trans (loseFeed_onlyNotifies _)
  · exact ((set s _).trans (set _ _)).trans (setFeed_onlyNotifies _ _)
  all_goals exact set s _

theorem feedOut_onlyNotifies (s : State) : OnlyNotifies s s.feedOut :=
  (OnlyNotifies.of_mgp rfl).trans (setMute_onlyNotifies (s.setEsc _) _ _)

/-! ## Directives -/

theorem onDirective_onlyNotifies {s t : State} {k : Byte → Bool} {f : State → InHand → Directive → State}
    (h : ifRunning s (·.onDirective k f) = .next t) (hf : ∀ i d, OnlyNotifies s (f s i d)) : OnlyNotifies s t := by
  refine ifRunning_onlyNotifies (f := (·.onDirective k f)) h ?_
  unfold State.onDirective
  split
  · split
    · exact .ite (nextDirective_onlyNotifies (hf _ _)) (.refl s)
    · exact .refl s
  · exact .refl s

theorem reachCancel_onlyNotifies (s : State) (i : InHand) (d : Directive) : OnlyNotifies s (s.reachCancel i d) := by
  unfold State.reachCancel State.filterArea
  exact .ite (.ite (takeCancel_onlyNotifies s _) (.of_mgp rfl)) (.of_mgp rfl)

/-! ## Emission and hand-off -/

theorem execRingReadComplete_onlyNotifies {s t : State} (h : execRingReadComplete s = .next t) : OnlyNotifies s t := by
  have set : ∀ x, OnlyNotifies s (s.setCsc x) := fun _ => .of_mgp rfl
  refine ifRunning_onlyNotifies h ?_
  split
  · dsimp only
    split
    · exact .ite ((set _).trans deliverSlot_onlyNotifies) (set _)
    · exact set _
  all_goals exact .refl s

theorem execSlotEmission_onlyNotifies {s t : State} (h : execSlotEmission s = .next t) : OnlyNotifies s t := by
  refine ifRunning_onlyNotifies h ?_
  split
  · exact emitSlot_onlyNotifies
  all_goals exact .refl s

theorem execFillEmission_onlyNotifies {s t : State} (h : execFillEmission s = .next t) : OnlyNotifies s t := by
  refine ifRunning_onlyNotifies h ?_
  split
  · rw [emitFill_eq]
    exact (OnlyNotifies.of_mgp rfl).trans (instant_onlyNotifies s.fillTaken _ _)
  all_goals exact .refl s

/-! ## The Clip Store Controller -/

theorem completeInsertion_onlyNotifies (s : State) (l : LoadContext) (c : Clip) (p : List Byte) :
    OnlyNotifies s (s.completeInsertion l c p) := by
  unfold State.completeInsertion
  split
  case h_3 => exact faultLoad_onlyNotifies s _ _ _
  all_goals exact .of_mgp rfl

theorem execInsertionPacketComplete_onlyNotifies {s t : State} {l : List Byte} (h : execInsertionPacketComplete l s = .next t) :
    OnlyNotifies s t := by
  refine ifRunning_onlyNotifies h ?_
  split
  · exact .ite (completeInsertion_onlyNotifies s _ _ _) (.refl s)
  all_goals exact .refl s

theorem takeLoadWrite_onlyNotifies (s : State) (l : LoadContext) (c : Clip) (rest : List LoadEntry) (m : Memory) :
    OnlyNotifies s (s.takeLoadWrite l c rest m) := by
  have written : ∀ x, OnlyNotifies s (s.setCsc x) := fun _ => .of_mgp rfl
  unfold State.takeLoadWrite
  obtain ⟨-, -, completed⟩ := completeLoad_kept (s.setCsc { s.csc with
    memory := m
    marker := .load
    load := some { l with buffer := rest }
    directory := mapClipAt s.csc.directory l.position (fun x => { x with stored := x.stored + 1 }) }) l.position c
  exact .ite ((written _).trans completed) (written _)

theorem execLoadWrite_onlyNotifies {s t : State} (h : execLoadWrite s = .next t) : OnlyNotifies s t := by
  refine ifRunning_onlyNotifies h (.ite ?_ (.refl s))
  split
  · split
    · exact takeLoadWrite_onlyNotifies s _ _ _ _
    · exact .refl s
  · exact .refl s

theorem execLoadIdleTimeout_onlyNotifies {s t : State} (h : execLoadIdleTimeout s = .next t) : OnlyNotifies s t := by
  refine ifRunning_onlyNotifies h ?_
  split
  · exact .ite (faultLoad_onlyNotifies s _ _ _) (.refl s)
  · exact .refl s

theorem execClipReadTaken_onlyNotifies {s t : State} (h : execClipReadTaken s = .next t) : OnlyNotifies s t := by
  have left : ∀ x, OnlyNotifies s (s.setCsc x) := fun _ => .of_mgp rfl
  refine ifRunning_onlyNotifies h (.ite ?_ (.refl s))
  split
  · dsimp only
    split
    · exact .ite ((left _).trans (takeClipRead_onlyNotifies _)) (left _)
    · exact left _
  all_goals exact .refl s

end Machine
end Sys2Proof
end

section
/-! PROOFS. The save hold, the save and the stored image stay in agreement through every step (R184, R194 to R196). -/

set_option Elab.async false

namespace Sys2Proof
namespace Machine

/-! ## Changes that keep the agreement -/

/-- From `s` to `t` the hold, the save and the image stay in agreement. -/
def SaveKept (s t : State) : Prop := s.SaveConsistent → t.SaveConsistent

section
variable {s t u : State}

theorem SaveKept.refl (s : State) : SaveKept s s := id

theorem SaveKept.trans (h : SaveKept s t) (k : SaveKept t u) : SaveKept s u := fun c => k (h c)

theorem SaveKept.ite {c : Prop} [Decidable c] (h : SaveKept s t) (k : SaveKept s u) : SaveKept s (if c then t else u) := by
  split
  · exact h
  · exact k

/-- What leaves the holds, whether a save is in progress, and the image. -/
theorem SaveKept.of_same (held : ∀ r, t.held r = s.held r) (save : t.sst.save.isSome = s.sst.save.isSome := by rfl)
    (image : t.sst.image = s.sst.image := by rfl) (judged : t.sst.imageState = s.sst.imageState := by rfl) : SaveKept s t := by
  rintro ⟨site, insertion, invalid⟩
  refine ⟨by rw [held, save, site], by rw [held, insertion], ?_⟩
  rw [save, image, judged]
  exact invalid

theorem OnlyNotifies.held (h : OnlyNotifies s t) (r : Role) : t.held r = s.held r := by
  obtain ⟨ports, -⟩ := h
  obtain ⟨-, -, hold, -⟩ := ports r
  exact hold

/-- What raises notices and leaves the Settings Store alone. -/
theorem SaveKept.notified {a : List Part} (n : OnlyNotifies s t) (frame : OnlyChanges a s t) (hs : .sst ∉ a := by decide) :
    SaveKept s t := by
  have sst : t.sst = s.sst := frame .sst hs
  exact .of_same n.held (by rw [sst]) (by rw [sst]) (by rw [sst])

theorem SaveKept.of_event {c : Instr} (h : exec c s = .next t) (n : OnlyNotifies s t)
    (hs : .sst ∉ touchedParts c := by simp [touchedParts]) : SaveKept s t := .notified n (exec_frame h) hs

theorem ifRunning_saveKept {f : State → State} (h : ifRunning s f = .next t) (hf : SaveKept s (f s)) : SaveKept s t := by
  rcases ifRunning_next h with rfl | rfl
  · exact .refl _
  · exact hf

end

theorem setPending_saveKept (s : State) (x : List Instr) : SaveKept s (s.setPending x) := .of_same fun _ => rfl

theorem setChoices_saveKept (s : State) (x : Nat) : SaveKept s (s.setChoices x) := .of_same fun _ => rfl

theorem setLive_saveKept (s : State) (x : Settings) (b : Bool) : SaveKept s (s.setLive x b) := .of_same fun _ => rfl

/-! ## Ports (R183, R184) -/

section
variable (s : State) (r : Role)

theorem updatePort_held (f : RolePort → RolePort) (hf : ∀ p, (f p).hold = p.hold) (q : Role) :
    (s.updatePort r f).held q = s.held q := by
  unfold State.held
  by_cases h : q = r
  · subst h
    rw [updatePort_port, hf]
  · obtain rfl := eq_otherRole_of_ne h
    rw [updatePort_port_other]

theorem updatePort_saveKept {f : RolePort → RolePort} (hf : ∀ p, (f p).hold = p.hold := by exact fun _ => rfl) :
    SaveKept s (s.updatePort r f) := .of_same (updatePort_held s r f hf)

theorem countPort_saveKept (f : MgpCounters → MgpCounters) : SaveKept s (s.countPort r f) := updatePort_saveKept s r

theorem record_saveKept (e : Nat) (c : ResultCode) (v : List Byte) : SaveKept s (s.record r e c v) := updatePort_saveKept s r

theorem refuseHeld_saveKept : SaveKept s (s.refuseHeld r) := countPort_saveKept s r _

theorem refuseRights_saveKept (e : Nat) : SaveKept s (s.refuseRights r e) :=
  (countPort_saveKept s r _).trans (record_saveKept _ _ _ _ _)

end

/-! ## The save itself (R184, R195) -/

/-- An image under the mark of a save is not valid (R194). -/
theorem valid_of_erased {i : StoredImage} (h : i.format = 0xFF#8) : i.valid = false := by
  have marked : decide (i.format = Config.imageFormat) = false := by
    rw [h]
    rfl
  unfold StoredImage.valid
  rw [marked]
  rfl

/-- A save begins: the hold of the site role, the save and the invalid image come together. -/
theorem ownSaveSettings_saveKept (s : State) : SaveKept s (ownSaveSettings s).state :=
  fun ⟨_, insertion, _⟩ => ⟨rfl, insertion, fun _ => ⟨valid_of_erased rfl, rfl⟩⟩

/-- A save ends: the hold goes with it. -/
theorem execSaveComplete_saveKept {s t : State} (h : execSaveComplete s = .next t) : SaveKept s t := by
  refine ifRunning_saveKept h ?_
  split
  · exact fun ⟨_, insertion, _⟩ => ⟨rfl, insertion, fun saving => nomatch saving⟩
  · exact .refl s

/-! ## The owners of commands and objects -/

theorem ownOpenLoad_mgp (id : Word32) (v : Byte) (n fp : Word32) (s : State) : (ownOpenLoad id v n fp s).state.mgp = s.mgp := by
  obtain ⟨-, -, -, mgp⟩ := ownOpenLoad_kept id v n fp s
  exact mgp

theorem ownStreamRestart_saveKept (s : State) : SaveKept s (ownStreamRestart s).state := by
  have stopped : s.streamsStopped.sst = { s.sst with cause := .streamRestart } :=
    (restartEsc_frame _ .sst (by decide)).trans (restartFiu_frame s.noteRestart .sst (by decide))
  have ended := (restartBpu_frame s.streamsStopped).seq (restartSpe_frame _) (c := [.bpu, .csc, .spe, .mgp])
  have sst : (ownStreamRestart s).state.sst = { s.sst with cause := .streamRestart } :=
    (ended .sst (by decide)).trans stopped
  exact .of_same (ownStreamRestart_onlyNotifies s).held (by rw [sst]) (by rw [sst]) (by rw [sst])

theorem clearCounters_saveKept (s : State) : SaveKept s s.clearCounters := .of_same fun r => by cases r <;> rfl

theorem commandOwner_saveKept (r : Role) (k : CommandKind) (args : List Byte) (s : State) :
    SaveKept s (commandOwner r k args s).state := by
  have quiet (n : OnlyNotifies s (commandOwner r k args s).state) (hs : .sst ∉ k.touches) := SaveKept.notified n
    (commandOwner_frame r k args s) hs
  cases k with
  | reserve => exact quiet (.of_mgp ownReserve_mgp) (by decide)
  | confirm => exact quiet (ownConfirm_onlyNotifies r s) (by decide)
  | discard => exact quiet (.of_mgp rfl) (by decide)
  | findBreak => exact quiet (.of_mgp (congrArg State.mgp ownFindBreak_state)) (by decide)
  | openLoad => exact quiet (.of_mgp (ownOpenLoad_mgp _ _ _ _ s)) (by decide)
  | abortLoad => exact quiet (.of_mgp ownAbortLoad_mgp) (by decide)
  | retireClip => exact quiet (.of_mgp ownRetireClip_mgp) (by decide)
  | clearBooking => exact quiet ownClearBooking_kept.notifies (by decide)
  | forceSlate => exact quiet (ownForceSlate_onlyNotifies _ _ s) (by decide)
  | releaseSlate => exact quiet (ownReleaseSlate_onlyNotifies _ s) (by decide)
  | forceMute => exact quiet (setMute_onlyNotifies s _ _) (by decide)
  | releaseMute => exact quiet (setMute_onlyNotifies s _ _) (by decide)
  | saveSettings => exact ownSaveSettings_saveKept s
  | streamRestart => exact ownStreamRestart_saveKept s
  | clearCounters => exact clearCounters_saveKept s

theorem ownStaging_saveKept (r : Role) (c : Byte) (d : List Byte) (s : State) : SaveKept s (ownStaging r c d s).state :=
  .notified (.of_mgp (ownStaging_mgp s r d c)) (ownStaging_frame r c d s)

theorem ownWriteOnce_saveKept (w : WriteOnceSetting) (v : Word32) (s : State) : SaveKept s (ownWriteOnce w v s).state := by
  unfold ownWriteOnce
  dsimp only
  split
  · exact .refl s
  · split
    · exact setLive_saveKept s _ _
    · exact .refl s

theorem ownOperating_saveKept (o : OperatingSetting) (v : Word32) (s : State) : SaveKept s (ownOperating o v s).state := by
  cases h : settingTaken? o v.toInt with
  | none => exact ownOperating_refused h ▸ .refl s
  | some taken =>
    rw [ownOperating_taken (v := taken.1) (c := taken.2) h]
    exact (setLive_saveKept s _ _).trans (.notified (applySetting_onlyNotifies _ o) (applySetting_frame _ o))

theorem editChecked_saveKept (s : State) (op : EditOp) (n : Nat) (old new : Option StreamClass) :
    SaveKept s (s.editChecked op n old new).state := by
  unfold State.editChecked
  split
  · exact .refl s
  · split
    · exact .refl s
    · exact setLive_saveKept s _ _

theorem ownMapEdit_saveKept (op : EditOp) (n : Word16) (c v k : Byte) (s : State) :
    SaveKept s (ownMapEdit op n c v k s).state := by
  unfold ownMapEdit
  dsimp only
  repeat' split
  all_goals first | exact .refl s | exact editChecked_saveKept s _ _ _ _

theorem ownSettingsWrite_saveKept (d : List Byte) (s : State) : SaveKept s (ownSettingsWrite d s).state := by
  unfold ownSettingsWrite
  dsimp only
  repeat' split
  all_goals first | exact .refl s | exact ownWriteOnce_saveKept _ _ s | exact ownOperating_saveKept _ _ s

theorem ownEditRecord_saveKept (d : List Byte) (s : State) : SaveKept s (ownEditRecord d s).state := by
  unfold ownEditRecord
  split
  · exact .refl s
  · split
    · exact ownMapEdit_saveKept _ _ _ _ _ s
    · exact .refl s

/-! ## Through the Management Port (R174 to R182) -/

section
variable (s : State) (r : Role)

theorem takeCommand_saveKept (k : CommandKind) (args : List Byte) {owner : State → Taken}
    (h : ∀ s, SaveKept s (owner s).state) : SaveKept s (s.takeCommand r k args owner) := by
  have taken : SaveKept s ((owner (s.commanded r k args)).recorded r k) :=
    ((updatePort_saveKept s r).trans (h _)).trans (record_saveKept _ r _ _ _)
  unfold State.takeCommand
  exact .ite (refuseHeld_saveKept s r) (.ite (refuseRights_saveKept s r _) taken)

theorem takeWrite_saveKept (o : Nat) (b : Bool) {owner : State → Taken} (h : ∀ s, SaveKept s (owner s).state) :
    SaveKept s (s.takeWrite r o b owner) := by
  unfold State.takeWrite
  exact .ite (refuseHeld_saveKept s r) (.ite (refuseRights_saveKept s r _) ((h s).trans (record_saveKept _ _ _ _ _)))

theorem stagingWrite_saveKept (c : Byte) (d : List Byte) : SaveKept s (s.stagingWrite r c d) := by
  have counted : SaveKept s (s.stagingCounted r c d) := .ite (countPort_saveKept s r _) (.refl s)
  exact counted.trans (takeWrite_saveKept _ r _ _ (ownStaging_saveKept r c d))

theorem countOverlong_saveKept (n : Nat) (d : List Byte) : SaveKept s (s.countOverlong r n d) :=
  .ite (countPort_saveKept s r _) (.refl s)

theorem writeCommand_saveKept (data : List Byte) : SaveKept s (s.writeCommand r data) := by
  unfold State.writeCommand
  dsimp only
  split
  · exact record_saveKept s r _ _ _
  · next k _ =>
    refine (countOverlong_saveKept s r k.argBytes (data.drop 1)).trans ?_
    exact .ite (refuseRights_saveKept _ r _) (.ite (record_saveKept _ r _ _ _)
      (takeCommand_saveKept _ r k _ (commandOwner_saveKept r k _)))

theorem writeSiteObject_saveKept (o n : Nat) (data : List Byte) {owner : List Byte → State → Taken}
    (h : ∀ d s, SaveKept s (owner d s).state) : SaveKept s (s.writeSiteObject r o n data owner) :=
  (countOverlong_saveKept s r n data).trans (.ite (refuseRights_saveKept _ r o) (takeWrite_saveKept _ r o true (h _)))

theorem writeObject_saveKept (o : Nat) (data : List Byte) : SaveKept s (s.writeObject r o data) := by
  unfold State.writeObject
  exact .ite (writeCommand_saveKept s r data) (.ite (stagingWrite_saveKept s r _ _)
    (.ite (writeSiteObject_saveKept s r _ _ data ownSettingsWrite_saveKept)
      (.ite (writeSiteObject_saveKept s r _ _ data ownEditRecord_saveKept) (record_saveKept s r _ _ _))))

theorem judgePhase_saveKept (f : PhaseForm) : SaveKept s (s.judgePhase r f) := by
  unfold State.judgePhase
  split
  · exact .refl s
  · exact countPort_saveKept s r _
  · exact .ite ((countPort_saveKept s r _).trans (record_saveKept _ r _ _ _)) (countPort_saveKept s r _)
  · exact .ite (.refl s) (.ite (refuseHeld_saveKept s r) (writeObject_saveKept s r _ _))

theorem nameObject_saveKept (o : Option (Role × Word16)) (b : Bool) : SaveKept s (s.nameObject o b) := .of_same fun _ => rfl

theorem writePhase_saveKept (a : BitVec 7) (bytes : List Byte) (byStop : Bool) : SaveKept s (s.writePhase a bytes byStop) := by
  unfold State.writePhase
  split
  · exact nameObject_saveKept s _ _
  · exact (judgePhase_saveKept s _ _).trans (nameObject_saveKept _ _ _)

theorem openRead_saveKept (o : Nat) : SaveKept s (s.openRead r o) :=
  .ite (.of_same fun _ => rfl) (.of_same fun _ => rfl)

theorem endRead_saveKept (o n : Nat) : SaveKept s (s.endRead r o n) := .ite (updatePort_saveKept s r) (.refl s)

end

/-! ## Every command and every step -/

theorem takeCommand_exec_saveKept {s t : State} {r : Role} {k : CommandKind} {args : List Byte} {owner : State → Taken}
    (h : ifRunning s (·.takeCommand r k args owner) = .next t) (ho : ∀ s, SaveKept s (owner s).state) : SaveKept s t :=
  ifRunning_saveKept (f := (·.takeCommand r k args owner)) h (takeCommand_saveKept s r k args ho)

theorem takeWrite_exec_saveKept {s t : State} {r : Role} {o : Nat} {b : Bool} {owner : State → Taken}
    (h : ifRunning s (·.takeWrite r o b owner) = .next t) (ho : ∀ s, SaveKept s (owner s).state) : SaveKept s t :=
  ifRunning_saveKept (f := (·.takeWrite r o b owner)) h (takeWrite_saveKept s r o b ho)

/-- A cycle of OSC27 moves the time of a save and no more of it. -/
theorem cycle_saveKept (s : State) : SaveKept s s.cycle := .of_same (fun _ => rfl) Option.isSome_map

theorem execSiteSecondBoundary_saveKept {s t : State} (h : execSiteSecondBoundary s = .next t) : SaveKept s t := by
  have noted (x : Tbu) : SaveKept s.cycle ((s.cycle.setTbu x).afterTbu s.tbu.state) :=
    .notified (setTbu_afterTbu_onlyNotifies _ _ _) (setTbu_afterTbu_frame _ _ _)
  exact ifRunning_saveKept h (.ite ((cycle_saveKept s).trans (noted _)) (.refl s))

/-- A reset begins and ends with no save and no hold (R196, R197). -/
theorem saveKept_of_none {s t : State} (save : t.sst.save = none) (held : ∀ r, t.held r = false) : SaveKept s t :=
  fun _ => ⟨by rw [held, save]; rfl, held _, fun saving => nomatch (congrArg Option.isSome save).symm.trans saving⟩

theorem execResetEnds_saveKept {s t : State} {a1 a2 : Bool} (h : execResetEnds a1 a2 s = .next t) : SaveKept s t := by
  unfold execResetEnds at h
  split at h
  · exact Host.Outcome.next.inj h ▸ saveKept_of_none rfl fun r => by cases r <;> rfl
  · exact Host.Outcome.next.inj h ▸ .refl s

theorem exec_saveKept {c : Instr} {s t : State} (h : exec c s = .next t) : SaveKept s t := by
  cases c
  case powerOn => exact Host.Outcome.next.inj h ▸ saveKept_of_none rfl fun r => by cases r <;> rfl
  case resetPin => exact Host.Outcome.next.inj h ▸ saveKept_of_none rfl fun r => by cases r <;> rfl
  case resetEnds a1 a2 => exact execResetEnds_saveKept h
  case siteSecondBoundary => exact execSiteSecondBoundary_saveKept h
  case ppsEdge => exact .of_event h (ifRunning_onlyNotifies h (pulse_onlyNotifies s))
  case missingPulse =>
    exact .of_event h (ifRunning_onlyNotifies h (.ite (setTbu_afterTbu_onlyNotifies s _ _) (.refl s)))
  case refokFall => exact .of_event h (execRefokFall_onlyNotifies h)
  case packetComplete l e => exact .of_event h (execPacketComplete_onlyNotifies h)
  case shortPacket b e => exact .of_event h (execShortPacket_onlyNotifies h)
  case gapExpiry => exact .of_event h (execGapExpiry_onlyNotifies h)
  case feedOutTimerExpiry => exact .of_event h (ifRunning_onlyNotifies h (.ite (feedOut_onlyNotifies s) (.refl s)))
  case emissionMark => exact .of_event h (onDirective_onlyNotifies h (reachMark_onlyNotifies s))
  case breakNotice => exact .of_event h (onDirective_onlyNotifies h (reachNotice_onlyNotifies s))
  case breakCancel => exact .of_event h (onDirective_onlyNotifies h (reachCancel_onlyNotifies s))
  case siteMute => exact .of_event h (onDirective_onlyNotifies h fun _ _ => reachMute_onlyNotifies)
  case ringReadComplete => exact .of_event h (execRingReadComplete_onlyNotifies h)
  case slotEmission => exact .of_event h (execSlotEmission_onlyNotifies h)
  case fillEmission => exact .of_event h (execFillEmission_onlyNotifies h)
  case armTimeReached n => exact .of_event h (ifRunning_onlyNotifies (f := (·.reachArm n)) h (reachArm_onlyNotifies s n))
  case endReached n => exact .of_event h (ifRunning_onlyNotifies (f := (·.reachEnd n)) h (reachEnd_onlyNotifies s n))
  case insertionPacketComplete l => exact .of_event h (execInsertionPacketComplete_onlyNotifies h)
  case loadWrite => exact .of_event h (execLoadWrite_onlyNotifies h)
  case loadIdleTimeout => exact .of_event h (execLoadIdleTimeout_onlyNotifies h)
  case clipReadTaken => exact .of_event h (execClipReadTaken_onlyNotifies h)
  case reserve r n => exact takeCommand_exec_saveKept h fun s => .notified (.of_mgp ownReserve_mgp) (ownReserve_frame r n s)
  case confirm r => exact takeCommand_exec_saveKept h (commandOwner_saveKept r .confirm [])
  case discard r => exact takeCommand_exec_saveKept h (commandOwner_saveKept r .discard [])
  case findBreak r n =>
    exact takeCommand_exec_saveKept h fun s => .notified (.of_mgp (congrArg State.mgp ownFindBreak_state)) (ownFindBreak_frame n s)
  case clearBooking r n =>
    exact takeCommand_exec_saveKept h fun s => .notified ownClearBooking_kept.notifies (ownClearBooking_frame n s)
  case openLoad r id v n fp =>
    exact takeCommand_exec_saveKept h fun s => .notified (.of_mgp (ownOpenLoad_mgp id v n fp s)) (ownOpenLoad_frame id v n fp s)
  case abortLoad r id =>
    exact takeCommand_exec_saveKept h fun s => .notified (.of_mgp ownAbortLoad_mgp) (ownAbortLoad_frame id s)
  case retireClip r id =>
    exact takeCommand_exec_saveKept h fun s => .notified (.of_mgp ownRetireClip_mgp) (ownRetireClip_frame id s)
  case forceSlate r v id =>
    exact takeCommand_exec_saveKept h fun s => .notified (ownForceSlate_onlyNotifies v id s) (ownForceSlate_frame v id s)
  case releaseSlate r v =>
    exact takeCommand_exec_saveKept h fun s => .notified (ownReleaseSlate_onlyNotifies v s) (ownReleaseSlate_frame v s)
  case forceMute r => exact takeCommand_exec_saveKept h (commandOwner_saveKept r .forceMute [])
  case releaseMute r => exact takeCommand_exec_saveKept h (commandOwner_saveKept r .releaseMute [])
  case saveSettings r => exact takeCommand_exec_saveKept h ownSaveSettings_saveKept
  case saveComplete => exact execSaveComplete_saveKept h
  case streamRestart r => exact takeCommand_exec_saveKept h ownStreamRestart_saveKept
  case clearCounters r => exact takeCommand_exec_saveKept h clearCounters_saveKept
  case stagingWrite r c d => exact ifRunning_saveKept (f := (·.stagingWrite r c d)) h (stagingWrite_saveKept s r c d)
  case streamMapAdd r n c v k => exact takeWrite_exec_saveKept h (ownMapEdit_saveKept .add n c v k)
  case streamMapChange r n c v k => exact takeWrite_exec_saveKept h (ownMapEdit_saveKept .change n c v k)
  case streamMapRemove r n c v k => exact takeWrite_exec_saveKept h (ownMapEdit_saveKept .remove n c v k)
  case writeOnceSettingWrite r w v => exact takeWrite_exec_saveKept h (ownWriteOnce_saveKept w v)
  case operatingSettingWrite r o v => exact takeWrite_exec_saveKept h (ownOperating_saveKept o v)
  case writePhase a b e => exact ifRunning_saveKept (f := (·.writePhase a b e)) h (writePhase_saveKept s a b e)
  case noticeHeadRead r n =>
    exact ifRunning_saveKept (f := fun s => (s.openRead r noticeHeadObject).endRead r noticeHeadObject n) h
      ((openRead_saveKept s r _).trans (endRead_saveKept _ r _ n))
  case resetCauseRead r => exact ifRunning_saveKept (f := (·.openRead r resetCauseObject)) h (openRead_saveKept s r _)
  all_goals exact .of_event h (.of_mgp (exec_frame h .mgp (by simp [touchedParts])))

theorem advance_saveKept (s : State) : SaveKept s s.advance := by
  have tick : SaveKept s s.tick := (cycle_saveKept s).trans (.of_same fun _ => rfl)
  exact .ite (setPending_saveKept s _) tick

theorem idle_saveKept (s : State) : SaveKept s s.idle := by
  unfold State.idle
  split
  · exact .refl s
  · unfold State.run
    split
    · exact setPending_saveKept s _
    · split
      · exact advance_saveKept s
      · split
        · exact (setPending_saveKept s _).trans (setChoices_saveKept _ _)
        · exact (setChoices_saveKept s _).trans (advance_saveKept _)

theorem step_saveKept {s t : State} (h : step s = .next t) : SaveKept s t := by
  unfold step at h
  split at h
  · exact (setPending_saveKept s _).trans (exec_saveKept h)
  · exact Host.Outcome.next.inj h ▸ idle_saveKept s

/-- Settles O59: SAVE_SETTINGS and SAVE_COMPLETE move hold, save and image together (`ownSaveSettings_saveKept`,
`execSaveComplete_saveKept`), a reset ends hold and save, and nothing else moves any of the three (`step_saveKept`). -/
theorem stepKeepsSaveConsistent : Obligations.StepKeepsSaveConsistent := fun _ _ hs h => step_saveKept h hs

end Machine
end Sys2Proof
end

section
/-! PROOFS. Who may give a command or a write, and what a save holds (R176, R177, R182, R184). -/

set_option Elab.async false

namespace Sys2Proof
namespace Machine

/-! ## A command or write comes through its role's port -/

/-- A command or write of a role is taken as a command, as a write of an object of the site role, or as a staging write. -/
theorem exec_of_sender {c : Instr} {r : Role} {echo : Nat} (h : senderOf? c = some (r, echo)) :
    (∃ (k : CommandKind) (args : List Byte) (owner : State → Taken), echo = k.code ∧ siteOnlyCommand c = k.siteOnly
        ∧ ∀ s, exec c s = ifRunning s (·.takeCommand r k args owner))
      ∨ (∃ owner, ∀ s, exec c s = ifRunning s (·.takeWrite r echo true owner))
      ∨ ∃ first data, c = .stagingWrite r first data := by
  cases c
  case reserve | confirm | discard | findBreak | openLoad | abortLoad | retireClip | clearBooking | forceSlate | releaseSlate |
      forceMute | releaseMute | saveSettings | streamRestart | clearCounters =>
    obtain ⟨rfl, rfl⟩ := Prod.mk.inj (Option.some.inj h)
    exact .inl ⟨_, _, _, rfl, rfl, fun _ => rfl⟩
  case streamMapAdd | streamMapChange | streamMapRemove | writeOnceSettingWrite | operatingSettingWrite =>
    obtain ⟨rfl, rfl⟩ := Prod.mk.inj (Option.some.inj h)
    exact .inr (.inl ⟨_, fun _ => rfl⟩)
  case stagingWrite r first data =>
    obtain ⟨rfl, rfl⟩ := Prod.mk.inj (Option.some.inj h)
    exact .inr (.inr ⟨first, data, rfl⟩)
  all_goals exact nomatch h

section
variable {s : State}

theorem takeWrite_siteOnly (free : s.held .insertion = false) (object : Nat) (owner : State → Taken) :
    s.takeWrite .insertion object true owner = s.refuseRights .insertion object := by
  unfold State.takeWrite
  rw [if_neg (by simp [free]), if_pos ⟨rfl, rfl⟩]

/-- What is the site role's alone is refused RIGHTS from the insertion role (R177, R182). -/
theorem exec_refusesRights {c : Instr} {echo : Nat} (hr : s.Running) (free : s.held .insertion = false)
    (h : senderOf? c = some (.insertion, echo)) (site : siteOnlyCommand c = true) :
    exec c s = .next (s.refuseRights .insertion echo) := by
  rcases exec_of_sender h with ⟨k, args, owner, rfl, right, hexec⟩ | ⟨owner, hexec⟩ | ⟨first, data, rfl⟩
  · rw [hexec]
    exact takeCommand_siteOnly ⟨hr, free⟩ (right.symm.trans site) args owner
  · rw [hexec, ifRunning_of_running hr, takeWrite_siteOnly free]
  · exact nomatch site

variable {r : Role} (held : s.held r = true)
include held

theorem takeCommand_held (k : CommandKind) (args : List Byte) (owner : State → Taken) :
    s.takeCommand r k args owner = s.refuseHeld r := if_pos held

theorem takeWrite_held (object : Nat) (b : Bool) (owner : State → Taken) : s.takeWrite r object b owner = s.refuseHeld r :=
  if_pos held

/-- Under the hold the bytes of a staging write are not looked at. -/
theorem stagingWrite_held (first : Byte) (data : List Byte) : s.stagingWrite r first data = s.refuseHeld r := by
  have uncounted : ¬ (s.held r = false ∧ stagingForm first.toNat < data.length) := by simp [held]
  unfold State.stagingWrite
  rw [if_neg uncounted]
  exact takeWrite_held held _ _ _

/-- While the save hold of a role stands, nothing that comes from the role is carried (R184). -/
theorem exec_refusesHeld {c : Instr} {echo : Nat} (hr : s.Running) (h : senderOf? c = some (r, echo)) :
    exec c s = .next (s.refuseHeld r) := by
  rcases exec_of_sender h with ⟨k, args, owner, -, -, hexec⟩ | ⟨owner, hexec⟩ | ⟨first, data, rfl⟩
  · rw [hexec, ifRunning_of_running hr, takeCommand_held held]
  · rw [hexec, ifRunning_of_running hr, takeWrite_held held]
  · exact (ifRunning_of_running hr (·.stagingWrite r first data)).trans (congrArg _ (stagingWrite_held held first data))

end

theorem refuseRights_port (s : State) (r : Role) (echo : Nat) : (s.refuseRights r echo).mgp.ports.get r =
    { s.mgp.ports.get r with
      counters := { (s.mgp.ports.get r).counters with rightsRefusals := bump (s.mgp.ports.get r).counters.rightsRefusals }
      result := ((s.refuseRights r echo).mgp.ports.get r).result } := by
  simp [State.refuseRights, State.record, State.countPort]

theorem refuseRights_other (s : State) (r : Role) (echo : Nat) :
    (s.refuseRights r echo).mgp.ports.get (otherRole r) = s.mgp.ports.get (otherRole r) := by
  rw [State.refuseRights, State.record, updatePort_port_other, State.countPort, updatePort_port_other]

/-- Settles O51: the refusals of `exec_refusesRights` and `exec_refusesHeld`, read off the role's port. -/
theorem rightsAndTheSaveHold : Obligations.RightsAndTheSaveHold := by
  refine fun c r echo s hr sender => ⟨?_, fun held => ?_⟩
  · rintro rfl site free
    refine ⟨_, exec_refusesRights hr free sender site, refuseRights_recorded _ _ _, ?_, ?_, refuseRights_other _ _ _,
      refuseRights_frame _ _ _⟩
    · rw [refuseRights_port]
    · rw [refuseRights_port]
  · exact ⟨_, exec_refusesHeld held hr sender, updatePort_port s r _, updatePort_port_other s r _, refuseHeld_frame s r⟩

/-! ## SAVE_SETTINGS and SAVE_COMPLETE (R184, R195) -/

theorem exec_saveComplete {s : State} {v : Save} (hr : s.Running) (h : s.sst.save = some v) : exec .saveComplete s =
    .next ((s.setSst { s.sst with image := savedImage v.copy, imageState := .valid, unsaved := false, save := none }).updatePort
      .site RolePort.endSave) := by
  change execSaveComplete s = _
  unfold execSaveComplete
  rw [ifRunning_of_running hr, h]

theorem endSave_result {p : RolePort} (h : p.result.code = .inProgress) : p.endSave.result = { p.result with code := .done } :=
  if_pos h

/-- Settles O49: each line is read off the state that the owner of SAVE_SETTINGS, and SAVE_COMPLETE, leave. -/
theorem saveAndItsCompletion : Obligations.SaveAndItsCompletion := by
  refine fun s => ⟨fun hl => ?begin, fun v hr saving => ?complete⟩
  case begin =>
    have hexec : exec (.saveSettings .site) s =
        .next ((ownSaveSettings (s.commanded .site .saveSettings [])).recorded .site .saveSettings) :=
      ifRunning_takeCommand hl (.inr rfl)
    have frame : OnlyChanges [.mgp, .sst] s _ := exec_frame hexec
    exact ⟨_, hexec, rfl, valid_of_erased rfl, rfl, ⟨rfl, rfl⟩, rfl, rfl, frame.widen⟩
  case complete =>
    have hexec := exec_saveComplete hr saving
    exact ⟨_, hexec, rfl, rfl, endSave_result, rfl, rfl, exec_frame hexec⟩

end Machine
end Sys2Proof
end

section
/-! PROOFS. Read phases (R175, R179, R180, R198) and CLEAR_COUNTERS (R185). -/

set_option Elab.async false

namespace Sys2Proof
namespace Machine

/-! ## What a read phase does to the part (R175, R179, R180) -/

section
variable {s : State} {r : Role} {object : Nat}

theorem openRead_kept_cause (h : object ≠ 0x0002 ∨ r = .insertion) :
    s.openRead r object = s.takeCopy ((s.object? r object).getD []) := by
  refine if_neg fun ⟨cause, site⟩ => ?_
  rcases h with h | rfl
  · exact h cause
  · exact nomatch site

theorem openRead_cause_site : s.openRead .site 0x0002 =
    (s.takeCopy s.sst.causeBytes).setSst { s.sst with cause := .none, storeInvalid := false } := rfl

/-- A copy is taken, the name that led to it is gone, and no port is touched, whatever the object. -/
theorem openRead_mgp : (s.openRead r object).mgp = { s.mgp with
    transaction := { s.mgp.transaction with copy := (s.object? r object).getD [], named := none } } := by
  unfold State.openRead
  dsimp only
  split <;> rfl

theorem endRead_of_ne (h : object ≠ 0x0013) (sent : Nat) : s.endRead r object sent = s := if_neg fun ⟨head, _⟩ => h head

theorem endRead_head_sent {sent : Nat} (h : 20 ≤ sent) :
    s.endRead r 0x0013 sent = s.updatePort r (fun p => { p with notices := p.notices.drop 1 }) := if_pos ⟨rfl, h⟩

theorem endRead_head_unsent {sent : Nat} (h : ¬ 20 ≤ sent) : s.endRead r 0x0013 sent = s := if_neg fun ⟨_, all⟩ => h all

theorem endRead_transaction (sent : Nat) : (s.endRead r object sent).mgp.transaction = s.mgp.transaction := by
  unfold State.endRead
  split <;> rfl

theorem roleOf_of_addresses {m : Mgp} {a : BitVec 7} (h : m.Addresses a r) : m.roleOf? a = some r := by
  rcases h with ⟨rfl, ha⟩ | ⟨rfl, ha, other⟩
  · exact if_pos ha
  · exact (if_neg other).trans (if_pos ha)

/-- A read phase at a role's address takes a copy of the role's object and sends from it. -/
theorem readPhase_addressed {a : BitVec 7} (hr : s.Running) (ha : s.mgp.Addresses a r) (hobject : s.mgp.readObject r = object)
    (sent : Nat) : s.readPhase a sent = ((s.openRead r object).endRead r object sent,
      sentBytes ((s.object? r object).getD []) (s.sst.live.checkMode r) sent) := by
  unfold State.readPhase
  rw [show s.inReset = none from hr]
  dsimp only
  rw [roleOf_of_addresses ha, ← hobject]
  dsimp only
  rw [openRead_mgp]

end

/-! ## The bytes of a read phase (R176, R179) -/

theorem sentOf_getElem? (bytes : List Byte) (sent i : Nat) :
    (bytes.take sent ++ List.replicate (sent - bytes.length) 0xFF#8)[i]? =
      if sent ≤ i then none else some (bytes[i]?.getD 0xFF#8) := by
  rw [List.getElem?_append, List.getElem?_take, List.getElem?_replicate, List.length_take]
  by_cases copied : i < bytes.length
  · rw [List.getElem?_eq_getElem copied]
    split_ifs <;> first | rfl | omega
  · rw [List.getElem?_eq_none (Nat.le_of_not_lt copied)]
    split_ifs <;> first | rfl | omega

theorem sentBytes_getElem? (copy : List Byte) (checkMode : Bool) (sent i : Nat) : (sentBytes copy checkMode sent)[i]? =
    if sent ≤ i then none
    else if i < copy.length then copy[i]?
    else if i = copy.length ∧ checkMode = true ∧ copy ≠ [] then some (crc8 copy)
    else some 0xFF#8 := by
  unfold sentBytes
  rw [sentOf_getElem?]
  refine if_congr Iff.rfl rfl ?_
  by_cases checked : checkMode = true ∧ copy ≠ []
  · obtain ⟨mode, some_byte⟩ := checked
    rw [if_pos (by simp [mode, some_byte])]
    rcases Nat.lt_trichotomy i copy.length with copied | rfl | beyond
    · rw [if_pos copied, List.getElem?_append_left copied, List.getElem?_eq_getElem copied]
      rfl
    · rw [if_neg (Nat.lt_irrefl _), if_pos ⟨rfl, mode, some_byte⟩, List.getElem?_concat_length]
      rfl
    · rw [if_neg (by omega), if_neg (by omega), List.getElem?_eq_none (by rw [List.length_append]; exact beyond)]
      rfl
  · have unchecked : ¬ (i = copy.length ∧ checkMode = true ∧ copy ≠ []) := fun ⟨_, checks⟩ => checked checks
    rw [if_neg (by simpa using checked), if_neg unchecked]
    by_cases copied : i < copy.length
    · rw [if_pos copied, List.getElem?_eq_getElem copied]
      rfl
    · rw [if_neg copied, List.getElem?_eq_none (Nat.le_of_not_lt copied)]
      rfl

/-! ## The two reads that change state -/

theorem exec_noticeHeadRead {s : State} (hr : s.Running) (r : Role) (sent : Nat) : exec (.noticeHeadRead r sent) s =
    .next ((s.openRead r 0x0013).endRead r 0x0013 sent) :=
  ifRunning_of_running hr (fun s => (s.openRead r noticeHeadObject).endRead r noticeHeadObject sent)

theorem exec_resetCauseRead {s : State} (hr : s.Running) (r : Role) :
    exec (.resetCauseRead r) s = .next (s.openRead r 0x0002) := ifRunning_of_running hr (·.openRead r resetCauseObject)

/-- A notice head of which every byte has been sent leaves the queue, and no other part of the port moves. -/
theorem endRead_head_ports (s : State) (r : Role) (sent : Nat) :
    (s.endRead r 0x0013 sent).mgp.ports.get r = { s.mgp.ports.get r with
        notices := if 20 ≤ sent then (s.mgp.ports.get r).notices.tail else (s.mgp.ports.get r).notices }
      ∧ (s.endRead r 0x0013 sent).mgp.ports.get (otherRole r) = s.mgp.ports.get (otherRole r) := by
  by_cases h : 20 ≤ sent
  · rw [endRead_head_sent h, if_pos h, ← List.drop_one]
    exact ⟨updatePort_port s r _, updatePort_port_other s r _⟩
  · rw [endRead_head_unsent h, if_neg h]
    exact ⟨rfl, rfl⟩

theorem noticeHeadRead_spec {s : State} (hr : s.Running) (r : Role) (sent : Nat) :
    ∃ t, exec (.noticeHeadRead r sent) s = .next t
      ∧ (t.mgp.ports.get r).notices =
          (if 20 ≤ sent then (s.mgp.ports.get r).notices.tail else (s.mgp.ports.get r).notices)
      ∧ t.mgp.transaction.copy = (s.mgp.ports.get r).headBytes
      ∧ (t.mgp.ports.get r).result = (s.mgp.ports.get r).result
      ∧ (t.mgp.ports.get r).counters = (s.mgp.ports.get r).counters
      ∧ t.mgp.ports.get (otherRole r) = s.mgp.ports.get (otherRole r)
      ∧ OnlyChanges [.mgp] s t := by
  have opened : s.openRead r 0x0013 = s.takeCopy (s.mgp.ports.get r).headBytes := openRead_kept_cause (.inl (by decide))
  obtain ⟨port, other⟩ := endRead_head_ports (s.openRead r 0x0013) r sent
  refine ⟨_, exec_noticeHeadRead hr r sent, ?_⟩
  rw [port, other, endRead_transaction, opened]
  exact ⟨rfl, rfl, rfl, rfl, rfl, (takeCopy_frame s _).seq (endRead_frame _ r _ sent)⟩

theorem resetCauseRead_spec {s : State} (hr : s.Running) (r : Role) :
    ∃ t, exec (.resetCauseRead r) s = .next t
      ∧ t.mgp.transaction.copy = toBytes 1 s.sst.cause.code ++ [if s.sst.storeInvalid then 1#8 else 0#8]
      ∧ (r = .site → t.sst = { s.sst with cause := .none, storeInvalid := false })
      ∧ (r = .insertion → t.sst = s.sst)
      ∧ t.mgp.ports = s.mgp.ports
      ∧ OnlyChanges [.sst, .mgp] s t := by
  refine ⟨_, exec_resetCauseRead hr r, ?_, ?_, ?_, ?_, (openRead_frame s r _).widen⟩
  · rw [openRead_mgp]
    rfl
  · rintro rfl
    rw [openRead_cause_site]
    rfl
  · rintro rfl
    rw [openRead_kept_cause (.inr rfl)]
    rfl
  · rw [openRead_mgp]

/-! ## CLEAR_COUNTERS (R185) -/

theorem clearCounters_spec {s : State} (hl : s.Listens .site) :
    ∃ t, exec (.clearCounters .site) s = .next t
      ∧ (∀ n ∈ t.counters, n = 0)
      ∧ Answered s t .site .clearCounters [] .done []
      ∧ t.tbu = { s.tbu with counters := {} } ∧ t.fiu = { s.fiu with counters := {} }
      ∧ t.esc = { s.esc with counters := {} } ∧ t.ddc = { s.ddc with counters := {} }
      ∧ t.bpu = { s.bpu with counters := {} } ∧ t.csc = { s.csc with counters := {} }
      ∧ t.spe = { s.spe with counters := {} }
      ∧ (∀ r, (t.mgp.ports.get r).notices = (s.mgp.ports.get r).notices
          ∧ (t.mgp.ports.get r).hold = (s.mgp.ports.get r).hold)
      ∧ t.mgp.ports.get .insertion = { s.mgp.ports.get .insertion with counters := {} }
      ∧ OnlyChanges [.tbu, .fiu, .esc, .ddc, .bpu, .csc, .spe, .mgp] s t := by
  have hexec : exec (.clearCounters .site) s =
      .next ((ownClearCounters (s.commanded .site .clearCounters [])).recorded .site .clearCounters) :=
    ifRunning_takeCommand hl (.inr rfl)
  have frame : OnlyChanges [.mgp, .tbu, .fiu, .esc, .ddc, .bpu, .csc, .spe] s _ := exec_frame hexec
  have zero : ((ownClearCounters (s.commanded .site .clearCounters [])).recorded .site .clearCounters).counters =
      State.reset.counters := rfl
  refine ⟨_, hexec, ?_, ⟨rfl, rfl⟩, rfl, rfl, rfl, rfl, rfl, rfl, rfl, fun r => ?_, rfl, frame.widen⟩
  · rw [zero]
    decide
  · cases r <;> exact ⟨rfl, rfl⟩

/-- Settles O53: the two reads and CLEAR_COUNTERS (`noticeHeadRead_spec`, `resetCauseRead_spec`, `clearCounters_spec`), and the
read phase of any object as the opening and the end of its object's read (`readPhase_addressed`). -/
theorem readsAndClearCounters : Obligations.ReadsAndClearCounters := by
  refine fun s => ⟨noticeHeadRead_spec, resetCauseRead_spec, clearCounters_spec, ?_⟩
  rintro hr a r object sent copy ha hobject rfl
  have reads : s.mgp.readObject r = object := hobject.symm
  rw [readPhase_addressed hr ha reads]
  refine ⟨?_, fun i => sentBytes_getElem? _ _ sent i, fun cause head => ?_, ?_, ?_⟩
  · rw [endRead_transaction, openRead_mgp]
  · rw [endRead_of_ne head, openRead_kept_cause (.inl cause)]
    rfl
  · rintro rfl
    exact exec_noticeHeadRead hr r sent
  · rintro rfl
    rw [endRead_of_ne (by decide)]
    exact exec_resetCauseRead hr r

end Machine
end Sys2Proof
end

section
/-! PROOFS. The form of a write phase, and the bytes that spell a command or a write (R174 to R178, R182, R204). -/

set_option Elab.async false

namespace Sys2Proof
namespace Machine

/-! ## The form of a write phase (R175, R178) -/

section
variable {a : BitVec 7} {body : List Byte}

theorem phaseForm_short {checkMode : Bool} {bytes : List Byte} (h : bytes ≠ [])
    (short : (if checkMode then bytes.dropLast else bytes).length < 2) : phaseForm checkMode a bytes = .malformed := by
  simp only [phaseForm]
  rw [if_neg h, if_pos short]

variable (long : 2 ≤ body.length)
include long

theorem phaseForm_checked (b : Byte) : phaseForm true a (body ++ [b]) =
    if b ≠ crc8 (BitVec.ofNat 8 (a.toNat * 2) :: body) then .checkFailed (ofBytes (body.take 2)) (decide (2 < body.length))
    else .good (ofBytes (body.take 2)) (body.drop 2) := by
  simp only [phaseForm, if_true, List.dropLast_concat, List.getLast?_concat, List.take_append_of_le_length long]
  rw [if_neg (by simp), if_neg (Nat.not_lt.2 long)]
  exact if_congr (by simp) rfl rfl

/-- A phase that carries an object number, data and, in check mode, the right check byte. -/
theorem phaseForm_phaseBytes (checkMode : Bool) : phaseForm checkMode a (phaseBytes checkMode a body) =
    .good (ofBytes (body.take 2)) (body.drop 2) := by
  cases checkMode with
  | true => exact (phaseForm_checked long _).trans (if_neg (not_not_intro rfl))
  | false =>
    have some_byte : body ≠ [] := fun none => by
      rw [none] at long
      exact nomatch long
    simp only [phaseForm, phaseBytes, Bool.false_eq_true, if_false, false_and]
    rw [if_neg some_byte, if_neg (Nat.not_lt.2 long)]

theorem phaseForm_checkFailed {b : Byte} (wrong : b ≠ crc8 (BitVec.ofNat 8 (a.toNat * 2) :: body)) :
    phaseForm true a (body ++ [b]) = .checkFailed (ofBytes (body.take 2)) (decide (2 < body.length)) :=
  (phaseForm_checked long b).trans (if_pos wrong)

end

/-! ## Numbers among the data (R204) -/

/-- The number that the bytes between two others spell. -/
theorem dataNum_between {before mid after : List Byte} {a n : Nat} (ha : before.length = a) (hn : mid.length = n) :
    dataNum (before ++ (mid ++ after)) a n = ofBytes mid := by
  subst ha hn
  rw [dataNum, List.drop_left, List.take_left]

theorem dataNum_head (b : Byte) (data : List Byte) : dataNum (b :: data) 0 1 = b.toNat := by
  simp [dataNum, ofBytes]

theorem argWord_between (w : Word32) {before after : List Byte} {a : Nat} (ha : before.length = a) :
    argWord (before ++ (toBytes 4 w.toNat ++ after)) a = w := by
  rw [argWord, dataNum_between ha (toBytes_length 4 _), ofBytes_toBytes_four w.isLt, BitVec.ofNat_toNat, BitVec.setWidth_eq]

/-- A word whose four bytes end the arguments. -/
theorem argWord_last (w : Word32) {before : List Byte} {a : Nat} (ha : before.length = a) :
    argWord (before ++ toBytes 4 w.toNat) a = w := by
  have between := argWord_between w (after := []) ha
  rwa [List.append_nil] at between

theorem argBreak_toBytes (n : Word16) : argBreak (toBytes 2 n.toNat) = n := by
  have number : dataNum (toBytes 2 n.toNat) 0 2 = n.toNat :=
    (dataNum_between (before := []) (after := []) rfl (toBytes_length 2 _)).trans (ofBytes_toBytes_two n.isLt)
  rw [argBreak, number, BitVec.ofNat_toNat, BitVec.setWidth_eq]

/-! ## The owners read what the bytes spell -/

theorem commandOwner_openLoad (r : Role) (id : Word32) (v : Byte) (n fp : Word32) :
    commandOwner r .openLoad (toBytes 4 id.toNat ++ [v] ++ toBytes 4 n.toNat ++ toBytes 4 fp.toNat) = ownOpenLoad id v n fp := by
  have hid : argWord (toBytes 4 id.toNat ++ [v] ++ toBytes 4 n.toNat ++ toBytes 4 fp.toNat) 0 = id := by
    rw [List.append_assoc, List.append_assoc]
    exact argWord_between id (before := []) rfl
  have hn : argWord (toBytes 4 id.toNat ++ [v] ++ toBytes 4 n.toNat ++ toBytes 4 fp.toNat) 5 = n := by
    rw [List.append_assoc (toBytes 4 id.toNat ++ [v])]
    exact argWord_between n (by simp)
  have hfp : argWord (toBytes 4 id.toNat ++ [v] ++ toBytes 4 n.toNat ++ toBytes 4 fp.toNat) 9 = fp := argWord_last fp (by simp)
  have hv : (toBytes 4 id.toNat ++ [v] ++ toBytes 4 n.toNat ++ toBytes 4 fp.toNat).getD 4 0#8 = v := rfl
  rw [commandOwner, hid, hn, hfp, hv]

section
variable (value : Word32) {code : Byte}

theorem settingsRecord_length : (code :: toBytes 4 value.toNat).length = 5 := by rw [List.length_cons, toBytes_length]

theorem settingsRecord_value : argWord (code :: toBytes 4 value.toNat) 1 = value := argWord_last value (before := [code]) rfl

theorem ownSettingsWrite_once (w : WriteOnceSetting) :
    ownSettingsWrite (writeOnceCode w :: toBytes 4 value.toNat) = ownWriteOnce w value := by
  funext s
  unfold ownSettingsWrite
  rw [settingsRecord_length, settingsRecord_value, dataNum_head]
  cases w <;> rfl

theorem ownSettingsWrite_operating (o : OperatingSetting) :
    ownSettingsWrite (operatingCode o :: toBytes 4 value.toNat) = ownOperating o value := by
  funext s
  unfold ownSettingsWrite
  rw [settingsRecord_length, settingsRecord_value, dataNum_head]
  cases o <;> rfl

end

/-- An edit record of an operation code that names an operation. -/
theorem ownEditRecord_of_code {code : Byte} {op : EditOp} (h : EditOp.ofCode? code.toNat = some op) (stream : Word16)
    (cls service clock : Byte) :
    ownEditRecord (code :: (toBytes 2 stream.toNat ++ [cls, service, clock])) = ownMapEdit op stream cls service clock := by
  funext s
  have number : dataNum (code :: (toBytes 2 stream.toNat ++ [cls, service, clock])) 1 2 = stream.toNat :=
    (dataNum_between (before := [code]) rfl (toBytes_length 2 _)).trans (ofBytes_toBytes_two stream.isLt)
  unfold ownEditRecord
  rw [number, dataNum_head, h, BitVec.ofNat_toNat, BitVec.setWidth_eq]
  rfl

/-! ## What the bytes of a command or a write are taken as (R176, R182) -/

/-- A command whose owner reads its operands back from the bytes of its arguments. -/
theorem exec_of_owner {c : Instr} {r : Role} {k : CommandKind} {args : List Byte} {owner : State → Taken}
    (hexec : ∀ s, exec c s = ifRunning s (·.takeCommand r k args owner)) (reads : commandOwner r k args = owner) (s : State) :
    exec c s = ifRunning s (·.takeCommand r k args (commandOwner r k args)) := by rw [reads, hexec]

/-- A write of an object of the site role whose owner reads its operands back from the bytes of the record. -/
theorem exec_of_record {c : Instr} {r : Role} {object : Nat} {own : List Byte → State → Taken} {data : List Byte}
    {owner : State → Taken} (hexec : ∀ s, exec c s = ifRunning s (·.takeWrite r object true owner)) (reads : own data = owner)
    (s : State) : exec c s = ifRunning s (·.takeWrite r object true (own data)) := by rw [reads, hexec]

/-- A command or write with the bytes that spell it: the command object with a code and its arguments, the settings object, the
stream map edit object, or the staging object. -/
theorem exec_of_written {c : Instr} {r : Role} {body : List Byte} (h : writtenBytes? c = some (r, body)) :
    (∃ k args, body = 0x00#8 :: 0x11#8 :: BitVec.ofNat 8 (CommandKind.code k) :: args ∧ args.length = k.argBytes
        ∧ ∀ s, exec c s = ifRunning s (·.takeCommand r k args (commandOwner r k args)))
      ∨ (∃ data, body = 0x00#8 :: 0x03#8 :: data ∧ data.length = 5
        ∧ ∀ s, exec c s = ifRunning s (·.takeWrite r settingsObject true (ownSettingsWrite data)))
      ∨ (∃ data, body = 0x00#8 :: 0x20#8 :: data ∧ data.length = 6
        ∧ ∀ s, exec c s = ifRunning s (·.takeWrite r mapEditObject true (ownEditRecord data)))
      ∨ ∃ first data, c = .stagingWrite r first data ∧ body = 0x00#8 :: 0x10#8 :: first :: data := by
  cases c
  all_goals first | obtain ⟨rfl, rfl⟩ := Prod.mk.inj (Option.some.inj h) | exact nomatch h
  case confirm | discard | forceMute | releaseMute | saveSettings | streamRestart | clearCounters | releaseSlate =>
    exact .inl ⟨_, _, rfl, rfl, fun _ => rfl⟩
  case reserve r n =>
    exact .inl ⟨.reserve, _, rfl, toBytes_length 2 _, exec_of_owner (fun _ => rfl) (congrArg (ownReserve r) (argBreak_toBytes n))⟩
  case findBreak r n =>
    exact .inl ⟨.findBreak, _, rfl, toBytes_length 2 _, exec_of_owner (fun _ => rfl) (congrArg ownFindBreak (argBreak_toBytes n))⟩
  case clearBooking r n =>
    exact .inl ⟨.clearBooking, _, rfl, toBytes_length 2 _,
      exec_of_owner (fun _ => rfl) (congrArg ownClearBooking (argBreak_toBytes n))⟩
  case openLoad r id v n fp => exact .inl ⟨.openLoad, _, rfl, rfl, exec_of_owner (fun _ => rfl) (commandOwner_openLoad r id v n fp)⟩
  case abortLoad r id =>
    exact .inl ⟨.abortLoad, _, rfl, rfl,
      exec_of_owner (fun _ => rfl) (congrArg ownAbortLoad (argWord_last id (before := []) (a := 0) rfl))⟩
  case retireClip r id =>
    exact .inl ⟨.retireClip, _, rfl, rfl,
      exec_of_owner (fun _ => rfl) (congrArg ownRetireClip (argWord_last id (before := []) (a := 0) rfl))⟩
  case forceSlate r v id =>
    exact .inl ⟨.forceSlate, v :: toBytes 4 id.toNat, rfl, rfl,
      exec_of_owner (fun _ => rfl) (congrArg (ownForceSlate v) (argWord_last id (before := [v]) (a := 1) rfl))⟩
  case writeOnceSettingWrite r w value =>
    exact .inr (.inl ⟨_, rfl, rfl, exec_of_record (fun _ => rfl) (ownSettingsWrite_once value w)⟩)
  case operatingSettingWrite r o value =>
    exact .inr (.inl ⟨_, rfl, rfl, exec_of_record (fun _ => rfl) (ownSettingsWrite_operating value o)⟩)
  case streamMapAdd r stream cls service clock =>
    exact .inr (.inr (.inl ⟨0x01#8 :: _, rfl, rfl, exec_of_record (fun _ => rfl) (ownEditRecord_of_code rfl stream cls service clock)⟩))
  case streamMapChange r stream cls service clock =>
    exact .inr (.inr (.inl ⟨0x02#8 :: _, rfl, rfl, exec_of_record (fun _ => rfl) (ownEditRecord_of_code rfl stream cls service clock)⟩))
  case streamMapRemove r stream cls service clock =>
    exact .inr (.inr (.inl ⟨0x03#8 :: _, rfl, rfl, exec_of_record (fun _ => rfl) (ownEditRecord_of_code rfl stream cls service clock)⟩))
  case stagingWrite r first data => exact .inr (.inr (.inr ⟨first, data, rfl, rfl⟩))

end Machine
end Sys2Proof
end

section
/-! PROOFS. Write phases judged (R174 to R178, R182, R189). -/

set_option Elab.async false

namespace Sys2Proof
namespace Machine

/-! ## A counter of a role's port (R189) -/

section
variable (s : State) (r : Role) (f : MgpCounters → MgpCounters)

theorem countPort_port : (s.countPort r f).mgp.ports.get r =
    { s.mgp.ports.get r with counters := f (s.mgp.ports.get r).counters } := updatePort_port s r _

theorem countPort_other : (s.countPort r f).mgp.ports.get (otherRole r) = s.mgp.ports.get (otherRole r) :=
  updatePort_port_other s r _

theorem countPort_held (q : Role) : (s.countPort r f).held q = s.held q :=
  updatePort_held s r (fun p => { p with counters := f p.counters }) (fun _ => rfl) q

end

/-! ## The objects a role may write (R176, R177) -/

section
variable (s : State) (r : Role) (data : List Byte)

theorem writeObject_command : s.writeObject r 0x0011 data = s.writeCommand r data := if_pos rfl

theorem writeObject_staging (first : Byte) : s.writeObject r 0x0010 (first :: data) = s.stagingWrite r first data :=
  (if_neg (by decide)).trans (if_pos rfl)

theorem writeObject_settings :
    s.writeObject r 0x0003 data = s.writeSiteObject r settingsObject 5 data ownSettingsWrite :=
  (if_neg (by decide)).trans ((if_neg (by decide)).trans (if_pos rfl))

theorem writeObject_edit : s.writeObject r 0x0020 data = s.writeSiteObject r mapEditObject 6 data ownEditRecord :=
  (if_neg (by decide)).trans ((if_neg (by decide)).trans ((if_neg (by decide)).trans (if_pos rfl)))

end

/-! ## Bytes in excess (R177, R189) -/

/-- The part with the bytes beyond a write's form, where there are any, counted once. -/
def State.excessCounted (s : State) (r : Role) (extra : List Byte) : State :=
  if extra = [] then s else s.countPort r (fun c => { c with overlongWrites := bump c.overlongWrites })

section
variable {s : State} {r : Role} {extra : List Byte}

theorem excessCounted_held : (s.excessCounted r extra).held r = s.held r := by
  unfold State.excessCounted
  split
  · rfl
  · exact countPort_held s r _ r

theorem excessCounted_running (hr : s.Running) : (s.excessCounted r extra).Running := by
  unfold State.excessCounted
  split <;> exact hr

theorem countOverlong_eq {form : Nat} {data : List Byte} (h : data.length = form) :
    s.countOverlong r form (data ++ extra) = s.excessCounted r extra := by
  cases extra with
  | nil => exact if_neg (by simp [h])
  | cons b extra => exact if_pos (by simp [h])

/-! ## A command with its arguments (R182) -/

theorem ofCode_code (k : CommandKind) : CommandKind.ofCode? k.code = some k := by cases k <;> rfl

theorem code_toNat (k : CommandKind) : (BitVec.ofNat 8 k.code).toNat = k.code := by cases k <;> rfl

theorem writeCommand_known (k : CommandKind) (args : List Byte) : s.writeCommand r (BitVec.ofNat 8 k.code :: args) =
    if k.siteOnly ∧ r = .insertion then (s.countOverlong r k.argBytes args).refuseRights r k.code
    else if args.length < k.argBytes then (s.countOverlong r k.argBytes args).record r k.code .invalid []
    else (s.countOverlong r k.argBytes args).takeCommand r k (args.take k.argBytes) (commandOwner r k (args.take k.argBytes)) := by
  simp only [State.writeCommand, dataNum_head, code_toNat, ofCode_code, List.drop_succ_cons, List.drop_zero]

variable (free : s.held r = false)
include free

/-- A command whose arguments are all there is taken with them, whatever follows them. -/
theorem writeCommand_whole {k : CommandKind} {args : List Byte} (whole : args.length = k.argBytes) :
    s.writeCommand r (BitVec.ofNat 8 k.code :: (args ++ extra)) =
      (s.excessCounted r extra).takeCommand r k args (commandOwner r k args) := by
  have taken : (args ++ extra).take k.argBytes = args := by rw [← whole, List.take_left]
  have enough : ¬ (args ++ extra).length < k.argBytes := by
    rw [List.length_append]
    omega
  rw [writeCommand_known, countOverlong_eq whole, if_neg enough, taken]
  by_cases right : k.siteOnly ∧ r = .insertion
  · unfold State.takeCommand
    rw [if_pos right, if_neg (by simp [excessCounted_held, free]), if_pos right]
  · rw [if_neg right]

/-! ## Settings and edits (R177) -/

theorem writeSiteObject_whole {form : Nat} {data : List Byte} (whole : data.length = form) (object : Nat)
    (own : List Byte → State → Taken) : s.writeSiteObject r object form (data ++ extra) own =
      (s.excessCounted r extra).takeWrite r object true (own data) := by
  have taken : (data ++ extra).take form = data := by rw [← whole, List.take_left]
  simp only [State.writeSiteObject]
  rw [countOverlong_eq whole, taken]
  cases r with
  | site => rfl
  | insertion => exact (takeWrite_siteOnly (excessCounted_held.trans free) object _).symm

/-! ## Staging (R95, R177) -/

omit free in
/-- Bytes behind the last field of a staging write are not read. -/
theorem takeFields_append : ∀ (codes : List Nat) (st : Staging) (bytes : List Byte),
    (codes.map stagingWidth).sum ≤ bytes.length → st.takeFields codes (bytes ++ extra) = st.takeFields codes bytes
  | [], _, _, _ => rfl
  | c :: codes, st, bytes, fits => by
    rw [List.map_cons, List.sum_cons] at fits
    have here : stagingWidth c ≤ bytes.length := by omega
    rw [Staging.takeFields, Staging.takeFields, if_pos here, if_pos (by rw [List.length_append]; omega),
      List.take_append_of_le_length here, List.drop_append_of_le_length here]
    exact takeFields_append codes _ _ (by rw [List.length_drop]; omega)

omit free in
theorem stagingForm_eq_sum {f : Nat} (h : f ≤ 9) : (((List.range 10).drop f).map stagingWidth).sum = stagingForm f := by
  interval_cases f <;> rfl

omit free in
theorem ownStaging_append {first : Byte} {data : List Byte} (whole : data.length = stagingForm first.toNat) (u : State) :
    ownStaging r first (data ++ extra) u = ownStaging r first data u := by
  by_cases bad : 9 < first.toNat
  · rw [ownStaging_invalid u r _ bad, ownStaging_invalid u r _ bad]
  · have fits : (((List.range 10).drop first.toNat).map stagingWidth).sum ≤ data.length :=
      ((stagingForm_eq_sum (Nat.le_of_not_lt bad)).trans whole.symm).le
    rw [ownStaging_done u r _ (Nat.le_of_not_lt bad), ownStaging_done u r _ (Nat.le_of_not_lt bad)]
    simp only [takeFields_append _ _ _ fits]

theorem stagingWrite_whole {first : Byte} {data : List Byte} (whole : extra ≠ [] → data.length = stagingForm first.toNat) :
    s.stagingWrite r first (data ++ extra) = (s.excessCounted r extra).stagingWrite r first data := by
  by_cases none : extra = []
  · subst none
    rw [List.append_nil]
    rfl
  · have form := whole none
    have excess : stagingForm first.toNat < (data ++ extra).length := by
      have some_byte := List.length_pos_iff.2 none
      rw [List.length_append]
      omega
    have counted : s.stagingCounted r first (data ++ extra) = s.excessCounted r extra :=
      (if_pos ⟨free, excess⟩).trans (if_neg none).symm
    have uncounted : (s.excessCounted r extra).stagingCounted r first data = s.excessCounted r extra :=
      if_neg fun ⟨_, more⟩ => by omega
    have owner : ownStaging r first (data ++ extra) = ownStaging r first data := funext (ownStaging_append form)
    change (s.stagingCounted r first (data ++ extra)).takeWrite r 0x0010 false (ownStaging r first (data ++ extra)) =
      ((s.excessCounted r extra).stagingCounted r first data).takeWrite r 0x0010 false (ownStaging r first data)
    rw [counted, uncounted, owner]

/-! ## Every command and write (R176, R177) -/

/-- The bytes that spell a command or write, with bytes in excess behind them, are that command or write on the part with the
excess counted. -/
theorem writeObject_of_written {c : Instr} {body : List Byte} (hr : s.Running) (h : writtenBytes? c = some (r, body))
    (whole : extra ≠ [] → ∀ x first data, c = .stagingWrite x first data → data.length = stagingForm first.toNat) :
    2 < body.length
      ∧ exec c (s.excessCounted r extra) = .next (s.writeObject r (ofBytes (body.take 2)) (body.drop 2 ++ extra)) := by
  have running := excessCounted_running (r := r) (extra := extra) hr
  rcases exec_of_written h with ⟨k, args, rfl, form, hexec⟩ | ⟨data, rfl, form, hexec⟩ | ⟨data, rfl, form, hexec⟩ |
    ⟨first, data, rfl, rfl⟩
  · refine ⟨by simp, ?_⟩
    change _ = Host.Outcome.next (s.writeObject r 0x0011 (BitVec.ofNat 8 k.code :: (args ++ extra)))
    rw [hexec, ifRunning_of_running running, writeObject_command, writeCommand_whole free form]
  · refine ⟨by simp [form], ?_⟩
    change _ = Host.Outcome.next (s.writeObject r 0x0003 (data ++ extra))
    rw [hexec, ifRunning_of_running running, writeObject_settings, writeSiteObject_whole free form]
  · refine ⟨by simp [form], ?_⟩
    change _ = Host.Outcome.next (s.writeObject r 0x0020 (data ++ extra))
    rw [hexec, ifRunning_of_running running, writeObject_edit, writeSiteObject_whole free form]
  · have taken := stagingWrite_whole (extra := extra) free fun some_byte => whole some_byte r first data rfl
    refine ⟨by simp, (ifRunning_of_running running (·.stagingWrite r first data)).trans (congrArg _ ?_)⟩
    exact taken.symm.trans (writeObject_staging s r (data ++ extra) first).symm

end

/-! ## A phase at an address (R174, R175) -/

section
variable {s : State} {r : Role} {a : BitVec 7}

/-- A write phase at a role's address is judged by its form, and the object it names is left for a read phase. -/
theorem exec_writePhase (hr : s.Running) (ha : s.mgp.Addresses a r) {bytes : List Byte} {f : PhaseForm}
    (hf : phaseForm (s.sst.live.checkMode r) a bytes = f) (stop : Bool) :
    exec (.writePhase a bytes stop) s = .next ((s.judgePhase r f).nameObject (f.named? r) stop) := by
  refine (ifRunning_of_running hr (·.writePhase a bytes stop)).trans (congrArg _ ?_)
  unfold State.writePhase
  rw [roleOf_of_addresses ha, ← hf]

theorem exec_writePhase_unaddressed (hr : s.Running) (insertion : a ≠ s.mgp.insertionAddress) (site : a ≠ s.mgp.siteAddress)
    (bytes : List Byte) (stop : Bool) : exec (.writePhase a bytes stop) s = .next (s.nameObject none stop) := by
  have unowned : s.mgp.roleOf? a = none := (if_neg insertion).trans (if_neg site)
  refine (ifRunning_of_running hr (·.writePhase a bytes stop)).trans (congrArg _ ?_)
  unfold State.writePhase
  rw [unowned]

/-- A phase with an object number and, in check mode, the right check byte. -/
theorem exec_writePhase_good (hr : s.Running) (ha : s.mgp.Addresses a r) {body : List Byte} (long : 2 ≤ body.length) (stop : Bool) :
    exec (.writePhase a (phaseBytes (s.sst.live.checkMode r) a body) stop) s =
      .next ((s.judgePhase r (.good (ofBytes (body.take 2)) (body.drop 2))).nameObject
        (some (r, BitVec.ofNat 16 (ofBytes (body.take 2)))) stop) :=
  exec_writePhase hr ha (phaseForm_phaseBytes long _) stop

theorem judgePhase_written (free : s.held r = false) (object : Nat) {data : List Byte} (some_byte : data ≠ []) :
    s.judgePhase r (.good object data) = s.writeObject r object data := by
  simp only [State.judgePhase]
  rw [if_neg some_byte, if_neg (by simp [free])]

theorem nameObject_none (stop : Bool) : (s.nameObject none stop).mgp.transaction =
    { s.mgp.transaction with phase := none, received := [], named := none } := by
  cases stop <;> rfl

theorem ofBytes_two (hi lo : Byte) : ofBytes [hi, lo] = hi.toNat * 256 + lo.toNat := by simp [ofBytes]

/-! ## Phases that carry a command or a write -/

/-- A phase of the bytes of a command or write is that command or write, and leaves its object named. -/
theorem exec_writePhase_written {c : Instr} {body extra : List Byte} (hr : s.Running) (ha : s.mgp.Addresses a r)
    (h : writtenBytes? c = some (r, body)) (free : s.held r = false)
    (whole : extra ≠ [] → ∀ x first data, c = .stagingWrite x first data → data.length = stagingForm first.toNat) (stop : Bool) :
    ∃ u, exec c (s.excessCounted r extra) = .next u
      ∧ exec (.writePhase a (phaseBytes (s.sst.live.checkMode r) a (body ++ extra)) stop) s =
          .next (u.nameObject (some (r, BitVec.ofNat 16 (ofBytes (body.take 2)))) stop) := by
  obtain ⟨long, hexec⟩ := writeObject_of_written free hr h whole
  have object : (body ++ extra).take 2 = body.take 2 := List.take_append_of_le_length (by omega)
  have data : (body ++ extra).drop 2 = body.drop 2 ++ extra := List.drop_append_of_le_length (by omega)
  have some_byte : body.drop 2 ++ extra ≠ [] := fun none => by
    have none_left := List.append_eq_nil_iff.1 none
    have := List.drop_eq_nil_iff.1 none_left.1
    omega
  refine ⟨_, hexec, ?_⟩
  rw [exec_writePhase_good hr ha (by rw [List.length_append]; omega), object, data, judgePhase_written free _ some_byte]

/-! ## Phases that are refused (R177, R178, R182) -/

theorem writeCommand_unknown {code : Byte} (h : CommandKind.ofCode? code.toNat = none) (args : List Byte) :
    s.writeCommand r (code :: args) = s.record r code.toNat .invalid [] := by
  simp only [State.writeCommand, dataNum_head, h]

theorem writeCommand_short {k : CommandKind} {args : List Byte} (short : args.length < k.argBytes)
    (right : r = .site ∨ k.siteOnly = false) :
    s.writeCommand r (BitVec.ofNat 8 k.code :: args) = s.record r k.code .invalid [] := by
  have uncounted : s.countOverlong r k.argBytes args = s := if_neg (by omega)
  have rightful : ¬ (k.siteOnly = true ∧ r = .insertion) := by
    rintro ⟨siteOnly, rfl⟩
    rcases right with right | right
    · exact nomatch right
    · exact nomatch siteOnly.symm.trans right
  rw [writeCommand_known, uncounted, if_neg rightful, if_pos short]

theorem ofCode_none {n : Nat} (h : n = 0 ∨ 15 < n) : CommandKind.ofCode? n = none := by
  unfold CommandKind.ofCode?
  split <;> simp at h ⊢

/-- An outcome recorded moves nothing else of the port. -/
theorem record_port (s : State) (r : Role) (e : Nat) (code : ResultCode) (v : List Byte) :
    ((s.record r e code v).mgp.ports.get r).counters = (s.mgp.ports.get r).counters
      ∧ ((s.record r e code v).mgp.ports.get r).command = (s.mgp.ports.get r).command := by
  rw [State.record, updatePort_port]
  exact ⟨rfl, rfl⟩

theorem record_other (s : State) (r : Role) (e : Nat) (code : ResultCode) (v : List Byte) :
    (s.record r e code v).mgp.ports.get (otherRole r) = s.mgp.ports.get (otherRole r) := by
  rw [State.record, updatePort_port_other]

/-- A phase with a command that is refused INVALID before its owner sees it (R182). -/
theorem exec_writePhase_invalidCommand {data : List Byte} (hr : s.Running) (ha : s.mgp.Addresses a r) (free : s.held r = false)
    (some_byte : data ≠ []) {echo : Nat} (refused : s.writeCommand r data = s.record r echo .invalid []) (stop : Bool) :
    ∃ t, exec (.writePhase a (phaseBytes (s.sst.live.checkMode r) a (0x00#8 :: 0x11#8 :: data)) stop) s = .next t
      ∧ Recorded s t r echo .invalid [] ∧ (t.mgp.ports.get r).counters = (s.mgp.ports.get r).counters
      ∧ (t.mgp.ports.get r).command = (s.mgp.ports.get r).command ∧ OnlyChanges [.mgp] s t := by
  have judged : s.judgePhase r (.good 0x0011 data) = s.record r echo .invalid [] :=
    (judgePhase_written free _ some_byte).trans refused
  have hexec := exec_writePhase_good hr ha (body := 0x00#8 :: 0x11#8 :: data) (by simp) stop
  obtain ⟨counters, command⟩ := record_port s r echo .invalid []
  refine ⟨_, hexec, ?_⟩
  rw [show ofBytes ((0x00#8 :: 0x11#8 :: data).take 2) = 0x0011 from rfl,
    show (0x00#8 :: 0x11#8 :: data).drop 2 = data from rfl, judged]
  exact ⟨record_recorded s r _ _ _, counters, command, (record_frame s r _ _ _).seq (nameObject_frame _ _ _)⟩

theorem exec_writePhase_malformed {bytes : List Byte} (hr : s.Running) (ha : s.mgp.Addresses a r)
    (hf : phaseForm (s.sst.live.checkMode r) a bytes = .malformed) (stop : Bool) :
    ∃ t, exec (.writePhase a bytes stop) s = .next t
      ∧ t.mgp.ports.get r = { s.mgp.ports.get r with counters := { (s.mgp.ports.get r).counters with
          malformedWrites := bump (s.mgp.ports.get r).counters.malformedWrites } }
      ∧ t.mgp.transaction = { s.mgp.transaction with phase := none, received := [], named := none }
      ∧ t.mgp.ports.get (otherRole r) = s.mgp.ports.get (otherRole r) ∧ OnlyChanges [.mgp] s t :=
  ⟨_, exec_writePhase hr ha hf stop, countPort_port s r fun c => { c with malformedWrites := bump c.malformedWrites },
    nameObject_none stop, countPort_other s r fun c => { c with malformedWrites := bump c.malformedWrites },
    (countPort_frame s r _).seq (nameObject_frame _ _ _)⟩

theorem exec_writePhase_checkFailed {body : List Byte} {b : Byte} (hr : s.Running) (ha : s.mgp.Addresses a r)
    (mode : s.sst.live.checkMode r = true) (long : 2 ≤ body.length) (wrong : b ≠ crc8 (BitVec.ofNat 8 (a.toNat * 2) :: body))
    (stop : Bool) : ∃ t, exec (.writePhase a (body ++ [b]) stop) s = .next t
      ∧ (t.mgp.ports.get r).counters = { (s.mgp.ports.get r).counters with
          checkFailures := bump (s.mgp.ports.get r).counters.checkFailures }
      ∧ (2 < body.length → s.held r = false → Recorded s t r (ofBytes (body.take 2)) .check [])
      ∧ (body.length = 2 ∨ s.held r = true → (t.mgp.ports.get r).result = (s.mgp.ports.get r).result)
      ∧ (t.mgp.ports.get r).command = (s.mgp.ports.get r).command
      ∧ t.mgp.transaction = { s.mgp.transaction with phase := none, received := [], named := none }
      ∧ t.mgp.ports.get (otherRole r) = s.mgp.ports.get (otherRole r) ∧ OnlyChanges [.mgp] s t := by
  have hf : phaseForm (s.sst.live.checkMode r) a (body ++ [b]) = _ := mode ▸ phaseForm_checkFailed long wrong
  obtain ⟨u, hu⟩ : ∃ u, u = s.countPort r (fun c => { c with checkFailures := bump c.checkFailures }) := ⟨_, rfl⟩
  have port : u.mgp.ports.get r = { s.mgp.ports.get r with counters := { (s.mgp.ports.get r).counters with
      checkFailures := bump (s.mgp.ports.get r).counters.checkFailures } } := hu ▸ countPort_port s r _
  have other : u.mgp.ports.get (otherRole r) = s.mgp.ports.get (otherRole r) := hu ▸ countPort_other s r _
  have bus : u.mgp.transaction = s.mgp.transaction := hu ▸ rfl
  have frame : OnlyChanges [.mgp] s u := hu ▸ countPort_frame s r _
  have unnamed : (PhaseForm.checkFailed (ofBytes (body.take 2)) (decide (2 < body.length))).named? r = none := rfl
  refine ⟨_, exec_writePhase hr ha hf stop, ?_⟩
  by_cases carried : 2 < body.length ∧ s.held r = false
  · have judged : s.judgePhase r (.checkFailed (ofBytes (body.take 2)) (decide (2 < body.length))) =
        u.record r (ofBytes (body.take 2)) .check [] := by
      rw [hu]
      exact if_pos (by simp [carried])
    obtain ⟨recorded, command, -⟩ := record_of_counted (e := ofBytes (body.take 2)) (code := .check) (value := []) port
    obtain ⟨counters, -⟩ := record_port u r (ofBytes (body.take 2)) .check []
    have framed : OnlyChanges [.mgp] s (u.record r (ofBytes (body.take 2)) .check []) := frame.seq (record_frame u r _ _ _)
    rw [judged, unnamed, nameObject_none]
    refine ⟨counters.trans (congrArg RolePort.counters port), fun _ _ => recorded, fun none => ?_, command,
      congrArg (fun x : Transaction => { x with phase := none, received := [], named := none }) bus,
      (record_other u r _ _ _).trans other, framed.seq (nameObject_frame _ _ _)⟩
    rcases none with short | held
    · omega
    · exact nomatch held.symm.trans carried.2
  · have judged : s.judgePhase r (.checkFailed (ofBytes (body.take 2)) (decide (2 < body.length))) = u := by
      rw [hu]
      exact if_neg (by simpa using carried)
    rw [judged, unnamed, nameObject_none]
    have result : (u.mgp.ports.get r).result = (s.mgp.ports.get r).result := by rw [port]
    have command : (u.mgp.ports.get r).command = (s.mgp.ports.get r).command := by rw [port]
    exact ⟨congrArg RolePort.counters port, fun data free => absurd ⟨data, free⟩ carried, fun _ => result, command,
      congrArg (fun x : Transaction => { x with phase := none, received := [], named := none }) bus, other,
      frame.seq (nameObject_frame _ _ _)⟩

/-- An object number alone names its object, unless a STOP ends the transaction. -/
theorem exec_writePhase_nameOnly (hr : s.Running) (ha : s.mgp.Addresses a r) (hi lo : Byte) (stop : Bool) :
    exec (.writePhase a (phaseBytes (s.sst.live.checkMode r) a [hi, lo]) stop) s =
      .next (s.nameObject (some (r, BitVec.ofNat 16 (hi.toNat * 256 + lo.toNat))) stop) := by
  have hexec := exec_writePhase_good hr ha (body := [hi, lo]) (by simp) stop
  rw [show [hi, lo].take 2 = [hi, lo] from rfl, ofBytes_two] at hexec
  exact hexec

/-- A number that no role may write is refused INVALID (R177). -/
theorem writeObject_unwritable {object : Nat} (settings : object ≠ 0x0003) (staging : object ≠ 0x0010)
    (command : object ≠ 0x0011) (edit : object ≠ 0x0020) (data : List Byte) :
    s.writeObject r object data = s.record r object .invalid [] :=
  (if_neg command).trans ((if_neg staging).trans ((if_neg settings).trans (if_neg edit)))

end

/-! ## The statement (R174 to R178, R182) -/

/-- The first part of O52 outside check mode: phases that carry little or nothing, an unwritable object, and DISCARD. -/
theorem writePhase_unchecked {s : State} {a : BitVec 7} {r : Role} {tx : Transaction} (hr : s.Running)
    (htx : tx = { s.mgp.transaction with phase := none, received := [], named := none }) (ha : s.mgp.Addresses a r)
    (mode : s.sst.live.checkMode r = false) (free : s.held r = false) :
    exec (.writePhase a [] true) s = .next (s.setMgp { s.mgp with transaction := tx })
      ∧ (∀ b, ∃ t, exec (.writePhase a [b] true) s = .next t
          ∧ (t.mgp.ports.get r).counters =
              { (s.mgp.ports.get r).counters with malformedWrites := bump (s.mgp.ports.get r).counters.malformedWrites }
          ∧ (t.mgp.ports.get r).result = (s.mgp.ports.get r).result
          ∧ t.mgp.ports.get (otherRole r) = s.mgp.ports.get (otherRole r) ∧ OnlyChanges [.mgp] s t)
      ∧ (∀ hi lo, exec (.writePhase a [hi, lo] true) s = .next (s.setMgp { s.mgp with transaction := tx })
          ∧ ∃ t, exec (.writePhase a [hi, lo] false) s = .next t
            ∧ t.mgp.transaction.named = some (r, BitVec.ofNat 16 (hi.toNat * 256 + lo.toNat))
            ∧ t.mgp.ports = s.mgp.ports ∧ OnlyChanges [.mgp] s t)
      ∧ (∀ hi lo b data object, object = hi.toNat * 256 + lo.toNat →
          object ≠ 0x0003 → object ≠ 0x0010 → object ≠ 0x0011 → object ≠ 0x0020 →
        ∃ t, exec (.writePhase a (hi :: lo :: b :: data) true) s = .next t
          ∧ Recorded s t r object .invalid [] ∧ OnlyChanges [.mgp] s t)
      ∧ (∃ t u, exec (.writePhase a [0x00#8, 0x11#8, 0x03#8] true) s = .next t ∧ exec (.discard r) s = .next u
          ∧ t = u.setMgp { u.mgp with transaction := tx }) := by
  have plain : ∀ body, phaseBytes (s.sst.live.checkMode r) a body = body := fun body => by rw [mode]; rfl
  refine ⟨?_, fun b => ?_, fun hi lo => ⟨?_, ?_⟩, fun hi lo b data object hobject settings staging command edit => ?_, ?_⟩
  · rw [htx]
    exact exec_writePhase hr ha (f := .empty) rfl true
  · obtain ⟨t, hexec, port, -, other, frame⟩ := exec_writePhase_malformed (bytes := [b]) hr ha
      (phaseForm_short (by simp) (by rw [mode]; exact Nat.one_lt_two)) true
    exact ⟨t, hexec, by rw [port], by rw [port], other, frame⟩
  · have hexec := exec_writePhase_nameOnly hr ha hi lo true
    rw [plain] at hexec
    rw [htx]
    exact hexec
  · have hexec := exec_writePhase_nameOnly hr ha hi lo false
    rw [plain] at hexec
    exact ⟨_, hexec, rfl, rfl, nameObject_frame _ _ _⟩
  · have hexec := exec_writePhase_good hr ha (body := hi :: lo :: b :: data) (by simp) true
    have number : ofBytes ((hi :: lo :: b :: data).take 2) = object := (ofBytes_two hi lo).trans hobject.symm
    rw [plain, number, show (hi :: lo :: b :: data).drop 2 = b :: data from rfl, judgePhase_written free _ (List.cons_ne_nil b data),
      writeObject_unwritable settings staging command edit] at hexec
    exact ⟨_, hexec, record_recorded s r _ _ _, (record_frame s r _ _ _).seq (nameObject_frame _ _ _)⟩
  · obtain ⟨u, hcommand, hexec⟩ := exec_writePhase_written (c := .discard r) (extra := []) hr ha rfl free
      (fun some_byte => absurd rfl some_byte) true
    rw [plain] at hexec
    have hdiscard : exec (.discard r) s = .next ((ownDiscard r (s.commanded r .discard [])).recorded r .discard) :=
      ifRunning_takeCommand ⟨hr, free⟩ (.inl rfl)
    obtain rfl : (ownDiscard r (s.commanded r .discard [])).recorded r .discard = u :=
      Host.Outcome.next.inj (hdiscard.symm.trans hcommand)
    refine ⟨_, _, hexec, hdiscard, ?_⟩
    rw [htx]
    rfl

/-- The command of a phase is refused INVALID where its code is unknown or its arguments too short (R182). -/
theorem writeCommand_invalid {s : State} {r : Role} {data : List Byte}
    (h : (∃ code, data = code :: data.drop 1 ∧ (code = 0#8 ∨ 15 < code.toNat))
      ∨ (∃ kind, data = [BitVec.ofNat 8 (CommandKind.code kind)] ++ data.drop 1
          ∧ (data.drop 1).length < kind.argBytes ∧ (r = .site ∨ kind.siteOnly = false))) :
    data ≠ [] ∧ s.writeCommand r data = s.record r (byteAt data 1).toNat .invalid [] := by
  rcases h with ⟨code, hdata, unknown⟩ | ⟨k, hdata, short, right⟩
  · have none : CommandKind.ofCode? code.toNat = none := ofCode_none (unknown.imp_left fun zero => by rw [zero]; rfl)
    rw [hdata]
    exact ⟨List.cons_ne_nil _ _, writeCommand_unknown none _⟩
  · have refused := writeCommand_short (s := s) short right
    rw [hdata]
    exact ⟨List.cons_ne_nil _ _, refused.trans (congrArg (s.record r · .invalid []) (code_toNat k).symm)⟩

/-- Settles O52: each phase by its form (`exec_writePhase`); one that carries a command or a write is that command or write by the
table of their bytes (`exec_writePhase_written`). -/
theorem writePhaseIsJudged : Obligations.WritePhaseIsJudged := by
  refine ⟨fun s a tx hr htx => ⟨fun bytes insertion site => ?_, fun r ha mode free => writePhase_unchecked hr htx ha mode free⟩,
    ?written, ?refused⟩
  · rw [htx]
    exact exec_writePhase_unaddressed hr insertion site bytes true
  case written =>
    rintro s v a r c body extra stop hr ha h free hv whole
    obtain ⟨u, hcommand, hexec⟩ := exec_writePhase_written hr ha h free whole stop
    exact ⟨_, u, hexec, hv ▸ hcommand, rfl⟩
  case refused =>
    rintro s a r body stop tx hr ha rfl
    refine ⟨fun free hbody invalid => ?_, fun mode => ⟨fun bytes some_byte short => ?_, fun b long wrong => ?_, fun hi lo => ?_⟩⟩
    · obtain ⟨data, rfl⟩ : ∃ data, body = 0x00#8 :: 0x11#8 :: data := ⟨_, hbody⟩
      obtain ⟨some_byte, refused⟩ := writeCommand_invalid (s := s) invalid
      exact exec_writePhase_invalidCommand hr ha free some_byte refused stop
    · refine exec_writePhase_malformed hr ha (phaseForm_short some_byte ?_) stop
      rw [if_pos mode, List.length_dropLast]
      omega
    · exact exec_writePhase_checkFailed hr ha mode long wrong stop
    · have hexec := exec_writePhase_nameOnly hr ha hi lo false
      rw [mode] at hexec
      exact ⟨_, hexec, rfl, rfl, nameObject_frame _ _ _⟩

end Machine
end Sys2Proof
end

section
/-! PROOFS. A step with a command at the front of the queue: the other arm of `step_of_empty`. -/

namespace Sys2Proof
namespace Machine

/-- The rule of a queue that is not empty: its front command runs on the state with the queue's rest. -/
theorem step_of_pending {s : State} {c : Instr} {rest : List Instr} (h : s.pending = c :: rest) :
    step s = exec c (s.setPending rest) := by
  unfold step
  rw [h]

/-- Settles O1: the command leaves the queue before it runs (`step_of_pending`), so the queue that was set is replaced by its
rest and nothing else of the state differs (`State.setPending_setPending`). -/
theorem stepRunsFrontCommand : Obligations.StepRunsFrontCommand := by
  intro c rest s
  calc step (s.setPending (c :: rest))
      = exec c ((s.setPending (c :: rest)).setPending rest) := step_of_pending (s.setPending_pending _)
    _ = exec c (s.setPending rest) := congrArg (exec c) (s.setPending_setPending _ rest)

end Machine
end Sys2Proof
end
